-- ==== Sys2Proof/Word.lean ====
section
/-! DEFINITION. The word types of the engine (R7, R8): bytes, 32-bit memory words and instruction words. -/

namespace Sys2Proof

/-- One byte of a memory, a message or a BLOB. -/
abbrev Byte := BitVec 8

/-- One 32-bit word of operand or cluster memory, or an X or C register (R57, R67). -/
abbrev Word := BitVec 32

/-- One 64-bit instruction word (R73). -/
abbrev IWord := BitVec 64

end Sys2Proof
end

