-- ==== Sys2Proof/Machine/Sparse.lean ====
section
/-! DEFINITION. Sparse storage in one canonical form: a list of (key, value) pairs with keys strictly rising and no
entry equal to what an unlisted key reads as. Every register file, object store and memory of the model uses it. -/

namespace Sys2Proof.Machine

/-- A sparse store from Nat keys to values. -/
abbrev Sparse (α : Type) := List (Nat × α)

/-- The value at a key: the listed one, or what `d` gives for an unlisted key. -/
def Sparse.get {α : Type} (d : Nat → α) : List (Nat × α) → Nat → α
  | [], k => d k
  | (j, v) :: r, k => if j = k then v else Sparse.get d r k

/-- The store without a key. -/
def Sparse.drop {α : Type} : List (Nat × α) → Nat → List (Nat × α)
  | [], _ => []
  | (j, v) :: r, k => if j = k then Sparse.drop r k else (j, v) :: Sparse.drop r k

/-- Insert a key in its sorted place, replacing what was listed there. -/
def Sparse.insert {α : Type} : List (Nat × α) → Nat → α → List (Nat × α)
  | [], k, v => [(k, v)]
  | (j, w) :: r, k, v =>
    if j = k then (k, v) :: r
    else if k < j then (k, v) :: (j, w) :: r
    else (j, w) :: Sparse.insert r k v

/-- Write a value: listed when it differs from what an unlisted key reads as, removed otherwise. -/
def Sparse.put {α : Type} [DecidableEq α] (d : Nat → α) (m : List (Nat × α)) (k : Nat) (v : α) : List (Nat × α) :=
  if v = d k then Sparse.drop m k else Sparse.insert m k v

/-- Keys strictly rise from `lo`. -/
def Sparse.sortedFrom {α : Type} : Nat → List (Nat × α) → Bool
  | _, [] => true
  | lo, (k, _) :: r => decide (lo ≤ k) && Sparse.sortedFrom (k + 1) r

/-- The canonical form: keys strictly rising, no entry equal to what its key reads as when unlisted. -/
def Sparse.wf {α : Type} [DecidableEq α] (d : Nat → α) (m : List (Nat × α)) : Bool :=
  Sparse.sortedFrom 0 m && m.all (fun e => decide (e.2 ≠ d e.1))

/-- The entries of consecutive values from a key upward. -/
def Sparse.run {α : Type} [DecidableEq α] (d : Nat → α) (k : Nat) : List α → List (Nat × α)
  | [] => []
  | v :: r => if v = d k then Sparse.run d (k + 1) r else (k, v) :: Sparse.run d (k + 1) r

/-- Write consecutive values from a key upward: what lies below, the new entries, what lies above. -/
def Sparse.putMany {α : Type} [DecidableEq α] (d : Nat → α) (m : List (Nat × α)) (k : Nat) (b : List α) : List (Nat × α) :=
  m.filter (fun e => decide (e.1 < k)) ++ Sparse.run d k b ++ m.filter (fun e => decide (k + b.length ≤ e.1))

/-- The values of `n` keys from `k` upward, in a store whose keys rise and none of whose keys lies below `k`. -/
def Sparse.walk {α : Type} (d : Nat → α) : List (Nat × α) → Nat → Nat → List α
  | _, _, 0 => []
  | [], k, n + 1 => d k :: Sparse.walk d [] (k + 1) n
  | (j, v) :: r, k, n + 1 =>
    if j = k then v :: Sparse.walk d r (k + 1) n else d k :: Sparse.walk d ((j, v) :: r) (k + 1) n

/-- Read `n` consecutive values from a key upward. -/
def Sparse.getMany {α : Type} (d : Nat → α) (m : List (Nat × α)) (k n : Nat) : List α :=
  Sparse.walk d (m.filter (fun e => decide (k ≤ e.1))) k n

end Sys2Proof.Machine
end

