-- ==== Sys2Proof/Messages.lean ====
section
/-! DEFINITION. The operands of the commands: Gultin messages, decisions of a pair, Braid messages and blocks, packets,
frames and bus transactions, as their receiver sees them. -/

namespace Sys2Proof

/-! ## Gultin messages (Tables 2.9 to 2.12) -/

/-- The header of a received Gultin message with what UDP and IP say of it (Table 2.9, R36, R37). The row that carries the
message fixes the TYPE it acts on: one whose TYPE byte is another is of an unknown or engine-only type. -/
structure Envelope where
  magic     : Nat
  version   : Nat
  typ       : Nat
  session   : Nat
  sequence  : Nat
  flags     : BitVec 16
  length    : Nat
  keySlot   : Nat
  reserved  : Nat
  /-- Length of the UDP payload as received. -/
  udpLength : Nat
  srcAddr   : Nat
  srcPort   : Nat
  /-- UDP destination port; interface it came by: 0 path A, 1 path B, 2 CTL0; VLAN of its frame, 0 untagged (R36, R243). -/
  dstPort   : Nat
  ifc       : Nat
  vlan      : Nat
  /-- The 16 tag bytes behind the payload, when the AUTH flag is set. -/
  tag       : List Byte
  deriving DecidableEq, Repr

/-- Payload of a HELLO (Table 2.12). -/
structure HelloBody where
  station  : Nat
  resume   : Nat
  reserved : Nat
  deriving DecidableEq, Repr

/-- Payload of a CLAIM: priority, then the bits PREEMPTIBLE, STANDING, WITHDRAW and five reserved bits. -/
structure ClaimBody where
  priority : Nat
  bits     : BitVec 8
  deriving DecidableEq, Repr

/-- Payload of a READ. -/
structure ReadBody where
  index   : Nat
  element : Nat
  sub     : Nat
  typ     : Nat
  offset  : Nat
  maxLen  : Nat
  deriving DecidableEq, Repr

/-- Payload of a WRITE behind its index and sub-index: element, type code, byte offset, value length, value. -/
structure WriteBody where
  element : Nat
  typ     : Nat
  offset  : Nat
  length  : Nat
  value   : List Byte
  deriving DecidableEq, Repr

/-- Payload of a GROUP_BEGIN. -/
structure BeginBody where
  tag      : Nat
  reserved : Nat
  deriving DecidableEq, Repr

/-- Payload of a GROUP_COMMIT: tag, 8-byte target, option bits, reserved bytes. -/
structure CommitBody where
  tag      : Nat
  target   : Nat
  options  : BitVec 16
  reserved : Nat
  deriving DecidableEq, Repr

/-- Payload of a SUBSCRIBE; for kind 1, `index` is the first event and `element` the last. -/
structure SubscribeBody where
  kind    : Nat
  mode    : Nat
  period  : Nat
  index   : Nat
  element : Nat
  sub     : Nat
  typ     : Nat
  deriving DecidableEq, Repr

/-- A request of Table 2.11 behind its header. -/
inductive Request where
  | hello (b : HelloBody)
  | claim (b : ClaimBody)
  | yield (station : Nat)
  | heartbeat (epoch : Nat)
  | read (b : ReadBody)
  | write (index sub : Nat) (b : WriteBody)
  | groupBegin (b : BeginBody)
  | groupCommit (b : CommitBody)
  | subscribe (b : SubscribeBody)
  | resume (fencedAt : Nat)
  deriving DecidableEq, Repr

/-- A decision of the active unit besides the requests it answers, as it journals it for its partner (R49, R143, R145, R269,
R290, R306, R331). -/
inductive Decision where
  /-- A window opens; the owner is lost; an election ends with the winner's session, priority and PREEMPTIBLE, or none (R46). -/
  | electing
  | ownerLost
  | elected (winner : Option (Nat × Nat × Bool))
  /-- A group, named by the session and sequence of its commit: ready for its target, moved to a frame, rejected (R138, R142). -/
  | groupReady (session sequence target : Nat)
  | groupMoved (session sequence target : Nat)
  | groupRejected (session sequence : Nat)
  /-- A phase of a federated commit (Table 6.5): its code in Table 13.10, tag, F and value; `own` for one this member sends. -/
  | fedPhase (own : Bool) (phase tag frame value : Nat)
  /-- A decision of the reference selector: entry (8 a step that is no switch, 9 a pending switch is given up, 255 holdover), frame,
  step in thirds of a nanosecond, what FRAME_NO does, frames ahead, and whether it is a reframe (R280, R290). -/
  | refStep (entry frame : Nat) (step3 : Int) (jump ahead : Nat) (reframe : Bool)
  /-- A re-base at a frame: the new TS_SHIFT (R269). -/
  | rebase (frame : Nat) (shift : Int)
  /-- Verdicts of the federation: mismatch bits, leader, members present (R332). -/
  | fedVerdict (mismatch leader present : Nat)
  deriving DecidableEq, Repr

/-- What a JOURNAL message carries (Table 13.10): the entry of a request, or a decision. -/
inductive JournalItem where
  | entry (r : Request)
  | decision (d : Decision)
  deriving DecidableEq, Repr

/-! ## Service port, Braid, network and bus operands -/

/-- A service-port request frame (Table 14.11): the bytes between the edges of SVC_CS_N. -/
structure SvcFrame where
  bytes : List Byte
  deriving DecidableEq, Repr

/-- A block of 66 bits (R216): its sync header, and its payload with byte 0, the first on the wire, in bits 63 to 56. -/
structure LinkBlock where
  hdr     : BitVec 2
  payload : BitVec 64
  deriving DecidableEq, Repr

/-- A Braid message as its receiver reads it from the link stream, descrambled (R222 to R225): the blocks from its START to its END, or
to the START that broke it off. Blocks of a newer message nested in it are that message's. -/
structure BraidFrame where
  link   : Fin 6
  blocks : List LinkBlock
  deriving DecidableEq, Repr

/-- AGREE, with the difference of the two ticks in ns that its arrival shows (R307). -/
structure AgreeFrame where
  frame  : BraidFrame
  skewNs : Int
  deriving DecidableEq, Repr

/-- The block at a marker position of a receive lane, unscrambled, with what came on the lane since the marker before (Table 10.3,
R219, R228). -/
structure MarkerBlock where
  block   : LinkBlock
  /-- The blocks since the marker before, scrambled, as far as the lane was locked. -/
  since   : List LinkBlock
  /-- Block time at which the marker arrived, on the receiver's own count. -/
  arrival : Nat
  /-- Direction the adaptation asks for in CTLE and DFE taps 1 to 5 (at most one code each is taken). -/
  wish    : List Int
  deriving DecidableEq, Repr

/-- A TRAIN block of a receive lane, descrambled (Table 10.7), with the receiver's own verdict on the lane. -/
structure TrainBlock where
  lane      : Fin 9
  block     : LinkBlock
  /-- The receiver's CTLE and DFE of this lane are satisfied (R229, TX_TUNE). -/
  satisfied : Bool
  /-- The steps of PRE and POST it would ask of the partner, coded as REQUEST (R230); 0 and 0 for none. -/
  ask       : Fin 4 × Fin 4
  /-- CTLE and DFE taps 1 to 5 as the receiver now has them. -/
  eq        : List Int
  deriving DecidableEq, Repr

/-- An RTP packet as it arrives on a path (R253). -/
structure RtpPacket where
  dst         : Nat
  src         : Nat
  port        : Nat
  version     : Nat
  extension   : Bool
  csrcCount   : Nat
  payloadType : Nat
  sequence    : Nat
  timestamp   : Nat
  ssrc        : Nat
  payload     : List Byte
  deriving DecidableEq, Repr

/-- What of a PTP message a switch or an instance looks at (R261 to R264). Times in 2^-16 ns. -/
structure PtpMsg where
  msgType    : Nat
  domain     : Nat
  sourcePort : Nat
  seqId      : Nat
  twoStep    : Bool
  correction : Int
  /-- originTimestamp, preciseOriginTimestamp, receiveTimestamp or the like carried. -/
  origin     : Int
  /-- logMessageInterval. -/
  interval   : Int
  /-- The data set of an Announce: grandmasterIdentity, clockClass, priority1, clockAccuracy, offsetScaledLogVariance, priority2,
  stepsRemoved. -/
  gmIdentity : Nat
  gmClass    : Nat
  priority1  : Nat
  accuracy   : Nat
  variance   : Nat
  priority2  : Nat
  steps      : Nat
  /-- Ingress stamp (PCS) on the counter of the path's instance. -/
  ingress    : Int
  deriving DecidableEq, Repr

/-- An Ethernet frame at a port of a path switch or at CTL0 (R239, R240). -/
structure EthFrame where
  dst       : Nat
  src       : Nat
  vlan      : Option Nat
  etherType : Nat
  length    : Nat
  /-- Neither the FCS nor the PCS found an error. -/
  sound     : Bool
  /-- IPv4 destination, protocol, UDP ports, UDP checksum and DSCP when the frame is IPv4. -/
  ipDst     : Nat
  proto     : Nat
  udpSrc    : Nat
  udpPort   : Nat
  checksum  : Nat
  dscp      : Nat
  ptp       : Option PtpMsg
  /-- Egress stamps (PCS) at external ports 0 and 1 if the frame leaves there. -/
  egress    : Int × Int
  /-- Frames that ports 0, 1 and 2 take from their queues once this one is in them, before the next frame comes. -/
  sent      : Nat × Nat × Nat
  deriving DecidableEq, Repr

/-- What the check bits of the words of one read show (R67, R393, R394): no error, an error of one bit that is corrected, one of two
bits that is not. -/
inductive EccHit where
  | clean
  | corrected
  | double
  deriving DecidableEq, Repr

/-- Where a load of a cell writes, and what the check bits of the words it reads show. -/
structure LoadDest where
  reg : Fin 8
  ecc : EccHit
  deriving DecidableEq, Repr

/-- A pilot as it is on the wire, and the 58 bits received before it (R216, R220). -/
structure PilotBits where
  before  : BitVec 58
  payload : BitVec 64
  deriving DecidableEq, Repr

/-- Who sends a delay request, 2 for the instance itself and 0 or 1 for an external port of its path (R264), and the egress stamp. -/
structure ReqEgress where
  sender : Fin 3
  stamp  : Int
  deriving DecidableEq, Repr

/-- One bus transaction (R384 to R386). -/
structure BusTx where
  master  : Fin 17
  id      : BitVec 8
  address : BitVec 48
  /-- Bytes read, or none when the transaction writes `data`. -/
  readLen : Option Nat
  data    : List Byte
  /-- What the target's check bits show at the first word read. -/
  ecc     : EccHit
  deriving DecidableEq, Repr

/-- One slot of an instruction (R68). -/
inductive SlotId where
  | a
  | b
  deriving DecidableEq, Repr

/-- Predication of a compute operation or a store (R78). -/
structure Pred where
  pen  : Bool
  psel : Fin 4
  pinv : Bool
  deriving DecidableEq, Repr

/-- What an LDP loads (Table 3.8). -/
inductive LdpKind where
  | p
  | m
  | n
  deriving DecidableEq, Repr

end Sys2Proof
end

