-- ==== Sys2Proof/Machine/Data.lean ====
section
/-! DEFINITION. The pieces of the state of one engine behind its dictionary objects: sessions and journal, commit groups,
cells, programs, Eddy, Confluence, Catchment, Braid, network, time, references, pair, federation, reset, events, bus and pins.
Plain data throughout. -/

namespace Sys2Proof.Machine

/-! ## Control: sessions, elections, journal -/

/-- A value of an object: a number in its type's range, or bytes (STR and BLOB). -/
inductive Val where
  | num (n : Int)
  | bytes (b : List Byte)
  deriving DecidableEq, Repr

/-- The answer kept in a result store: ACK data or a NAK code with its information (R50, Table 2.14). -/
structure Result where
  sequence : Nat
  ack      : Bool
  code     : Nat
  info     : Nat
  /-- Message type of the request answered. -/
  kind     : Nat
  deriving DecidableEq, Repr

/-- A request in the window that is held for its predecessors (R42). -/
structure Held where
  envelope : Envelope
  request  : Request
  deriving DecidableEq, Repr

/-- A subscription (R44). -/
structure Sub where
  id      : Nat
  kind    : Nat
  mode    : Nat
  period  : Nat
  /-- Object key (kind 0). -/
  object  : Nat
  first   : Nat
  last    : Nat
  /-- Value last pushed or seen (kind 0, on change). -/
  seen    : List Byte
  deriving DecidableEq, Repr

/-- What a session holds behind its objects at 1110h (R41 to R45). -/
structure Session where
  /-- Standing claim: priority and PREEMPTIBLE (R47). -/
  standing : Option (Nat × Bool)
  /-- Results, newest first, at most 1,024 (R50). -/
  results  : List Result
  held     : List Held
  pushSeq  : Nat
  subs     : List Sub
  /-- Order in which the session went dormant; larger is later (R41). -/
  dormant  : Nat
  /-- The last message arrived at the partner (R311). -/
  atPartner : Bool
  /-- KEY_SLOT of the last tagged request (R56). -/
  keySlot  : Nat
  tagged   : Bool
  /-- Highest sequence number skipped by a RESUME; numbers skipped are answered STALE (R54). -/
  skipped  : List (Nat × Nat)
  deriving DecidableEq, Repr

/-- A session as it is when FREE. -/
def Session.free : Session := ⟨none, [], [], 1, [], 0, false, 0, false, []⟩

/-- A candidate of the running election (R47). -/
structure Candidate where
  session     : Nat
  priority    : Nat
  preemptible : Bool
  /-- The CLAIM that waits for the end of the election, none for a standing claim. -/
  waiting     : Option Held
  deriving DecidableEq, Repr

/-- A journal entry (Table 2.16); STATE 0 accepted, 1 applied at this unit, 2 retired. Retired entries leave the ring. -/
structure JEntry where
  kind     : Nat
  state    : Nat
  session  : Nat
  sequence : Nat
  frame    : Nat
  request  : Request
  length   : Nat
  /-- The CRC of the entry no longer matches (an uncorrectable error hit it, R394). -/
  bad      : Bool
  /-- The partner has not reported it written yet: it holds the entry, and has not applied it (R50). -/
  waits    : Bool
  deriving DecidableEq, Repr

/-- An answer that waits for the partner's confirmation (R50, R306). -/
structure AwaitAck where
  envelope : Envelope
  request  : Request
  result   : Result
  deriving DecidableEq, Repr

/-- An open BLOB series (R38). -/
structure Series where
  session : Nat
  object  : Nat
  bytes   : List Byte
  deriving DecidableEq, Repr

structure Ctl where
  sessions    : Sparse Session
  candidates  : List Candidate
  journal     : List JEntry
  await       : List AwaitAck
  series      : List Series
  /-- Requests this standby has forwarded and not yet answered (R143). -/
  forwarded   : List Held
  /-- Persistent values in the QSPI configuration area (R32). -/
  savedNum    : Sparse Int
  savedBlob   : Sparse (List Byte)
  savedHash   : Nat
  dormantNo   : Nat
  /-- Ownership was ELECTING or OWNED before the last reset (R46). -/
  ownedBefore : Bool
  /-- The journal is to be replayed, or a firmware hand-over runs: check 5 of Table 2.13 fails. -/
  replay      : Bool
  handover    : Bool
  deriving DecidableEq, Repr

/-! ## Sluice -/

/-- One change of a commit group or one waiting write: object key and value. -/
structure Change where
  object : Nat
  value  : Val
  deriving DecidableEq, Repr

/-- A commit group that waits for its frame (R135 to R142). -/
structure Group where
  id         : Nat
  tag        : Nat
  session    : Nat
  target     : Nat
  /-- Target acknowledged to the owner, before any move. -/
  asked      : Nat
  firstFeasible : Bool
  sequential : Bool
  /-- FED_TAG at its commit; 0 for a group that is not federated (R144). -/
  fedTag     : Nat
  changes    : List Change
  /-- Later sub-groups of a sequential commit with their preparation bounds (R142). -/
  rest       : List (List Change × Nat)
  prepared   : Bool
  /-- The test at F - 2 found the group ready. -/
  isReady    : Bool
  moved      : Bool
  /-- 1 preparing, 2 ready, 3 held, 4 applying in sub-groups (Table 6.7). -/
  phase      : Nat
  /-- HBM bytes its preparation holds until it applies. -/
  bytes      : Nat
  /-- The group began as a WRITE outside any group (R31). -/
  single     : Bool
  /-- Sequence numbers of its GROUP_BEGIN, and of its GROUP_COMMIT or WRITE. -/
  beginSeq   : Nat
  seq        : Nat
  /-- Its target was skipped (R140). -/
  late       : Bool
  /-- A later sub-group whose preparation begins at this frame (R142). -/
  prepAt     : Option Nat
  /-- Frame at which sub-group 1 applied (`target` is then that of the next sub-group), and changes held so far (R141). -/
  firstAt    : Option Nat
  heldCount  : Nat
  deriving DecidableEq, Repr

/-- A DIRECT write with its assigned frame (R20), its place in the order of acknowledgement (R139) and its journal entry. -/
structure Direct where
  order   : Nat
  frame   : Nat
  session : Nat
  seq     : Nat
  change  : Change
  deriving DecidableEq, Repr

/-- A change held for a block under reset, by code (R53, R141), with the journal entry of a single write; session 0 for a change
of a group. -/
structure HeldChange where
  block   : Nat
  session : Nat
  seq     : Nat
  change  : Change
  deriving DecidableEq, Repr

structure Sluice where
  openTag     : Nat
  openSession : Nat
  /-- Sequence number of the open group's GROUP_BEGIN. -/
  openSeq     : Nat
  openSet     : List Change
  waiting     : List Group
  heldFed     : Option Group
  coord       : Option Group
  /-- Members that have answered READY to the coordinating group (R145). -/
  answers     : List Nat
  /-- The group released by GO and the generation GO carried (R331). -/
  goAt        : Option (Nat × Nat)
  /-- A PREPARE has named the held group's tag; the PREPARE still undecided, by tag and F; when the held group's preparation
  is complete at the latest. -/
  prepareSeen : Bool
  fedAsk      : Option (Nat × Nat)
  fedReady    : Nat
  nextId      : Nat
  /-- DIRECT writes, oldest first (R20). -/
  direct      : List Direct
  /-- Changes held for blocks under reset, in order (R53, R141). -/
  heldBlock   : List HeldChange
  deriving DecidableEq, Repr

/-! ## DSP cells -/

/-- An accumulator: 56-bit V, hidden wrap counter W, WRAP_LOST (R57, R61). -/
structure Acc where
  v    : BitVec 56
  w    : Int
  lost : Bool
  deriving DecidableEq, Repr

/-- The registers of one lane (Table 3.1). -/
structure Lane where
  a : Vector Acc 8
  x : Vector Word 4
  c : Vector Word 4
  f : Vector Bool 4
  deriving DecidableEq, Repr

/-- The address registers of a cell (Table 3.1). -/
structure Addrs where
  p : Vector (BitVec 15) 8
  m : Vector Word 8
  n : Vector (BitVec 16) 8
  deriving DecidableEq, Repr

/-- One open hardware loop: start address and remaining count (R74). -/
structure Loop where
  start : Nat
  left  : Nat
  deriving DecidableEq, Repr

/-- The registers as they stood before the instruction in progress, and what slot A left (R72, R77). -/
structure Latch where
  lanes  : Vector Lane 8
  /-- Address registers as slot A left them, when slot A has acted. -/
  afterA : Option Addrs
  /-- The LDP of slot A, which prevails over slot B's step. -/
  ldpA   : Option (LdpKind × Fin 8 × Word)
  /-- Register and values slot B or A loaded, which prevail over compute results. -/
  loadB  : Option (Fin 8)
  deriving DecidableEq, Repr

/-- One cell (Table 3.1). Its status word is the object 4010h[cluster].2 + cell. -/
structure Cell where
  lanes    : Vector Lane 8
  addrs    : Addrs
  loops    : List Loop
  /-- Address of the instruction in progress, and of the next one. -/
  pc       : Nat
  nextPc   : Nat
  latch    : Latch
  mem      : Sparse Word
  bank0    : Sparse IWord
  bank1    : Sparse IWord
  /-- Bank 1 is the active one. -/
  bankSel  : Bool
  active   : Bool
  yields   : Nat
  /-- Events 161, 162, 163 recorded since the schedule began (R84). -/
  wrapped  : Bool
  lostSum  : Bool
  saturated : Bool
  deriving DecidableEq, Repr

def Acc.zero : Acc := ⟨0, 0, false⟩
def Lane.zero : Lane := ⟨.replicate 8 Acc.zero, .replicate 4 0, .replicate 4 0, .replicate 4 false⟩
def Addrs.zero : Addrs := ⟨.replicate 8 0, .replicate 8 0, .replicate 8 0⟩
def Latch.zero : Latch := ⟨.replicate 8 Lane.zero, none, none, none⟩

/-- A cell after a reset that reaches its cluster (R58), with cleared memory (R336). -/
def Cell.zero : Cell :=
  { lanes := .replicate 8 Lane.zero, addrs := Addrs.zero, loops := [], pc := 0, nextPc := 0, latch := Latch.zero,
    mem := [], bank0 := [], bank1 := [], bankSel := false, active := false, yields := 0, wrapped := false,
    lostSum := false, saturated := false }

/-! ## Programs and Eddy -/

/-- A DICT declaration of a program image (Table 4.4). -/
structure DictDecl where
  index    : Nat
  elements : Nat
  sub      : Nat
  typ      : Nat
  access   : Nat
  flags    : Nat
  cell     : Nat
  word     : Nat
  stride   : Nat
  dflt     : Int
  deriving DecidableEq, Repr

/-- A tap of an Eddy descriptor: cell, base word, age. -/
structure Tap where
  cell : Nat
  base : Nat
  age  : Nat
  deriving DecidableEq, Repr

/-- An Eddy descriptor of an image (Table 4.7). -/
structure EddyDecl where
  id        : Nat
  location  : Nat
  channels  : Nat
  writeCell : Nat
  writeBase : Nat
  length    : Nat
  taps      : List Tap
  deriving DecidableEq, Repr

/-- A Confluence port claim (R88). -/
structure Claim where
  slot      : Nat
  direction : Nat
  lane      : Nat
  cell      : Nat
  base      : Nat
  deriving DecidableEq, Repr

/-- An exchange entry (Table 4.3). -/
structure XEntry where
  direction : Nat
  peer      : Nat
  localWord : Nat
  peerWord  : Nat
  deriving DecidableEq, Repr

/-- A carry-map entry (Table 4.6). -/
structure Carry where
  kind   : Nat
  target : Nat
  first  : Nat
  count  : Nat
  deriving DecidableEq, Repr

/-- Initial contents of a memory: word address and words. -/
structure InitRec where
  addr  : Nat
  words : List Nat
  deriving DecidableEq, Repr

/-- Initial contents and registers of a cell (CELL_INIT). -/
structure CellInit where
  cell  : Nat
  recs  : List InitRec
  p     : List Nat
  m     : List Nat
  n     : List Nat
  deriving DecidableEq, Repr

/-- A program image after parsing (R89). -/
structure Image where
  hash     : Nat
  name     : List Byte
  rate     : Nat
  schedule : Nat
  code     : List (Nat × List IWord)
  cells    : List CellInit
  clusters : List (Nat × List InitRec)
  exchange : List (Nat × List XEntry)
  dict     : List DictDecl
  eddy     : List EddyDecl
  claims   : List Claim
  carry    : List Carry
  usage    : Option (List Byte)
  deriving DecidableEq, Repr

/-- No image. -/
def Image.none : Image := ⟨0, [], 0, 0, [], [], [], [], [], [], [], [], .none⟩

structure Program where
  running   : Option Image
  staged    : Option Image
  /-- DSP output samples of the outgoing program's last schedule, by source, for the next route pass (R97). -/
  oldOut    : Option (Sparse (List Int))
  /-- The control complex's copy of the RW and WO program objects applied so far (R55, R109). -/
  copies    : List (Nat × Int)
  /-- A verification is in progress on this slot. -/
  verifying : Option Nat
  /-- The preparation of a swap has loaded inactive banks and written initial values in the background (R94). -/
  prepared  : Bool
  deriving DecidableEq, Repr

/-- An Eddy descriptor behind its objects at 4100h. -/
structure Eddy where
  writeCell : Nat
  writeBase : Nat
  /-- Cell and base word of each tap; ages are objects. -/
  taps      : List (Nat × Nat)
  /-- Ring contents by index × CHANNELS + channel. -/
  samples   : Sparse Word
  /-- The background copy of a reshaped ring has completed (R103). -/
  copied    : Bool
  /-- Taps whose samples for the next frame are fetched (R107). -/
  fetched   : List Nat
  /-- Taps whose samples for the current frame are not yet in place. -/
  due       : List Nat
  /-- Words last delivered, by 128 × tap + 8 × position + channel. -/
  delivered : Sparse Word
  /-- Frame from which the descriptor is installed: W stays 0 through the tick of that frame. -/
  born      : Nat
  deriving DecidableEq, Repr

def Eddy.empty : Eddy :=
  { writeCell := 0, writeBase := 0, taps := [], samples := [], copied := false, fetched := [], due := [],
    delivered := [], born := 0 }

/-! ## Confluence and TDM -/

/-- A crossfade in progress (R118): outgoing source, next fade sample, length, EQUAL_POWER. -/
structure Fade where
  old   : Nat
  k     : Nat
  n     : Nat
  equal : Bool
  deriving DecidableEq, Repr

/-- A gain ramp in progress (R121): from, to, next step. -/
structure Ramp where
  g0 : Int
  g1 : Int
  k  : Nat
  deriving DecidableEq, Repr

/-- A cut that waits for a crossing (R119, R123): outgoing source, source searched (the lead's outgoing one when it follows
the lead), its last sample, samples searched, their limit T, destination charged with a timeout, frame of the change. -/
structure Cut where
  old    : Nat
  search : Nat
  prev   : Int
  count  : Nat
  limit  : Nat
  owner  : Nat
  frame  : Nat
  deriving DecidableEq, Repr

/-- A destination behind its objects at 4200h (R116 to R125). -/
structure Dest where
  /-- Source in force, the incoming one during a fade or cut. -/
  src     : Nat
  fade    : Option Fade
  cut     : Option Cut
  /-- Linear gain at the last sample. -/
  g       : Int
  /-- Pending or ramped-to GAIN value, and samples searched while it is pending. -/
  target  : Option Int
  search  : Option Nat
  ramp    : Option Ramp
  /-- Last pre-gain sample, and last samples of the source in force and of the outgoing source. -/
  lastU   : Int
  lastS   : Int
  lastOld : Int
  /-- Frame at which SOURCE last changed, and the source held before. -/
  changed : Option (Nat × Nat)
  /-- Samples delivered in the last route pass. -/
  y       : List Int
  /-- Largest magnitude of the running meter period, and sums of squares of past frames, newest first. -/
  peak    : Nat
  squares : List Nat
  /-- CLIPS at the end of the last meter period, for BULK. -/
  clips   : Nat
  deriving DecidableEq, Repr

/-- A destination after reset: source 0, gain 0.00 dB, nothing in progress (R114). -/
def Dest.idle : Dest := ⟨0, none, none, 8388608, none, none, none, 0, 0, 0, none, [], 0, [], 0⟩

/-- A Rill route behind its objects at 4210h (R127, R128). -/
structure Rill where
  /-- 0 off, 1 fading in, 2 on, 3 fading out. -/
  mode : Nat
  /-- Next sample of the fade, and its length: 64 for a crossfade, more for the rise of a boot route (R129). -/
  fade : Nat
  fadeLen : Nat
  /-- Linear gain at the last sample, and a ramp to a new one. -/
  g    : Int
  ramp : Option Ramp
  /-- Number of the input TDM frame played last, between clock groups (R127). -/
  last : Option Nat
  deriving DecidableEq, Repr

def Rill.idle : Rill := ⟨0, 0, 64, 8388608, none, none⟩

structure Tdm where
  /-- Samples captured in the media frame in progress, newest first, by 32 × port + slot. -/
  capture  : Sparse (List Int)
  /-- Complete captures by frame, newest first. -/
  frames   : List (Nat × Sparse (List Int))
  /-- Captures adopted from the active unit (R304). -/
  adopted  : List (Nat × Sparse (List Int))
  /-- Route-pass outputs that play in this media frame and the next, by destination. -/
  playing  : Sparse (List Int)
  routed   : Sparse (List Int)
  /-- TDM frames seen per clock group since the frame tick. -/
  position : List Nat
  /-- The last TDM frames captured per clock group, newest first: number and samples by slot code (R127). -/
  heard    : List (List (Nat × List (Nat × Int)))
  /-- TDO outputs and master clocks of each group are driven. -/
  driving  : List Bool
  /-- They change at the next TDM frame start of each group (R311, R350). -/
  driveNext : Bool
  running  : Bool
  /-- Last samples played by slot code, and those the outputs and the inputs of this frame crossfade from (R285). -/
  lastOut  : Sparse Int
  outFade  : Option (Sparse Int)
  inFade   : Option (Sparse Int)
  deriving DecidableEq, Repr

structure Conf where
  dests : Sparse Dest
  rills : Sparse Rill
  tdm   : Tdm
  /-- Route pass muted: network samples of this frame (R269). -/
  muteFrame : Option Nat
  /-- Fade of a reframe: B and its delay d (R287). -/
  reframe   : Option (Nat × Nat)
  /-- Splice crossfade: B and n (R285). -/
  splice    : Option (Nat × Int)
  /-- Frame at which the last meter period ended, and frames of the running one. -/
  meterFrame : Nat
  meterRun  : Nat
  deriving DecidableEq, Repr

/-! ## Catchment -/

/-- A received array block (Table 7.3). -/
structure ArrBlock where
  link         : Nat
  concentrator : Nat
  seq          : Nat
  frame        : Nat
  first        : Nat
  channels     : Nat
  overload     : Nat
  /-- Sample j of channel first + i at position channels × j + i. -/
  samples      : List Int
  crc          : Nat
  deriving DecidableEq, Repr

/-- An element behind its objects at 5000h. -/
structure Elem where
  /-- The slot is active: its rings run (R156). -/
  live    : Bool
  g       : Int
  ramp    : Option Ramp
  /-- Last gained samples, newest first (R159). -/
  ring    : List Int
  /-- Last channeliser inputs, newest first (R160). -/
  history : List Int
  peak    : Int
  lostIn  : List Nat
  deriving DecidableEq, Repr

def Elem.idle : Elem := ⟨false, 8388608, none, [], [], 0, []⟩

/-- The subband samples of one m: per active slot, 128 complex integers. -/
structure SubSet where
  m    : Nat
  vals : Sparse (List (Int × Int))
  deriving DecidableEq, Repr

/-- A snapshot (Tables 8.3 and 8.4). -/
structure Snapshot where
  number   : Nat
  ready    : Bool
  mode     : Nat
  groups   : List Nat
  gen      : Nat
  start    : Nat
  len      : Nat
  fineFirst : Nat
  counts   : List Nat
  shifts   : List Nat
  excluded : List Nat
  unsettled : List Nat
  lost     : List Nat
  isPartial : Bool
  readyFrame : Nat
  /-- Scaled entries: block × 2^24 + band × 2^16 + 128 i + j (R183). -/
  entries  : Sparse (Int × Int)
  /-- Keys of saturated entries. -/
  satur    : List Nat
  incomplete : List Nat
  deriving DecidableEq, Repr

def Snapshot.none : Snapshot := ⟨0, false, 0, [], 0, 0, 0, 0, [], [], [], [], [], false, 0, [], [], []⟩

/-- A generation (R172): its configuration, its first subband sample, and the subband sample at which it has ended. -/
structure Gen where
  number : Nat
  mode   : Nat
  len    : Nat
  bands  : Nat
  groups : List Nat
  fineFirst : Nat
  g0     : Nat
  stop   : Option Nat
  deriving DecidableEq, Repr

/-- An allocation of the two snapshot slots: their HBM addresses, the bytes of one, what they hold, and the first generation that writes
into them (R180, R181). -/
structure SlotArea where
  base0 : Nat
  base1 : Nat
  bytes : Nat
  snaps : List Snapshot
  since : Nat
  deriving DecidableEq, Repr

structure Corr where
  /-- Generations with subband samples still to come, oldest first. -/
  gens      : List Gen
  /-- Subband samples of the period under way, newest first: the corner turn (R178). -/
  corner    : List SubSet
  /-- Elements excluded or unassigned at some subband sample of the period, and the shifts of the period (R175). -/
  excluded  : List Nat
  shifts    : List Nat
  computing : List Snapshot
  /-- Slots allocated, oldest first: those of SLOT0_BASE and SLOT1_BASE, then any that wait for their first ready snapshot. -/
  areas     : List SlotArea
  nextNo    : Nat
  /-- Last subband sample and L of the last complete period of the generation that ended last (R173). -/
  lastEnd   : Option (Nat × Nat)
  deriving DecidableEq, Repr

/-- One side of a beam transition (R199): what the beam is. -/
structure BeamCfg where
  on     : Bool
  mode   : Nat
  /-- Weight buffer; 2 for weights kept when the buffers were freed. -/
  buffer : Nat
  steer  : List Byte
  deriving DecidableEq, Repr

def BeamCfg.off : BeamCfg := ⟨false, 0, 0, []⟩

structure BeamSt where
  live    : BeamCfg
  /-- Outgoing side, incoming side, next fade index, fade length. -/
  fading  : Option (BeamCfg × BeamCfg × Nat × Nat)
  /-- The last values t, 128 complex, for R204. -/
  lastT   : List (Int × Int)
  /-- Transitions that wait for their subband sample: m_F, incoming side, fade length. -/
  next    : List (Nat × BeamCfg × Nat)
  /-- Synthesis sums acc[n] still to come, from n = accAt on. -/
  acc     : List Int
  accAt   : Nat
  /-- The weights of the next subband sample are late (R204). -/
  late    : Bool
  peak    : Nat
  /-- The last beam samples o, newest first (R198). -/
  hist    : List Int
  /-- Samples of the running frame. -/
  y       : List Int
  deriving DecidableEq, Repr

def BeamSt.idle : BeamSt := ⟨BeamCfg.off, none, [], [], [], 0, false, 0, [], []⟩

/-- A scan map under way or complete (R207 to R210). -/
structure ScanMap where
  /-- First subband sample, next evaluation, power by band × 4,096 + point. -/
  first    : Nat
  next     : Nat
  power    : Sparse Nat
  unsettled : Bool
  deriving DecidableEq, Repr

/-- A complete map as kept for MAP_DATA and for the Drift record. -/
structure MapDone where
  number : Nat
  frame  : Nat
  first  : Nat
  last   : Nat
  nx     : Nat
  ny     : Nat
  depth  : Nat
  bands  : Nat
  shift  : Nat
  unsettled : Bool
  values : Sparse Nat
  satur  : Nat
  deriving DecidableEq, Repr

/-- A map record on its way to its Drift queue (R378): items still to be packed, whether its first word is still to come,
and whether that word follows an abandoned record. -/
structure MapOut where
  queue : Nat
  items : List Nat
  first : Bool
  loss  : Bool
  deriving DecidableEq, Repr

structure Catch where
  /-- The channeliser runs: Flowing has begun (R163). -/
  running  : Bool
  copies   : List ArrBlock
  elems    : Sparse Elem
  /-- First frame whose blocks count, next input index, next subband sample to become available. -/
  base     : Nat
  nextIn   : Nat
  nextSub  : Nat
  /-- Values that changes of recent frames replaced, oldest first: the value in force at an earlier frame. -/
  olds     : List (Nat × Change)
  lookback : List SubSet
  lookFrom : Nat
  corr     : Corr
  beams    : Sparse BeamSt
  /-- Adaptive weight buffers by beam × 2 + buffer: their bytes, listed while they exist. -/
  buffers  : Sparse (List Byte)
  /-- Buffers that are freed at a frame (R193): frame and beam. -/
  bufFree  : List (Nat × Nat)
  /-- Weights that a side of a beam still reads after its buffers were freed, by beam. -/
  kept     : Sparse (List Byte)
  /-- SETTLED_FROM of every element without a change since the channeliser started (R163). -/
  settledBase : Nat
  /-- HBM areas still held: 0 corner turn, 2 rings and buffers, 16 and up rings in cluster memory, in words; their bytes; the frame at
  which they are freed (R187). -/
  held     : List (Nat × Nat × Nat)
  /-- Allocations made. -/
  allocs   : Nat
  scan     : Option ScanMap
  /-- Subband samples at which a new map begins (R208). -/
  scanFrom : List Nat
  ended    : List MapDone
  lastMap  : Option MapDone
  /-- The record of the last map, as far as it is still to be pushed (R209). -/
  mapOut   : Option MapOut
  /-- Snapshots of periods that began before this frame are invalid: E of a resync target (R317). -/
  exactFrom : Nat
  deriving DecidableEq, Repr

/-! ## Braid -/

/-- A lane behind its objects at 3010h (R220 to R235). -/
structure LaneSt where
  /-- CTLE and DFE taps 1 to 5 now, and their trained values (R228). -/
  eq       : List Int
  trained  : List Int
  /-- The last marker count, whether it followed the one before it, and when it arrived (R222). -/
  lastCount : Option Nat
  agreed   : Bool
  arrival  : Nat
  /-- RX_READY of this receiver and of the partner's receiver of the same lane. -/
  tuned    : Bool
  partnerReady : Bool
  /-- REQ_ID last seen from the partner; and this receiver's last own: its number, its codes of PRE and POST, and whether its echo
  is awaited (R230). -/
  lastReq  : Option Nat
  reqId    : Nat
  asked    : Nat × Nat
  waiting  : Bool
  /-- STATUS last sent for the transmit lane of this number, and last received for its own request. -/
  status   : Nat
  echoed   : Nat
  /-- The transmit lane of this number carries the training pattern in ACTIVE (R233, R235). -/
  training : Bool
  bipArmed : Bool
  atBound  : Bool
  /-- The lane has lost block lock and not found it again. -/
  lockLost : Bool
  /-- PILOT_ERRORS at the start of the running second. -/
  pilotBase : Nat
  deriving DecidableEq, Repr

def LaneSt.idle : LaneSt :=
  ⟨[0, 0, 0, 0, 0, 0], [0, 0, 0, 0, 0, 0], none, false, 0, false, false, none, 0, (0, 0), false, 0, 0, false, false, false, false, 0⟩

/-- Sparing of a logical lane (R233): requested or copying; the check of step 3 is made, and has found nothing so far. -/
structure Sparing where
  logical : Nat
  copying : Bool
  checks  : Bool
  clean   : Bool
  deriving DecidableEq, Repr

/-- A message handed to the link layer: its class, the place in the link stream of the running frame from which it is ready, and its
blocks (R224). -/
structure Handed where
  cls    : Nat
  place  : Nat
  blocks : List LinkBlock
  deriving DecidableEq, Repr

/-- What a transmit direction sends over the frame that ends, before scrambling (R216 to R224): the block count B of its position 0 and
its length in blocks; per physical lane 0 to 8 the logical lane it carries, if any, whether it runs the training pattern, and its TRAIN
payload; whether SP's is a copy; the width; and the message blocks as runs of the link stream, IDLE between them. -/
structure LaneFrame where
  first    : Nat
  length   : Nat
  carried  : List (Option Nat)
  training : List Bool
  train    : List (BitVec 64)
  copy     : Bool
  width    : Nat
  runs     : List (Nat × List LinkBlock)
  deriving DecidableEq, Repr

/-- A link behind its objects at 3000h (R217 to R233). -/
structure LinkSt where
  /-- Failed attempts since ACTIVE or the loss of the partner (R232). -/
  fails    : Nat
  fcLost   : Bool
  /-- The link has left ACTIVE and not returned. -/
  down     : Bool
  /-- The count of frames run since T_R at which it last entered ACTIVE. -/
  since    : Option Nat
  /-- B at position 0 of the running frame, once the lanes are driven (R217). -/
  count    : Option Nat
  /-- Per class, the blocks not yet sent at that position; and the messages handed over since (R224). -/
  backlog  : List (List LinkBlock)
  handed   : List Handed
  /-- WIDTH and MIN_WIDTH of the running training (R238). -/
  latched  : Nat × Nat
  /-- Last MSG_SEQ received, and next to send, per class. -/
  rxSeq    : List (Option Nat)
  txSeq    : List Nat
  rxSpare  : Option Sparing
  txSpare  : Option Sparing
  /-- Width and spared lane chosen for the receive direction, and by the partner for the transmit direction (R231). -/
  width    : Nat
  spareLane : Option Nat
  partnerWidth : Nat
  partnerSpare : Option Nat
  deskewed : Bool
  partnerDeskew : Bool
  deriving DecidableEq, Repr

def LinkSt.idle : LinkSt :=
  ⟨0, false, false, none, none, [[], [], []], [], (8, 1), [none, none, none], [0, 0, 0], none, none, 0, none, 0, none, false, false⟩

structure Braid where
  links : Sparse LinkSt
  lanes : Sparse LaneSt
  deriving DecidableEq, Repr

/-! ## Network and time -/

/-- A copy of a media packet held in the jitter buffer (R254, R255). -/
structure RxCopy where
  stream : Nat
  path   : Nat
  seq    : Nat
  /-- Index of its first sample after LINK_OFFSET. -/
  at0    : Nat
  count  : Nat
  /-- Samples, sample by sample, channel by channel. -/
  samples : List Int
  crc    : Nat
  /-- RTP time stamp and payload as received, for a fill (R303). -/
  stamp  : Nat
  payload : List Byte
  deriving DecidableEq, Repr

/-- A path switch: learned addresses and their ports, group members, ports with a querier, the last query of version 2 (its count
of frames run, plus 1), residence times held for two-step Syncs by source port and sequence; per port the frames in its four egress
queues, each with the port it came by; per external port the egress stamp of its own peer-delay request and a response of two steps
that waits for its second (R240, R241, R264). -/
structure PathSt where
  macs     : List (Nat × Nat)
  members  : List (Nat × Nat)
  queriers : List Nat
  v2At     : Nat
  holds    : List (Nat × Nat × Int)
  queues   : List (List (List (Nat × EthFrame)))
  reqOut   : List (Option Int)
  respWait : List (Option PtpMsg)
  deriving DecidableEq, Repr

def PathSt.idle : PathSt :=
  ⟨[], [], [], 0, [], List.replicate 3 (List.replicate 4 []), [none, none], [none, none]⟩

structure Net where
  copies   : List RxCopy
  /-- Sequence numbers recorded: stream, sequence, frame of the last sample (R255). -/
  seen     : List (Nat × Nat × Nat)
  /-- Streams and sequence numbers whose two copies have been found to differ. -/
  differ   : List (Nat × Nat)
  /-- Frame of the last event 69 per stream, plus 1. -/
  badAt    : Sparse Nat
  /-- First sample index of the last accepted packet modulo S, per stream. -/
  phase    : Sparse Nat
  /-- First sample index a receive stream delivers, and the one from which it reads 0 again (R258). -/
  rxFrom   : Sparse Nat
  rxUntil  : Sparse Nat
  /-- Next packet number of a transmit stream plus 1, and first sample index at which it sends none (R248). -/
  txNext   : Sparse Nat
  txUntil  : Sparse Nat
  /-- Samples of the transmit channels by media frame, newest first. -/
  played   : List (Nat × Sparse (List Int))
  /-- Paths that deliver, and paths whose loss is reported: stream × 2 + path. -/
  hearing  : List Nat
  lossSeen : List Nat
  paths    : List PathSt
  deriving DecidableEq, Repr

/-- A master heard on a path: its last Announce, the count of frames run at which that came, and at which the one before it did. -/
structure Master where
  msg    : PtpMsg
  heard  : Nat
  before : Option Nat
  deriving DecidableEq, Repr

/-- A PTP ordinary clock behind its objects at 2100h or 2101h (R261 to R267). Times in 2^-16 ns. -/
structure PtpInst where
  /-- The time counter in 2^-32 ns: 48-bit seconds, nanoseconds and a 32-bit fraction; and what a CLK_TIME cycle adds to it (R262). -/
  counter  : Int
  addend   : Int
  /-- Prediction of the servo for the next offset. -/
  predict  : Int
  /-- Consecutive outliers, newest first. -/
  outliers : List Int
  inside   : Nat
  outside  : Nat
  /-- The last 16 offsets used, newest first. -/
  offsets  : List Int
  /-- A two-step Sync that waits for its Follow_Up, and the port it came by. -/
  waitSync : Option (PtpMsg × Nat)
  /-- Egress stamp of the last delay request; a peer-delay response that waits for its second step; t1 and t2 of the last Sync. -/
  reqOut   : Option Int
  respWait : Option PtpMsg
  syncT    : Option (Int × Int)
  /-- t1 and t2 of the last Sync used, and the master's time and the counter's between the last two used (R264). -/
  used     : Option (Int × Int)
  ratio    : Int × Int
  /-- The masters heard, and the source port of the one followed (R261). -/
  masters  : List Master
  master   : Option Nat
  /-- External port by which the master's messages arrive. -/
  port     : Nat
  /-- D of a step that waits to be classified, in 2^-16 ns, and the state before it. -/
  pending  : Option (Int × Nat)
  /-- Lock was lost while the instance was selected (R271). -/
  lostSelected : Bool
  deriving DecidableEq, Repr

def PtpInst.idle : PtpInst :=
  ⟨0, 8589934592, 0, [], 0, 0, [], none, none, none, none, none, (1, 1), [], none, 0, none, false⟩

structure Time where
  inst   : List PtpInst
  /-- AB_DIFFERENCE of the last 60,000 frames and the phases of the grids of A and B against the third reference, in
  2^-16 ns, newest first (R270, R271). -/
  window : List (Int × Int × Int)
  /-- A re-base decided for a frame by the active unit, with its TS_SHIFT in samples (R269). -/
  rebase : Option (Nat × Int)
  /-- What is left of a CLK_TIME cycle at the last tick, in 1 / (6,000 × 10^9) (R262). -/
  cycleRest : Int
  deriving DecidableEq, Repr

/-! ## Reference selection -/

structure RefEntry where
  present     : Bool
  /-- Offset and jitter of the last window lay within their limits (R276). -/
  limitsOk    : Bool
  qualified   : Bool
  selectable  : Bool
  /-- It lost qualification after having been qualified: WTR applies (R277). -/
  requal      : Bool
  driftWarned : Bool
  /-- Count of frames run at which the QUAL_TIME count or the WTR wait began. -/
  since       : Nat
  /-- Phase of its frame starts against the grid as last measured, in ns, before PHASE_TRIM. -/
  raw         : Int
  deriving DecidableEq, Repr

def RefEntry.idle : RefEntry := ⟨false, true, false, false, false, false, 0, 0⟩

/-- A switch decided for frame B (R280): entry, B, its step in thirds of a nanosecond, and what FRAME_NO does there:
0 counts on, 1 takes the PTP-derived number, 2 the leader's; it is `ahead` frames ahead (R23). -/
structure Pending where
  entry : Nat
  frame : Nat
  step3 : Int
  jump  : Nat
  ahead : Nat
  /-- It will be a reframe: outputs fade out before B (R287). -/
  reframe : Bool
  deriving DecidableEq, Repr

/-- Phases and steps in thirds of a nanosecond; what is left of a glide and of a slew in sixths. -/
structure Selector where
  running  : Bool
  entries  : List RefEntry
  pending  : Option Pending
  /-- Steps that are no switch: frame B, sum, reframe; and what came while one was pending (R288). -/
  steps    : Option (Nat × Int × Bool)
  later    : Int
  /-- Offsets of qualified history and of XTAL_SYS, newest first, at most 60 (R275, R281). -/
  history  : List Int
  xtal     : List Int
  /-- Pairs of entries of equal rank reported as disagreeing (R279). -/
  disagree : List (Nat × Nat)
  glide6   : Int
  slew6    : Int
  deriving DecidableEq, Repr

/-! ## Pair and federation -/

/-- One AGREE record of the partner (Table 13.6). -/
structure AgreeRec where
  kind : Nat
  key  : Nat
  held : Nat
  crcA : Nat
  crcB : Nat
  aux  : Nat
  deriving DecidableEq, Repr

structure Pair where
  /-- Level of PAIR_ROLE as filtered, true for high; and whether this unit pulls it low (R294). -/
  roleHigh  : Bool
  pullsRole : Bool
  /-- PAIR_ALIVE_OUT and the partner as classified: 0 nothing, 1 ACTIVE, 2 in step, 3 standby otherwise (Table 13.2). -/
  aliveOut  : Nat
  partnerKind : Nat
  /-- Consecutive intervals that classified the partner as ACTIVE (R297). -/
  activeRuns : Nat
  /-- The watch of R296: 1 the first 1 ms, 2 the 100 ms of Unit B, 0 over. -/
  watching  : Nat
  /-- Parts of the partner's AGREE of the running boundary received, the last part's number, the records so far; the time for
  it is over; consecutive frames without its digests (R302, R305). -/
  agreeParts : List Nat
  agreeLast : Option Nat
  records   : List AgreeRec
  agreeClosed : Bool
  agreeMissing : Nat
  /-- Frames in whose route pass or boundary a fill received is consumed (R303). -/
  fills     : List Nat
  /-- Own digests by frame, newest first (R308, R309). -/
  digests   : List (Nat × Nat)
  /-- Consecutive matching digests in CONFIRM (R319). -/
  agreeing  : Nat
  /-- The unit sends on paths A and B, and planned hand-overs: path, frame Z, whether this unit takes the path (R300). -/
  pathsSent : List Bool
  handovers : List (Nat × Nat × Bool)
  /-- The partner's rate, revision and major version equal this unit's, and its major version (R293). -/
  versionsOk : Bool
  partnerMajor : Nat
  /-- The partner has asked for a resync; C of the running one (R316, R317). -/
  resyncAsked : Bool
  epochC    : Nat
  /-- Frames of the resync aborts of the last 60 s; automatic resync has stopped (R319). -/
  aborts    : List Nat
  autoStopped : Bool
  /-- Divergence has been found, and the 1 s before an automatic resync has not passed (R309). -/
  waitAuto  : Bool
  /-- Agreed external source frames stored from E on: frame of the route pass that reads them, samples by source (R318). -/
  stored    : List (Nat × Sparse (List Int))
  /-- Bytes of the program image received, and how far they reach (R317). -/
  image     : Sparse Byte
  imageLen  : Nat
  /-- The unit has taken itself out of the pair after a lost tick (R313). -/
  tickLost  : Bool
  /-- What a standby's PLL2 follows: an entry 0 to 7, 8 or 9 the FC of BL0 or BL1, 255 nothing (R307). -/
  follows   : Nat
  deriving DecidableEq, Repr

/-- A federation part received (Table 13.11). -/
structure FedPart where
  member  : Nat
  unitB   : Bool
  active  : Bool
  muted   : Bool
  leader  : Bool
  frame   : Nat
  part    : Nat
  epoch   : Nat
  major   : Nat
  hops    : Nat
  timeError : Nat
  gen     : Nat
  hash    : Nat
  layout  : Nat
  members : Nat
  slots   : List Nat
  samples : List Int
  crc     : Nat
  deriving DecidableEq, Repr

structure Fed where
  /-- Copies held for frames still to be consumed (R326, R327). -/
  parts    : List FedPart
  /-- Members whose part 0 of a frame beyond the window arrived in the running frame; how far ahead the leader's was. -/
  heard    : List Nat
  ahead    : Nat
  /-- Frames since part 0 of each member was last included or rejected (R328), and the GENERATION of the last one (R329). -/
  missing  : List Nat
  gens     : List Nat
  /-- Consecutive frames without a version and a time mismatch; frames without a leader part of the own FRAME (R330). -/
  goodVersion : Nat
  goodTime : Nat
  badTime  : Nat
  /-- Members whose MEMBERS differs from the leader's, as the leader finds it (R330). -/
  differ   : List Nat
  /-- Hops from the leader that the last FEDTICK on BL4 and on BL5 carried (R329). -/
  hops     : List Nat
  deriving DecidableEq, Repr

/-! ## Reset, events, bus, JTAG -/

/-- A block under reset (R345 to R347): first frame at which its software holds have ended, whether it is only asked to go
idle yet, and whether its wrapper has completed a transaction with an error (event 7 is raised once). -/
structure BlockSt where
  release : Nat
  idling  : Bool
  isoSeen : Bool
  deriving DecidableEq, Repr

structure Reset where
  /-- Cold and warm sources asserted: codes 0 POR, 1 PIN, 2 WDT, 3 SW, 4 PARTNER, 5 THERM. -/
  asserted : List Nat
  /-- Sources asserted in the running sequence, and those events 0 to 5 will report at Rising (R344). -/
  sources  : List Nat
  tell     : List Nat
  cold     : Bool
  /-- Steps of Table 14.4 already released. -/
  released : Nat
  optionsLoaded : Bool
  /-- T_R has passed (R339). -/
  begun    : Bool
  pllLocked : Bool
  /-- The first frame tick, FRAME_NO 0, has come. -/
  ticked   : Bool
  /-- Blocks under reset by code. -/
  blocks   : List (Nat × BlockSt)
  /-- A software cold (true) or warm reset begins 10 ms after its ACK. -/
  soft     : Option Bool
  /-- Block resets that begin at a frame boundary: frame, code, frames held. -/
  starting : List (Nat × Nat × Nat)
  /-- The 10 µs pulse of a core watchdog is asserted. -/
  corePulse : Bool
  /-- The control complex is released and its firmware has not restarted yet (R348). -/
  firmwareDown : Bool
  /-- VBAT was lost: event 14 at the next Rising. -/
  vbatLost : Bool
  /-- RTC in thirds of a nanosecond since 1970. -/
  rtc      : Nat
  /-- The option bytes in use. -/
  options  : List Byte
  svcAnswer : Option (List Byte)
  svcSeries : List Series
  /-- THERM_N is pulled low, RESET_OUT_N is driven high. -/
  thermLow : Bool
  outHigh  : Bool
  /-- PAIR_ENABLE as it took effect at Rising (R324). -/
  pairEnable : Bool
  /-- Rate the engine runs at (0 48 kHz, 1 96 kHz), and a rate it restarts at with its frame (R351). -/
  rate     : Nat
  rateNext : Option (Nat × Nat)
  /-- Frames since T_R. -/
  upFrames : Nat
  deriving DecidableEq, Repr

/-- A Drift word: 16 data bytes and its tag fields (Table 15.7). -/
structure DWord where
  data  : List Byte
  start : Bool
  fin   : Bool
  size  : Nat
  loss  : Bool
  valid : Nat
  deriving DecidableEq, Repr

structure DQueue where
  words   : List DWord
  /-- Packing word of a producer in progress. -/
  packing : Option DWord
  afterLoss : Bool
  deriving DecidableEq, Repr

def DQueue.empty : DQueue := ⟨[], none, false⟩

/-- A Moraine record (Table 15.10). -/
structure MRec where
  seq   : Nat
  rtc   : Nat
  frac  : Nat
  frame : Nat
  stage : Nat
  flags : Nat
  total : Nat
  event : Nat
  severity : Nat
  status : Nat
  deriving DecidableEq, Repr

/-- One raising whose frame has not ended: its deliveries are made at the end of the frame (R361). -/
structure Raised where
  event    : Nat
  frame    : Nat
  /-- Lowest instance code so far. -/
  detail   : Nat
  injected : Bool
  masked   : Bool
  log      : Bool
  severity : Nat
  count    : Nat
  deriving DecidableEq, Repr

structure Events where
  now    : List Raised
  /-- Events whose lasting condition is present: STATUS stays 1 (R361). -/
  lasting : List Nat
  /-- Event and instance that a handling started by an injection will raise, still to be marked (R370). -/
  handling : List (Nat × Nat)
  queues : Sparse DQueue
  ring   : List MRec
  flash  : List MRec
  evtN   : Bool
  deriving DecidableEq, Repr

/-- Traffic that waits for the end of a cell's schedule (R69): a transaction, a DMA datagram, the datagrams of a DMA channel that
starts, a value of a program object. -/
inductive LateTraffic where
  | transaction (t : BusTx)
  | datagram (srcAddr srcPort : Nat) (bytes : List Byte)
  | channel (c : Nat)
  | object (k : Nat) (v : Int)
  deriving DecidableEq, Repr

structure Bus where
  hbm    : Sparse Byte
  sram   : Sparse Byte
  aon    : Sparse Byte
  flash  : Sparse Byte
  otp    : Sparse Byte
  cluster : Sparse Word
  /-- Written intervals of an armed DMA channel: channel, first and end offset. -/
  dmaDone : List (Nat × Nat × Nat)
  /-- The firmware image being verified. -/
  fwVerifying : Option Nat
  /-- What waits for a cell's schedule to end, with the cell, oldest first. -/
  late : List (Nat × LateTraffic)
  deriving DecidableEq, Repr

/-- The TAP controller states of IEEE 1149.1 (R425). -/
inductive Tap1149 where
  | testLogicReset | runTestIdle
  | selectDr | captureDr | shiftDr | exit1Dr | pauseDr | exit2Dr | updateDr
  | selectIr | captureIr | shiftIr | exit1Ir | pauseIr | exit2Ir | updateIr
  deriving DecidableEq, Repr

/-- The instructions of the TAP (R425). -/
inductive JtagIr where
  | bypass | extest | sample | idcode
  deriving DecidableEq, Repr

structure Jtag where
  tap     : Tap1149
  ir      : JtagIr
  /-- The instruction register's shift stage, and the data register selected, each with the bit next to TDO first. -/
  irShift : List Bool
  dr      : List Bool
  latched : List Bool
  tdo     : Bool
  deriving DecidableEq, Repr

/-- Straps and inputs: PAIR_ID, FED_ID, RESET_N after its filter, supplies within their thresholds, and the boundary
cells' input levels. -/
structure Pins where
  unitB    : Bool
  fedId    : Nat
  resetN   : Bool
  supplyOk : Bool
  boundary : List Bool
  deriving DecidableEq, Repr

/-! ## Resync -/

/-- What a RESYNC_DATA message brings besides the bytes of its region (R317). -/
inductive ResyncPiece where
  | bytes
  /-- CONFIG: numeric and other objects, session table with its result stores, journal, shadow store. -/
  | config (nums : Sparse Int) (blobs : Sparse (List Byte)) (sessions : Sparse Session) (journal : List JEntry) (shadow : Sluice)
  /-- CATCHMENT: objects, and the array processing at C. -/
  | catchment (nums : Sparse Int) (v : Catch)
  /-- BULK: Eddy rings, weight buffers, weights kept. -/
  | bulk (rings : Sparse Eddy) (buffers kept : Sparse (List Byte))
  /-- CAPTURE: the core at E. -/
  | core (nums : Sparse Int) (blobs : Sparse (List Byte)) (cells : Sparse Cell) (cluster : Sparse Word) (rings : Sparse Eddy)
      (dests : Sparse Dest) (rills : Sparse Rill) (copies : List (Nat × Int)) (oldOut : Option (Sparse (List Int))) (shadow : Sluice)
  deriving DecidableEq, Repr

/-- A RESYNC_DATA message: its bytes, and the piece of state that they spell. -/
structure ResyncMessage where
  frame : BraidFrame
  piece : ResyncPiece
  deriving DecidableEq, Repr

end Sys2Proof.Machine
end

