-- ==== Sys2Proof/Syntax.lean ====
section
/-! DEFINITION. The commands of the block: one constructor of Instr per row of spec/opcode_table.json, with the operands
the rules give each. -/

namespace Sys2Proof

/-- The commands, one per row of the table, in the table's order. -/
inductive Instr where
  | hello (e : Envelope) (b : HelloBody)
  | claim (e : Envelope) (b : ClaimBody)
  | yield (e : Envelope) (station : Nat)
  | heartbeat (e : Envelope) (epoch : Nat)
  | read (e : Envelope) (b : ReadBody)
  | write (e : Envelope) (index sub : Nat) (w : WriteBody)
  | groupBegin (e : Envelope) (b : BeginBody)
  | groupCommit (e : Envelope) (b : CommitBody)
  | subscribe (e : Envelope) (b : SubscribeBody)
  | resume (e : Envelope) (fencedAt : Nat)
  | sequenceGapTimeout (session : Fin 32)
  | blobSeriesTimeout (session : Fin 32) (index element sub : Nat)
  | sessionDormant (session : Fin 32)
  | sessionFree (session : Fin 32)
  | close (e : Envelope) (w : WriteBody)
  | claimWindowClose
  | ownerLossTimeout
  | subscriptionPeriod (session : Fin 32) (id : Nat)
  | journalConfirmTimeout (session : Fin 32) (sequence : Nat)
  | journalReplay
  | persistSave (index element sub : Nat)
  | nop (cell : Fin 128) (p : Pred)
  | mac (cell : Fin 128) (p : Pred) (acc : Fin 8) (x c : Fin 4) (sh : Fin 4) (cx : Bool)
  | msu (cell : Fin 128) (p : Pred) (acc : Fin 8) (x c : Fin 4) (sh : Fin 4) (cx : Bool)
  | mpy (cell : Fin 128) (p : Pred) (acc : Fin 8) (x c : Fin 4) (sh : Fin 4) (cx neg : Bool)
  | sqa (cell : Fin 128) (p : Pred) (acc : Fin 8) (x : Fin 4)
  | acc (cell : Fin 128) (p : Pred) (acc : Fin 8) (x : Fin 4) (w ld z : Bool) (sh : Fin 4)
  | ext (cell : Fin 128) (p : Pred) (acc : Fin 8) (x : Fin 4) (shift : Fin 16)
  | exw (cell : Fin 128) (p : Pred) (acc : Fin 8) (pair : Fin 2) (s : Fin 4)
  | max (cell : Fin 128) (p : Pred) (d xa xb : Fin 4)
  | min (cell : Fin 128) (p : Pred) (d xa xb : Fin 4)
  | abs (cell : Fin 128) (p : Pred) (d xa : Fin 4)
  | cmp (cell : Fin 128) (p : Pred) (xa xb : Fin 4) (flag cond : Fin 4)
  | sel (cell : Fin 128) (p : Pred) (d xa xb flag : Fin 4)
  | shf (cell : Fin 128) (p : Pred) (d xa : Fin 4) (amount : BitVec 5)
  | shuf (cell : Fin 128) (p : Pred) (d xa : Fin 4) (pattern : Fin 8)
  | bcast (cell : Fin 128) (p : Pred) (d xa : Fin 4) (lane : Fin 8)
  | log2 (cell : Fin 128) (p : Pred) (d xa : Fin 4)
  | exp2 (cell : Fin 128) (p : Pred) (d xa : Fin 4)
  | zxg (cell : Fin 128) (p : Pred) (acc : Fin 8) (x xp : Fin 4) (k : Bool) (sh : Fin 4) (fsel : Bool)
  | mov (cell : Fin 128) (p : Pred) (d src : Fin 8)
  | ldv (cell : Fin 128) (slot : SlotId) (ap : Fin 8) (am : Fin 4) (dst : LoadDest)
  | ldb (cell : Fin 128) (slot : SlotId) (ap : Fin 8) (am : Fin 4) (dst : LoadDest)
  | stv (cell : Fin 128) (slot : SlotId) (ap : Fin 8) (am : Fin 4) (reg : Fin 8) (pm : Bool) (p : Pred)
  | stl (cell : Fin 128) (slot : SlotId) (ap : Fin 8) (am : Fin 4) (reg : Fin 8) (lane : Fin 8)
  | ldp (cell : Fin 128) (slot : SlotId) (ap : Fin 8) (am : Fin 4) (kind : LdpKind) (dst : LoadDest)
  | yieldSlot (cell : Fin 128) (slot : SlotId)
  | doLoop (cell : Fin 128) (arg : Fin 1024)
  | endLoop (cell : Fin 128) (count : Fin 4)
  | frameEnd (cell : Fin 128)
  | cellStatusClear (e : Envelope) (sub : Fin 8) (w : WriteBody)
  | frameTick
  | zxTimeout (dest : Nat)
  | meterPeriod
  | directApply
  | tdmFrame (group : Fin 4) (samples : List (Nat × Int)) (slip : Option Int)
  | eddyFetchDone (desc : Nat) (tap : Fin 16)
  | eddyFetchDeadline (desc : Nat) (tap : Fin 16)
  | eddyCopyDone (desc : Nat)
  | storeLength (e : Envelope) (w : WriteBody)
  | storeChunk (e : Envelope) (w : WriteBody)
  | verify (e : Envelope) (w : WriteBody)
  | verifyDone
  | groupDiscard (e : Envelope) (w : WriteBody)
  | preparationDone (group : Nat)
  | commitTest (group : Nat) (partnerReady : Bool)
  | groupApply (group : Nat)
  | subgroupTest (group : Nat) (partnerReady : Bool)
  | subgroupApply (group : Nat)
  | heldGroupTimeout
  | prepare (f : BraidFrame)
  | ready (f : BraidFrame)
  | refuse (f : BraidFrame)
  | go (f : BraidFrame)
  | abort (f : BraidFrame)
  | fedDecisionDeadline
  | fedGoMissing
  | arrayBlock (f : BraidFrame)
  | subbandAvailable
  | snapshotReady (unfinished : List Nat)
  | weightFetchLate (beam : Fin 256)
  | mapComplete
  | stageChunk (e : Envelope) (w : WriteBody)
  | detectPoll (link : Fin 6) (sensed : Bool)
  | fcReceived (link : Fin 6)
  | fcLost (link : Fin 6)
  | blockLockAcquired (link : Fin 6) (lane : Fin 9)
  | blockLockLost (link : Fin 6) (lane : Fin 9) (invalid : Nat)
  | marker (link : Fin 6) (lane : Fin 9) (m : MarkerBlock)
  | pilot (link : Fin 6) (lane : Fin 9) (position : Fin 16) (bits : PilotBits)
  | train (link : Fin 6) (t : TrainBlock)
  | trainStateTimeout (link : Fin 6)
  | trainAttemptTimeout (link : Fin 6)
  | backoffExpiry (link : Fin 6)
  | berSecond (link : Fin 6) (lane : Fin 9)
  | spareReq (f : BraidFrame)
  | spareCopyStart (link : Fin 6)
  | spareDone (f : BraidFrame)
  | spareCancel (f : BraidFrame)
  | tune (f : BraidFrame)
  | laneRetrainDone (link : Fin 6) (lane : Fin 9)
  | laneRetrainTimeout (link : Fin 6) (lane : Fin 9)
  | linkRetrain (e : Envelope) (w : WriteBody)
  | laneRetrain (e : Envelope) (w : WriteBody)
  | rtpPacket (path : Fin 2) (p : RtpPacket)
  | rxPathLoss (stream : Fin 512) (path : Fin 2)
  | rtpTx (stream : Fin 512) (fullA fullB : Bool)
  | portLinkDown (port : Fin 5)
  | portLinkUp (port : Fin 5)
  | switchFrame (path : Fin 3) (port : Fin 3) (f : EthFrame)
  | twoStepHoldExpiry (path : Fin 2) (sourcePort seqId : Nat)
  | macAgeExpiry (path : Fin 2) (mac : Nat)
  | igmpReport (path : Fin 2) (port : Fin 2) (group : Nat)
  | igmpQuery (path : Fin 2) (port : Fin 2) (version : Nat)
  | membershipExpiry (path : Fin 2) (port : Fin 2) (group : Nat)
  | arpRequest (ifc : Fin 3) (target senderMac senderIp : Nat)
  | icmpEcho (ifc : Fin 3) (dst src id seq : Nat) (data : List Byte)
  | ringProbeSend (path : Fin 2)
  | ringProbeMiss (path : Fin 2)
  | ringRestore (path : Fin 2)
  | flushFrame (path : Fin 2) (port : Fin 2)
  | sync (inst : Fin 2) (port : Fin 2) (m : PtpMsg)
  | followUp (inst : Fin 2) (m : PtpMsg)
  | announce (inst : Fin 2) (m : PtpMsg)
  | delayReqSend (inst : Fin 2) (egress : ReqEgress)
  | delayResp (inst : Fin 2) (m : PtpMsg)
  | pdelayMessage (path : Fin 2) (port : Fin 3) (m : PtpMsg) (egress : Int)
  | announceTimeout (inst : Fin 2)
  | syncTimeout (inst : Fin 2)
  | stepPendingTimeout (inst : Fin 2) (movedA movedB : Int)
  | asymClear (e : Envelope) (w : WriteBody)
  | refWindow (entry : Fin 8) (offsetPpb : Int) (jitterNs : Nat) (phaseNs : Int)
  | refAbsent (entry : Fin 8)
  | refQualTime (entry : Fin 8)
  | refWtrExpiry (entry : Fin 8)
  | refSwitchApply
  | pllUnlock (phaseErrorNs : Int)
  | pairAliveEdge (intervalNs : Nat)
  | roleWatchEnd
  | unitBRoleWait
  | agree (f : AgreeFrame)
  | agreeTimeout
  | fill (f : BraidFrame)
  | tdmIn (f : BraidFrame)
  | tdmInDeadline
  | journal (f : BraidFrame) (e : Envelope) (j : JournalItem) (frame result : Nat)
  | journalAck (f : BraidFrame)
  | gultinFwd (f : BraidFrame) (e : Envelope) (r : Request)
  | resyncReq (f : BraidFrame)
  | resyncPhase (f : BraidFrame)
  | resyncAbortMsg (f : BraidFrame)
  | versions (f : BraidFrame)
  | handoverFrame (f : BraidFrame)
  | pathHandover (path : Fin 2)
  | partnerResetRequest (f : BraidFrame)
  | resyncData (m : Sys2Proof.Machine.ResyncMessage)
  | takeover (conditionB : Bool)
  | tickWatchdog
  | resync (e : Envelope) (w : WriteBody)
  | resyncAutoDelay
  | configEnd
  | catchmentCapture
  | bulkEnd
  | capture
  | catchUpFrame (sourceDigest : Nat)
  | inStep
  | resyncTimeout
  | forceActive (e : Envelope) (w : WriteBody)
  | partnerReset (e : Envelope) (w : WriteBody)
  | fedframe (f : BraidFrame)
  | fedtick (f : BraidFrame) (phaseNs : Int)
  | fedMemberLost (member : Fin 8)
  | fedMismatchClear (bit : Fin 3)
  | powerOnReset
  | resetNAssert (pulseNs : Nat)
  | resetNRelease (pulseNs : Nat)
  | systemWatchdog
  | coreWatchdog (core : Fin 5)
  | thermalReset
  | thermalWarn
  | supplyWarn
  | vbatLow (millivolts : Nat)
  | optionLoadDone
  | stretchExpiry
  | releaseGap
  | firmwareBooted (image : Fin 2)
  | flowingEntry
  | resetBlock (e : Envelope) (w : WriteBody)
  | resetWarm (e : Envelope) (w : WriteBody)
  | resetCold (e : Envelope) (w : WriteBody)
  | softResetDelay
  | safetyCoreReset (block : Fin 26)
  | blockIdle (block : Fin 26)
  | idleTimeout (block : Fin 26) (outstanding : Bool)
  | blockRelease (block : Fin 26)
  | controlRestart
  | domainWakeDone (domain : Fin 19)
  | optionProgram (f : SvcFrame)
  | svcRead (f : SvcFrame)
  | svcWrite (f : SvcFrame)
  | svcWriteLast (f : SvcFrame)
  | svcFetch (f : SvcFrame)
  | counterClear (f : SvcFrame)
  | rtcSync
  | stickyClear (e : Envelope) (w : WriteBody)
  | countClear (e : Envelope) (w : WriteBody)
  | clearAll (e : Envelope) (w : WriteBody)
  | injectionWindow (e : Envelope) (w : WriteBody)
  | windowTimeout
  | arm (e : Envelope) (w : WriteBody)
  | injectionFire (event : Fin 256)
  | driftWordClose (queue : Fin 16)
  | driftMapWord
  | driftPop (queue : Fin 16) (size : Nat)
  | driftFlush (e : Envelope) (w : WriteBody)
  | moraineMirror
  | shutdown (e : Envelope) (w : WriteBody)
  | moraineClear (f : SvcFrame)
  | busTransaction (t : BusTx)
  | busResponseTimeout (master : Fin 17) (id : BitVec 8) (address : BitVec 48)
  | scrubPass (hbm : Bool) (corrected : List Nat)
  | hbmTempHigh
  | hbmTempNormal
  | keyWrite (f : SvcFrame)
  | dmaStart (e : Envelope) (w : WriteBody)
  | dmaDatagram (srcAddr srcPort : Nat) (bytes : List Byte)
  | fwChunk (e : Envelope) (w : WriteBody)
  | fwVerify (e : Envelope) (w : WriteBody)
  | fwHandover (e : Envelope) (w : WriteBody)
  | handoverDone
  | handoverTimeout
  | powerOnRelease
  | resetPulseEnd (source : Fin 8)
  | junctionCooling (tenthsC : Int)
  | pllLock
  | bootImageBad (single : Option (Fin 2))
  | partnerAbsent
  | pairRoleChange (high : Bool)
  | glideEnd
  | dmaTransferDone (channel : Fin 9)
  | fwVerifyDone
  | jtagTck (tms tdi trstN : Bool)
  deriving DecidableEq, Repr

end Sys2Proof
end

