-- ==== Sys2Proof/Decode.lean ====
section
/-! DEFINITION. Commands as words. The opcode table gives none of its 242 rows any bits: the engine takes commands as messages,
edges and elapsed times. The commands of a DSP cell do have words, the instruction words of its code (R73 to R76): which
commands a word spells, and the word a command is spelled by. -/

namespace Sys2Proof

/-- The command that a word spells by the table's bits: none, as no row has bits (DEDUCED, log entry 2). -/
def decodeTableWord (_nbits _w : Nat) : Option Instr := none

/-! ## Instruction words of a cell (Tables 3.6 to 3.10) -/

/-- Bits hi to lo of a word. -/
def bitsOf (w hi lo : Nat) : Nat := w / 2 ^ lo % 2 ^ (hi + 1 - lo)

/-- A field of two bits, of three bits, and so on, as an operand. -/
def fin2 (w lo : Nat) : Fin 4 := Fin.ofNat 4 (w / 2 ^ lo)
def fin3 (w lo : Nat) : Fin 8 := Fin.ofNat 8 (w / 2 ^ lo)
def flagAt (w b : Nat) : Bool := bitsOf w b b == 1

/-- Predication of the word (Table 3.7). -/
def wordPred (w : Nat) : Pred := ⟨flagAt w 11, fin2 w 12, flagAt w 10⟩

/-- The compute operation of a word; none for a reserved code, a non-zero unused bit or an operand R82 refuses. -/
def wordCompute (cell : Fin 128) (w : Nat) : Option Instr :=
  let p := wordPred w
  let z (hi lo : Nat) : Bool := bitsOf w hi lo == 0
  let acc := fin3 w 56
  let x := fin2 w 54
  let d := fin2 w 56
  let only (ok : Bool) (i : Instr) : Option Instr := if ok then some i else none
  match bitsOf w 63 59 with
  | 0x00 => only (z 58 48) (.nop cell p)
  | 0x01 => only (z 48 48) (.mac cell p acc x (fin2 w 52) (fin2 w 50) (flagAt w 49))
  | 0x02 => only (z 48 48) (.msu cell p acc x (fin2 w 52) (fin2 w 50) (flagAt w 49))
  | 0x03 => some (.mpy cell p acc x (fin2 w 52) (fin2 w 50) (flagAt w 49) (flagAt w 48))
  | 0x04 => only (z 53 48) (.sqa cell p acc x)
  | 0x05 =>
    only (z 48 48 && !(flagAt w 51 && !flagAt w 52) && !(flagAt w 53 && flagAt w 54))
      (.acc cell p acc x (flagAt w 53) (flagAt w 52) (flagAt w 51) (fin2 w 49))
  | 0x06 => only (z 49 48) (.ext cell p acc x (Fin.ofNat 16 (w / 2 ^ 50)))
  | 0x07 => only (z 51 48 && z 54 54) (.exw cell p acc (Fin.ofNat 2 (w / 2 ^ 55)) (fin2 w 52))
  | 0x08 => only (z 58 58 && z 51 48) (.max cell p d x (fin2 w 52))
  | 0x09 => only (z 58 58 && z 51 48) (.min cell p d x (fin2 w 52))
  | 0x0A => only (z 58 58 && z 53 48) (.abs cell p d x)
  | 0x0B => only (z 58 56) (.cmp cell p x (fin2 w 52) (fin2 w 50) (fin2 w 48))
  | 0x0C => only (z 58 58 && z 49 48) (.sel cell p d x (fin2 w 52) (fin2 w 50))
  | 0x0D => only (z 58 58 && z 53 53) (.shf cell p d x (BitVec.ofNat 5 (w / 2 ^ 48)))
  | 0x0E => only (z 58 58 && z 50 48) (.shuf cell p d x (fin3 w 51))
  | 0x0F => only (z 58 58 && z 50 48) (.bcast cell p d x (fin3 w 51))
  | 0x10 => only (z 58 58 && z 53 48) (.log2 cell p d x)
  | 0x11 => only (z 58 58 && z 53 48) (.exp2 cell p d x)
  | 0x12 => some (.zxg cell p acc x (fin2 w 52) (flagAt w 51) (fin2 w 49) (flagAt w 48))
  | 0x13 => only (z 52 48) (.mov cell p acc (fin3 w 53))
  | _ => none

/-- What a slot field spells: no command for NONE; none for a reserved code or a non-zero unused bit (Table 3.8, R75). -/
def wordSlot (cell : Fin 128) (slot : SlotId) (p : Pred) (f : Nat) : Option (List Instr) :=
  let ap := fin3 f 10
  let am := fin2 f 8
  let reg := fin3 f 5
  let only (ok : Bool) (l : List Instr) : Option (List Instr) := if ok then some l else none
  match bitsOf f 15 13 with
  | 0 => only (bitsOf f 12 0 == 0) []
  | 1 => only (bitsOf f 4 0 == 0) [.ldv cell slot ap am ⟨reg, .clean⟩]
  | 2 => only (bitsOf f 3 0 == 0) [.stv cell slot ap am reg (flagAt f 4) p]
  | 3 => only (bitsOf f 4 0 == 0) [.ldb cell slot ap am ⟨reg, .clean⟩]
  | 4 => only (bitsOf f 1 0 == 0) [.stl cell slot ap am reg (fin3 f 2)]
  | 5 =>
    match bitsOf f 7 6 with
    | 0 => only (bitsOf f 2 0 == 0) [.ldp cell slot ap am .p ⟨fin3 f 3, .clean⟩]
    | 1 => only (bitsOf f 2 0 == 0) [.ldp cell slot ap am .m ⟨fin3 f 3, .clean⟩]
    | 2 => only (bitsOf f 2 0 == 0) [.ldp cell slot ap am .n ⟨fin3 f 3, .clean⟩]
    | _ => none
  | 6 => only (bitsOf f 12 0 == 0) [.yieldSlot cell slot]
  | _ => none

/-- What the control field spells (Table 3.7). -/
def wordControl (cell : Fin 128) (w : Nat) : Option (List Instr) :=
  match bitsOf w 15 14 with
  | 0 => if bitsOf w 9 0 = 0 then some [] else none
  | 1 => some [.doLoop cell (Fin.ofNat 1024 w)]
  | 2 => if bitsOf w 9 2 = 0 ∧ bitsOf w 1 0 ≠ 0 then some [.endLoop cell (fin2 w 0)] else none
  | _ => if bitsOf w 9 0 = 0 then some [.frameEnd cell] else none

/-- The commands of one instruction word at a cell, in the order in which they are given: the compute operation, which begins
the instruction, slot A, slot B, the control operation (R73 to R77). None for a word that R82 refuses. -/
def wordCommands (cell : Fin 128) (word : IWord) : Option (List Instr) :=
  let w := word.toNat
  match wordCompute cell w, wordSlot cell .a (wordPred w) (bitsOf w 47 32), wordSlot cell .b (wordPred w) (bitsOf w 31 16),
      wordControl cell w with
  | some c, some a, some b, some k => some (c :: a ++ b ++ k)
  | _, _, _, _ => none

/-! ## The word of a command -/

def predBits (p : Pred) : Nat :=
  (if p.pen then 2 ^ 11 else 0) + p.psel.val * 2 ^ 12 + (if p.pinv then 2 ^ 10 else 0)

def bit (b : Bool) (n : Nat) : Nat := if b then 2 ^ n else 0

/-- Place of a slot field in the word. -/
def slotPlace : SlotId → Nat
  | .a => 2 ^ 32
  | .b => 2 ^ 16

/-- A slot field: operation, address register, address mode, register or kind, the low five bits. -/
def slotBits (slot : SlotId) (sop : Nat) (ap : Fin 8) (am : Fin 4) (reg low : Nat) : Nat :=
  (sop * 2 ^ 13 + ap.val * 2 ^ 10 + am.val * 2 ^ 8 + reg * 2 ^ 5 + low) * slotPlace slot

def ldpCode : LdpKind → Nat
  | .p => 0
  | .m => 1
  | .n => 2

/-- The word that spells one command of a cell alone, every other part of it empty; none for a command of another kind. -/
def encodeWord : Instr → Option Nat
  | .nop _ p => some (predBits p)
  | .mac _ p acc x c sh cx => some (1 * 2 ^ 59 + acc.val * 2 ^ 56 + x.val * 2 ^ 54 + c.val * 2 ^ 52 + sh.val * 2 ^ 50 + bit cx 49 + predBits p)
  | .msu _ p acc x c sh cx => some (2 * 2 ^ 59 + acc.val * 2 ^ 56 + x.val * 2 ^ 54 + c.val * 2 ^ 52 + sh.val * 2 ^ 50 + bit cx 49 + predBits p)
  | .mpy _ p acc x c sh cx neg =>
    some (3 * 2 ^ 59 + acc.val * 2 ^ 56 + x.val * 2 ^ 54 + c.val * 2 ^ 52 + sh.val * 2 ^ 50 + bit cx 49 + bit neg 48 + predBits p)
  | .sqa _ p acc x => some (4 * 2 ^ 59 + acc.val * 2 ^ 56 + x.val * 2 ^ 54 + predBits p)
  | .acc _ p acc x w ld z sh =>
    some (5 * 2 ^ 59 + acc.val * 2 ^ 56 + x.val * 2 ^ 54 + bit w 53 + bit ld 52 + bit z 51 + sh.val * 2 ^ 49 + predBits p)
  | .ext _ p acc x shift => some (6 * 2 ^ 59 + acc.val * 2 ^ 56 + x.val * 2 ^ 54 + shift.val * 2 ^ 50 + predBits p)
  | .exw _ p acc pair s => some (7 * 2 ^ 59 + acc.val * 2 ^ 56 + pair.val * 2 ^ 55 + s.val * 2 ^ 52 + predBits p)
  | .max _ p d xa xb => some (8 * 2 ^ 59 + d.val * 2 ^ 56 + xa.val * 2 ^ 54 + xb.val * 2 ^ 52 + predBits p)
  | .min _ p d xa xb => some (9 * 2 ^ 59 + d.val * 2 ^ 56 + xa.val * 2 ^ 54 + xb.val * 2 ^ 52 + predBits p)
  | .abs _ p d xa => some (10 * 2 ^ 59 + d.val * 2 ^ 56 + xa.val * 2 ^ 54 + predBits p)
  | .cmp _ p xa xb flag cond => some (11 * 2 ^ 59 + xa.val * 2 ^ 54 + xb.val * 2 ^ 52 + flag.val * 2 ^ 50 + cond.val * 2 ^ 48 + predBits p)
  | .sel _ p d xa xb flag => some (12 * 2 ^ 59 + d.val * 2 ^ 56 + xa.val * 2 ^ 54 + xb.val * 2 ^ 52 + flag.val * 2 ^ 50 + predBits p)
  | .shf _ p d xa amount => some (13 * 2 ^ 59 + d.val * 2 ^ 56 + xa.val * 2 ^ 54 + amount.toNat * 2 ^ 48 + predBits p)
  | .shuf _ p d xa pattern => some (14 * 2 ^ 59 + d.val * 2 ^ 56 + xa.val * 2 ^ 54 + pattern.val * 2 ^ 51 + predBits p)
  | .bcast _ p d xa lane => some (15 * 2 ^ 59 + d.val * 2 ^ 56 + xa.val * 2 ^ 54 + lane.val * 2 ^ 51 + predBits p)
  | .log2 _ p d xa => some (16 * 2 ^ 59 + d.val * 2 ^ 56 + xa.val * 2 ^ 54 + predBits p)
  | .exp2 _ p d xa => some (17 * 2 ^ 59 + d.val * 2 ^ 56 + xa.val * 2 ^ 54 + predBits p)
  | .zxg _ p acc x xp k sh fsel =>
    some (18 * 2 ^ 59 + acc.val * 2 ^ 56 + x.val * 2 ^ 54 + xp.val * 2 ^ 52 + bit k 51 + sh.val * 2 ^ 49 + bit fsel 48 + predBits p)
  | .mov _ p d src => some (19 * 2 ^ 59 + d.val * 2 ^ 56 + src.val * 2 ^ 53 + predBits p)
  | .ldv _ slot ap am dst => some (slotBits slot 1 ap am dst.reg.val 0)
  | .stv _ slot ap am reg pm p => some (slotBits slot 2 ap am reg.val (bit pm 4) + predBits p)
  | .ldb _ slot ap am dst => some (slotBits slot 3 ap am dst.reg.val 0)
  | .stl _ slot ap am reg lane => some (slotBits slot 4 ap am reg.val (lane.val * 4))
  | .ldp _ slot ap am kind dst => some (slotBits slot 5 ap am (ldpCode kind * 2 + dst.reg.val / 4) (dst.reg.val % 4 * 8))
  | .yieldSlot _ slot => some (slotBits slot 6 0 0 0 0)
  | .doLoop _ arg => some (2 ^ 14 + arg.val)
  | .endLoop _ count => some (2 * 2 ^ 14 + count.val)
  | .frameEnd _ => some (3 * 2 ^ 14)
  | _ => none

/-- The command as its word spells it: what the check bits of a load show is no part of the word. -/
def spelled : Instr → Instr
  | .ldv cell slot ap am dst => .ldv cell slot ap am ⟨dst.reg, .clean⟩
  | .ldb cell slot ap am dst => .ldb cell slot ap am ⟨dst.reg, .clean⟩
  | .ldp cell slot ap am kind dst => .ldp cell slot ap am kind ⟨dst.reg, .clean⟩
  | i => i

end Sys2Proof
end

