-- ==== Sys2Proof/Config.lean ====
section
/-! DEFINITION. What the manual fixes without printing, or leaves open: opaque constants no proof can evaluate.
Each is named in an assumption row of notes/assumptions. -/

namespace Sys2Proof.Config

/-- PROTOTYPE h[n] of the channeliser (R160, R161; readable at 5100h.7, not printed in the manual). (DESIGN CHOICE, log entry 7.) -/
opaque prototypeH : Nat → Int

/-- SYNTH_PROTOTYPE f[n] (R196; readable at 5300h[0].80, not printed in the manual). -/
opaque prototypeF : Nat → Int

/-- HALFBAND hb[t] (R198; readable at 5300h[0].81, not printed in the manual). -/
opaque halfband : Nat → Int

/-- A free value, applied to the model's counter `State.fresh`: a value the manual leaves open at that point.
(DESIGN CHOICE, log entry 19.) -/
opaque free : Nat → Nat

/-- The value a counter shows after passing the end of its type (only some counters are said to saturate). (DESIGN CHOICE, log entry 8.) -/
opaque counterPast : Nat → Nat → Int

/-- The HBM map address of an allocated area (SLOT0_BASE and the like), by area number and allocation count.
(DESIGN CHOICE, log entry 100.) -/
opaque hbmBase : Nat → Nat → Nat

/-- The number of milliseconds a NAK BUSY suggests when no rule fixes it (Table 2.14, retry hint). (DESIGN CHOICE, log entry 74.) -/
opaque busyHint : Nat

/-- Whether a RESET_N pulse between 1.4 µs and 1.6 µs, of this many ns, is accepted (R337). (DESIGN CHOICE, log entry 97.) -/
opaque resetPulse : Nat → Bool

/-- The link-local address an interface without an address takes (R243, RFC 3927), by interface element. (DESIGN CHOICE, log entry 101.) -/
opaque linkLocal : Nat → Nat

/-- The deviation of a meter reading from the rounded level, used modulo 5 less 2 (R125: within ±2). (DESIGN CHOICE, log entry 13.) -/
opaque meterError : Nat → Nat

/-- The working of the PTP servo that IEEE 1588 leaves to the implementer: the new ADDEND from an offset and the old one (R262).
(DESIGN CHOICE, log entry 35.) -/
opaque servoAddend : Int → Int → Int

/-- The prediction of the PTP servo for the next offset, from the last offset and ADDEND (R266). -/
opaque servoPredict : Int → Int → Int

/-- The place in the link stream at which a message handed to a link is ready, by link, frame and number of the message
(R224). (DESIGN CHOICE, log entry 127.) -/
opaque readyPlace : Nat → Nat → Nat → Nat

/-- State of the PRBS31 generator of a lane's training pattern when CLOCK_LOCK begins, by link and lane (R229). (DESIGN CHOICE, log
entry 128.) -/
opaque trainingSeed : Nat → Nat → Nat

/-- MAC_ADDRESS of an interface element (Table 11.4 gives no value). -/
opaque macAddress : Nat → Nat

/-- Whether shared SRAM answers at 2000000h to 27FFFFFh, which Table 16.4 gives to it and to the memories of clusters 0 to 7.
(DESIGN CHOICE, log entry 15.) -/
opaque overlapSram : Bool

/-- Contents of the boot ROM (Table 16.4 gives its size only). (DESIGN CHOICE, log entry 102.) -/
opaque bootRom : Nat → Byte

/-- Lengths of the JTAG instruction and boundary registers, and the instruction a code selects: 0 BYPASS, 1 EXTEST,
2 SAMPLE/PRELOAD, 3 IDCODE (R425 names the instructions, not their codes; all ones is BYPASS under IEEE 1149.1).
(DESIGN CHOICE, log entry 59.) -/
opaque jtagIrLength : Nat
opaque jtagDecode : List Bool → Nat
opaque boundaryLength : Nat

end Sys2Proof.Config
end

