-- ==== Sys2Proof/Machine/Crypto.lean ====
section
/-! DEFINITION. Checksums, hashes and signatures the manual names: CRC-32 and CRC-64 (R50, R92, R307), HMAC-SHA-256 (R56),
ECDSA P-384 over SHA-384 (R89, R395). Their standards are outside the manual (PRESUMED: log entry 6). -/

namespace Sys2Proof.Machine

/-- A number from bytes, high byte first (R8). -/
def beNat (b : List Byte) : Nat := b.foldl (fun n x => n * 256 + x.toNat) 0

/-- The low `len` bytes of a number, high byte first. -/
def natBE (n : Nat) : Nat → List Byte
  | 0 => []
  | len + 1 => BitVec.ofNat 8 (n / 256 ^ len) :: natBE n len

/-- A number from bytes, low byte first (R8, data in memory). -/
def leNat (b : List Byte) : Nat := beNat b.reverse

/-- The low `len` bytes of a number, low byte first. -/
def natLE (n len : Nat) : List Byte := (natBE n len).reverse

/-- The two's-complement reading of the low `bits` bits. -/
def signed (bits n : Nat) : Int :=
  let m := n % 2 ^ bits
  if m < 2 ^ (bits - 1) then (m : Int) else (m : Int) - (2 ^ bits : Nat)

/-- The low `bits` bits of an integer's two's complement. -/
def wrapTo (bits : Nat) (v : Int) : Nat := (v % ((2 ^ bits : Nat) : Int)).toNat

/-- A list cut into pieces of `n`, the last perhaps shorter; `fuel` bounds the number of pieces. -/
def chunks {α : Type} (n : Nat) : Nat → List α → List (List α)
  | 0, _ => []
  | fuel + 1, l => if l.isEmpty then [] else l.take n :: chunks n fuel (l.drop n)

/-! ## CRC -/

/-- One bit of a reflected CRC. -/
def crcBit (w : Nat) (poly c : BitVec w) : BitVec w :=
  if c.getLsbD 0 then (c >>> 1) ^^^ poly else c >>> 1

/-- One byte of a reflected CRC. -/
def crcByte (w : Nat) (poly c : BitVec w) (b : Byte) : BitVec w :=
  (List.range 8).foldl (fun c _ => crcBit w poly c) (c ^^^ b.zeroExtend w)

/-- CRC-32 with the IEEE 802.3 polynomial: reflected, preset and complemented with ones. -/
def crc32 (b : List Byte) : Nat :=
  ((b.foldl (crcByte 32 0xEDB88320) 0xFFFFFFFF) ^^^ 0xFFFFFFFF).toNat

/-- One byte of a CRC-64 taken high bit first (ECMA-182 polynomial). -/
def crc64Byte (c : BitVec 64) (b : Byte) : BitVec 64 :=
  (List.range 8).foldl
    (fun c _ => if c.getLsbD 63 then (c <<< 1) ^^^ 0x42F0E1EBA9EA3693 else c <<< 1)
    (c ^^^ (b.zeroExtend 64 <<< 56))

/-! ## SHA-256 and HMAC -/

def sha256K : List (BitVec 32) :=
  [0x428A2F98, 0x71374491, 0xB5C0FBCF, 0xE9B5DBA5, 0x3956C25B, 0x59F111F1, 0x923F82A4, 0xAB1C5ED5, 0xD807AA98,
    0x12835B01, 0x243185BE, 0x550C7DC3, 0x72BE5D74, 0x80DEB1FE, 0x9BDC06A7, 0xC19BF174]
  ++ [0xE49B69C1, 0xEFBE4786, 0x0FC19DC6, 0x240CA1CC, 0x2DE92C6F, 0x4A7484AA, 0x5CB0A9DC, 0x76F988DA,
    0x983E5152, 0xA831C66D, 0xB00327C8, 0xBF597FC7, 0xC6E00BF3, 0xD5A79147, 0x06CA6351, 0x14292967]
  ++ [0x27B70A85, 0x2E1B2138, 0x4D2C6DFC, 0x53380D13, 0x650A7354, 0x766A0ABB, 0x81C2C92E, 0x92722C85,
    0xA2BFE8A1, 0xA81A664B, 0xC24B8B70, 0xC76C51A3, 0xD192E819, 0xD6990624, 0xF40E3585, 0x106AA070]
  ++ [0x19A4C116, 0x1E376C08, 0x2748774C, 0x34B0BCB5, 0x391C0CB3, 0x4ED8AA4A, 0x5B9CCA4F, 0x682E6FF3,
    0x748F82EE, 0x78A5636F, 0x84C87814, 0x8CC70208, 0x90BEFFFA, 0xA4506CEB, 0xBEF9A3F7, 0xC67178F2]

def sha256Init : List (BitVec 32) :=
  [0x6A09E667, 0xBB67AE85, 0x3C6EF372, 0xA54FF53A, 0x510E527F, 0x9B05688C, 0x1F83D9AB, 0x5BE0CD19]

/-- One round of SHA-256 on the eight working words and the window of sixteen schedule words. -/
def sha256Round (st : List (BitVec 32) × List (BitVec 32)) (k : BitVec 32) : List (BitVec 32) × List (BitVec 32) :=
  let g (i : Nat) := st.1.getD i 0
  let w (i : Nat) := st.2.getD i 0
  let s1 := (g 4).rotateRight 6 ^^^ (g 4).rotateRight 11 ^^^ (g 4).rotateRight 25
  let ch := (g 4 &&& g 5) ^^^ (~~~(g 4) &&& g 6)
  let t1 := g 7 + s1 + ch + k + w 0
  let s0 := (g 0).rotateRight 2 ^^^ (g 0).rotateRight 13 ^^^ (g 0).rotateRight 22
  let mj := (g 0 &&& g 1) ^^^ (g 0 &&& g 2) ^^^ (g 1 &&& g 2)
  let m1 := (w 14).rotateRight 17 ^^^ (w 14).rotateRight 19 ^^^ (w 14 >>> 10)
  let m0 := (w 1).rotateRight 7 ^^^ (w 1).rotateRight 18 ^^^ (w 1 >>> 3)
  ([t1 + s0 + mj, g 0, g 1, g 2, g 3 + t1, g 4, g 5, g 6], st.2.drop 1 ++ [m1 + w 9 + m0 + w 0])

/-- The message with its padding: 80h, zeros, and the length in bits in `lenBytes` bytes. -/
def shaPad (block lenBytes : Nat) (m : List Byte) : List Byte :=
  let z := (2 * block - (m.length + 1 + lenBytes) % block) % block
  m ++ [0x80] ++ List.replicate z 0 ++ natBE (8 * m.length) lenBytes

/-- SHA-256 of a message (PRESUMED, log entry 6). -/
def sha256 (m : List Byte) : List Byte :=
  let p := shaPad 64 8 m
  let fin := (chunks 64 (p.length / 64) p).foldl
    (fun h c =>
      let w := (chunks 4 16 c).map (fun b => BitVec.ofNat 32 (beNat b))
      List.zipWith (· + ·) h (sha256K.foldl sha256Round (h, w)).1)
    sha256Init
  fin.flatMap (fun w => natBE w.toNat 4)

/-- HMAC with SHA-256 (R56). -/
def hmacSha256 (key m : List Byte) : List Byte :=
  let k0 := if 64 < key.length then sha256 key else key
  let k := k0 ++ List.replicate (64 - k0.length) 0
  sha256 (k.map (· ^^^ 0x5C) ++ sha256 (k.map (· ^^^ 0x36) ++ m))

/-! ## SHA-384 -/

def sha512K : List (BitVec 64) :=
  [0x428A2F98D728AE22, 0x7137449123EF65CD, 0xB5C0FBCFEC4D3B2F, 0xE9B5DBA58189DBBC, 0x3956C25BF348B538,
    0x59F111F1B605D019, 0x923F82A4AF194F9B, 0xAB1C5ED5DA6D8118, 0xD807AA98A3030242, 0x12835B0145706FBE,
    0x243185BE4EE4B28C, 0x550C7DC3D5FFB4E2, 0x72BE5D74F27B896F, 0x80DEB1FE3B1696B1, 0x9BDC06A725C71235,
    0xC19BF174CF692694]
  ++ [0xE49B69C19EF14AD2, 0xEFBE4786384F25E3, 0x0FC19DC68B8CD5B5, 0x240CA1CC77AC9C65, 0x2DE92C6F592B0275,
    0x4A7484AA6EA6E483, 0x5CB0A9DCBD41FBD4, 0x76F988DA831153B5, 0x983E5152EE66DFAB, 0xA831C66D2DB43210,
    0xB00327C898FB213F, 0xBF597FC7BEEF0EE4, 0xC6E00BF33DA88FC2, 0xD5A79147930AA725, 0x06CA6351E003826F,
    0x142929670A0E6E70]
  ++ [0x27B70A8546D22FFC, 0x2E1B21385C26C926, 0x4D2C6DFC5AC42AED, 0x53380D139D95B3DF, 0x650A73548BAF63DE,
    0x766A0ABB3C77B2A8, 0x81C2C92E47EDAEE6, 0x92722C851482353B, 0xA2BFE8A14CF10364, 0xA81A664BBC423001,
    0xC24B8B70D0F89791, 0xC76C51A30654BE30, 0xD192E819D6EF5218, 0xD69906245565A910, 0xF40E35855771202A,
    0x106AA07032BBD1B8]
  ++ [0x19A4C116B8D2D0C8, 0x1E376C085141AB53, 0x2748774CDF8EEB99, 0x34B0BCB5E19B48A8, 0x391C0CB3C5C95A63,
    0x4ED8AA4AE3418ACB, 0x5B9CCA4F7763E373, 0x682E6FF3D6B2B8A3, 0x748F82EE5DEFB2FC, 0x78A5636F43172F60,
    0x84C87814A1F0AB72, 0x8CC702081A6439EC, 0x90BEFFFA23631E28, 0xA4506CEBDE82BDE9, 0xBEF9A3F7B2C67915,
    0xC67178F2E372532B]
  ++ [0xCA273ECEEA26619C, 0xD186B8C721C0C207, 0xEADA7DD6CDE0EB1E, 0xF57D4F7FEE6ED178, 0x06F067AA72176FBA,
    0x0A637DC5A2C898A6, 0x113F9804BEF90DAE, 0x1B710B35131C471B, 0x28DB77F523047D84, 0x32CAAB7B40C72493,
    0x3C9EBE0A15C9BEBC, 0x431D67C49C100D4C, 0x4CC5D4BECB3E42B6, 0x597F299CFC657E2A, 0x5FCB6FAB3AD6FAEC,
    0x6C44198C4A475817]

def sha384Init : List (BitVec 64) :=
  [0xCBBB9D5DC1059ED8, 0x629A292A367CD507, 0x9159015A3070DD17, 0x152FECD8F70E5939, 0x67332667FFC00B31,
    0x8EB44A8768581511, 0xDB0C2E0D64F98FA7, 0x47B5481DBEFA4FA4]

/-- One round of SHA-512 (SHA-384 differs in its start values only). -/
def sha512Round (st : List (BitVec 64) × List (BitVec 64)) (k : BitVec 64) : List (BitVec 64) × List (BitVec 64) :=
  let g (i : Nat) := st.1.getD i 0
  let w (i : Nat) := st.2.getD i 0
  let s1 := (g 4).rotateRight 14 ^^^ (g 4).rotateRight 18 ^^^ (g 4).rotateRight 41
  let ch := (g 4 &&& g 5) ^^^ (~~~(g 4) &&& g 6)
  let t1 := g 7 + s1 + ch + k + w 0
  let s0 := (g 0).rotateRight 28 ^^^ (g 0).rotateRight 34 ^^^ (g 0).rotateRight 39
  let mj := (g 0 &&& g 1) ^^^ (g 0 &&& g 2) ^^^ (g 1 &&& g 2)
  let m1 := (w 14).rotateRight 19 ^^^ (w 14).rotateRight 61 ^^^ (w 14 >>> 6)
  let m0 := (w 1).rotateRight 1 ^^^ (w 1).rotateRight 8 ^^^ (w 1 >>> 7)
  ([t1 + s0 + mj, g 0, g 1, g 2, g 3 + t1, g 4, g 5, g 6], st.2.drop 1 ++ [m1 + w 9 + m0 + w 0])

def sha384 (m : List Byte) : List Byte :=
  let p := shaPad 128 16 m
  let fin := (chunks 128 (p.length / 128) p).foldl
    (fun h c =>
      let w := (chunks 8 16 c).map (fun b => BitVec.ofNat 64 (beNat b))
      List.zipWith (· + ·) h (sha512K.foldl sha512Round (h, w)).1)
    sha384Init
  (fin.flatMap (fun w => natBE w.toNat 8)).take 48

/-! ## ECDSA over P-384 -/

def p384P : Nat := 2 ^ 384 - 2 ^ 128 - 2 ^ 96 + 2 ^ 32 - 1
def p384N : Nat := 0xFFFFFFFFFFFFFFFFFFFFFFFFFFFFFFFFFFFFFFFFFFFFFFFFC7634D81F4372DDF581A0DB248B0A77AECEC196ACCC52973
def p384B : Nat := 0xB3312FA7E23EE7E4988E056BE3F82D19181D9C6EFE8141120314088F5013875AC656398D8A2ED19D2A85C8EDD3EC2AEF
def p384Gx : Nat := 0xAA87CA22BE8B05378EB1C71EF320AD746E1D3B628BA79B9859F741E082542A385502F25DBF55296C3A545E3872760AB7
def p384Gy : Nat := 0x3617DE4A96262C6F5D9E98BF9292DC29F8F41DBD289A147CE9DA3113B5F0B8C00A60B1CE1D7E819D7A431D7C90EA0E5F

/-- Modular power; `bits` bounds the exponent's length. -/
def powMod (m : Nat) : Nat → Nat → Nat → Nat
  | 0, _, _ => 1 % m
  | bits + 1, b, e =>
    let r := powMod m bits (b * b % m) (e / 2)
    if e % 2 = 1 then r * b % m else r

/-- Inverse modulo a prime. -/
def invMod (m a : Nat) : Nat := powMod m 384 (a % m) (m - 2)

/-- Difference modulo m. -/
def subMod (m a b : Nat) : Nat := (a % m + m - b % m) % m

/-- Sum of two points of the curve; none is the point at infinity. -/
def p384Add (a b : Option (Nat × Nat)) : Option (Nat × Nat) :=
  match a, b with
  | none, _ => b
  | _, none => a
  | some (x1, y1), some (x2, y2) =>
    if x1 = x2 ∧ (y1 + y2) % p384P = 0 then none
    else
      let l := if x1 = x2 then 3 * subMod p384P (x1 * x1) 1 * invMod p384P (2 * y1) % p384P
        else subMod p384P y2 y1 * invMod p384P (subMod p384P x2 x1) % p384P
      let x3 := subMod p384P (l * l) (x1 + x2)
      some (x3, subMod p384P (l * subMod p384P x1 x3) y1)

/-- A multiple of a point; `bits` bounds the factor's length. -/
def p384Mul : Nat → Nat → Option (Nat × Nat) → Option (Nat × Nat)
  | 0, _, _ => none
  | bits + 1, k, q =>
    let r := p384Mul bits (k / 2) (p384Add q q)
    if k % 2 = 1 then p384Add r q else r

/-- Whether (r, s) signs the message under the public key point q. -/
def p384Verify (q : Nat × Nat) (r s : Nat) (m : List Byte) : Bool :=
  if 1 ≤ r ∧ r < p384N ∧ 1 ≤ s ∧ s < p384N ∧ q.1 < p384P ∧ q.2 < p384P ∧
      (q.2 * q.2) % p384P = (q.1 * q.1 * q.1 + (p384P - 3) * q.1 + p384B) % p384P then
    let w := invMod p384N s
    let e := beNat (sha384 m)
    match p384Add (p384Mul 384 (e * w % p384N) (some (p384Gx, p384Gy))) (p384Mul 384 (r * w % p384N) (some q)) with
    | some (x, _) => x % p384N == r
    | none => false
  else false

end Sys2Proof.Machine
end

