-- ==== Sys2Proof/Machine/Dictionary.lean ====
section
/-! DEFINITION. The object dictionary: every object the manual assigns, with its type, access, effect class, range and
default (R30, R35 and the object tables), and the name of each object's key. -/

namespace Sys2Proof.Machine

/-- Types of objects (Table 2.2). -/
inductive Ty where
  | bool | u8 | u16 | u32 | u64 | i8 | i16 | i32 | i64 | q23 | gain | frame | time | str | blob
  deriving DecidableEq, Repr

/-- Access codes (Table 2.3). -/
inductive Access where
  | konst | ro | rw | wo | svc
  deriving DecidableEq, Repr

/-- Effect classes (R31). -/
inductive Effect where
  | control | direct | sluice
  deriving DecidableEq, Repr

/-- One declared sub-index over a range of elements, with its attributes (R30), value range and default. -/
structure Decl where
  sub        : Nat
  lo         : Nat
  hi         : Nat
  typ        : Ty
  access     : Access
  effect     : Effect
  persistent : Bool
  min        : Int
  max        : Int
  dflt       : Int
  deriving DecidableEq, Repr

/-- The key of an object: index, element, sub-index (R4). -/
def okey (index elem sub : Nat) : Nat := index * 16777216 + elem * 256 + sub

def keyIndex (k : Nat) : Nat := k / 16777216
def keyElem (k : Nat) : Nat := k / 256 % 65536
def keySub (k : Nat) : Nat := k % 256

/-- The wire code of a type (Table 2.2). -/
def Ty.code : Ty → Nat
  | .bool => 1 | .u8 => 2 | .u16 => 3 | .u32 => 4 | .u64 => 5 | .i8 => 6 | .i16 => 7 | .i32 => 8 | .i64 => 9
  | .q23 => 10 | .gain => 11 | .frame => 12 | .time => 13 | .str => 14 | .blob => 15

/-- Wire bytes of a numeric type; 0 for STR and BLOB, whose length comes from the message (Table 2.2). -/
def Ty.size : Ty → Nat
  | .bool => 1 | .u8 => 1 | .u16 => 2 | .u32 => 4 | .u64 => 8 | .i8 => 1 | .i16 => 2 | .i32 => 4 | .i64 => 8
  | .q23 => 3 | .gain => 2 | .frame => 8 | .time => 10 | .str => 0 | .blob => 0

/-- The information code of an access (Table 2.14, ACCESS). -/
def Access.code : Access → Nat
  | .konst => 0 | .ro => 1 | .rw => 2 | .wo => 3 | .svc => 4

abbrev Obj.clk.frameNo : Nat := okey 0x2200 0 1
abbrev Obj.clk.epoch : Nat := okey 0x2200 0 2
abbrev Obj.clk.sampleRate : Nat := okey 0x2200 0 3
abbrev Obj.clk.mediaOffset : Nat := okey 0x2200 0 4
abbrev Obj.clk.epochOffset : Nat := okey 0x2200 0 5
abbrev Obj.clk.frameStart : Nat := okey 0x2200 0 6
abbrev Obj.clk.scheduleCycles : Nat := okey 0x2200 0 7
abbrev Obj.ident.vendor : Nat := okey 0x1000 0 1
abbrev Obj.ident.part : Nat := okey 0x1000 0 2
abbrev Obj.ident.revision : Nat := okey 0x1000 0 3
abbrev Obj.ident.fwVersion : Nat := okey 0x1000 0 4
abbrev Obj.ident.programHash : Nat := okey 0x1000 0 5
abbrev Obj.ident.serial : Nat := okey 0x1000 0 6
abbrev Obj.ident.unit : Nat := okey 0x1000 0 7
abbrev Obj.own.ownerState : Nat := okey 0x1100 0 1
abbrev Obj.own.ownerStation : Nat := okey 0x1100 0 2
abbrev Obj.own.ownerSession : Nat := okey 0x1100 0 3
abbrev Obj.own.ownerPriority : Nat := okey 0x1100 0 4
abbrev Obj.own.preemptible : Nat := okey 0x1100 0 5
abbrev Obj.own.ownerEpoch : Nat := okey 0x1100 0 6
abbrev Obj.own.heartbeatPeriod : Nat := okey 0x1100 0 7
abbrev Obj.own.lossTime : Nat := okey 0x1100 0 8
abbrev Obj.own.claimWindow : Nat := okey 0x1100 0 9
abbrev Obj.own.authMode : Nat := okey 0x1100 0 16
abbrev Obj.own.authKey (i : Nat) : Nat := okey 0x1100 0 (17 + i)
abbrev Obj.own.authDrops : Nat := okey 0x1100 0 21
abbrev Obj.own.malformedDrops : Nat := okey 0x1100 0 22
abbrev Obj.sess.state (n : Nat) : Nat := okey 0x1110 n 1
abbrev Obj.sess.station (n : Nat) : Nat := okey 0x1110 n 2
abbrev Obj.sess.peerAddress (n : Nat) : Nat := okey 0x1110 n 3
abbrev Obj.sess.peerPort (n : Nat) : Nat := okey 0x1110 n 4
abbrev Obj.sess.nextSeq (n : Nat) : Nat := okey 0x1110 n 5
abbrev Obj.sess.inFlight (n : Nat) : Nat := okey 0x1110 n 6
abbrev Obj.sess.fencedAt (n : Nat) : Nat := okey 0x1110 n 7
abbrev Obj.sess.subscriptions (n : Nat) : Nat := okey 0x1110 n 8
abbrev Obj.sess.naks (n : Nat) : Nat := okey 0x1110 n 9
abbrev Obj.sess.close (n : Nat) : Nat := okey 0x1110 n 10
abbrev Obj.jrn.size : Nat := okey 0x1120 0 1
abbrev Obj.jrn.used : Nat := okey 0x1120 0 2
abbrev Obj.jrn.highWater : Nat := okey 0x1120 0 3
abbrev Obj.jrn.pending : Nat := okey 0x1120 0 4
abbrev Obj.jrn.replayed : Nat := okey 0x1120 0 5
abbrev Obj.jrn.replayDropped : Nat := okey 0x1120 0 6
abbrev Obj.prog.state : Nat := okey 0x4000 0 1
abbrev Obj.prog.activeSlot : Nat := okey 0x4000 0 2
abbrev Obj.prog.name : Nat := okey 0x4000 0 3
abbrev Obj.prog.storeSelect : Nat := okey 0x4000 0 4
abbrev Obj.prog.storeLength : Nat := okey 0x4000 0 5
abbrev Obj.prog.storeOffset : Nat := okey 0x4000 0 6
abbrev Obj.prog.storeChunk : Nat := okey 0x4000 0 7
abbrev Obj.prog.verify : Nat := okey 0x4000 0 8
abbrev Obj.prog.verifyResult : Nat := okey 0x4000 0 9
abbrev Obj.prog.slotHash (i : Nat) : Nat := okey 0x4000 0 (10 + i)
abbrev Obj.prog.stagedSlot : Nat := okey 0x4000 0 12
abbrev Obj.prog.swapTo : Nat := okey 0x4000 0 13
abbrev Obj.prog.bootSlot : Nat := okey 0x4000 0 14
abbrev Obj.prog.swaps : Nat := okey 0x4000 0 15
abbrev Obj.prog.lastSwap : Nat := okey 0x4000 0 16
abbrev Obj.prog.swapDrops : Nat := okey 0x4000 0 17
abbrev Obj.eddy.state (n : Nat) : Nat := okey 0x4100 n 1
abbrev Obj.eddy.location (n : Nat) : Nat := okey 0x4100 n 2
abbrev Obj.eddy.homeCluster (n : Nat) : Nat := okey 0x4100 n 3
abbrev Obj.eddy.channels (n : Nat) : Nat := okey 0x4100 n 4
abbrev Obj.eddy.length (n : Nat) : Nat := okey 0x4100 n 5
abbrev Obj.eddy.writeCount (n : Nat) : Nat := okey 0x4100 n 6
abbrev Obj.eddy.validFrom (n : Nat) : Nat := okey 0x4100 n 7
abbrev Obj.eddy.oldest (n : Nat) : Nat := okey 0x4100 n 8
abbrev Obj.eddy.taps (n : Nat) : Nat := okey 0x4100 n 9
abbrev Obj.eddy.tap (n i : Nat) : Nat := okey 0x4100 n (10 + i)
abbrev Obj.eddy.mark (n : Nat) : Nat := okey 0x4100 n 26
abbrev Obj.eddy.markState (n : Nat) : Nat := okey 0x4100 n 27
abbrev Obj.eddy.markReadOffset (n : Nat) : Nat := okey 0x4100 n 28
abbrev Obj.eddy.markData (n : Nat) : Nat := okey 0x4100 n 29
abbrev Obj.eddy.overruns (n : Nat) : Nat := okey 0x4100 n 30
abbrev Obj.clus.state (n : Nat) : Nat := okey 0x4010 n 1
abbrev Obj.clus.cellStatus (n i : Nat) : Nat := okey 0x4010 n (2 + i)
abbrev Obj.clus.eccCorrected (n : Nat) : Nat := okey 0x4010 n 10
abbrev Obj.clus.eddyWords (n : Nat) : Nat := okey 0x4010 n 11
abbrev Obj.clus.exchangeVectors (n : Nat) : Nat := okey 0x4010 n 12
abbrev Obj.dest.source (n : Nat) : Nat := okey 0x4200 n 1
abbrev Obj.dest.gain (n : Nat) : Nat := okey 0x4200 n 2
abbrev Obj.dest.xfMode (n : Nat) : Nat := okey 0x4200 n 3
abbrev Obj.dest.xfLength (n : Nat) : Nat := okey 0x4200 n 4
abbrev Obj.dest.zxTimeout (n : Nat) : Nat := okey 0x4200 n 5
abbrev Obj.dest.linkGroup (n : Nat) : Nat := okey 0x4200 n 6
abbrev Obj.dest.linkLead (n : Nat) : Nat := okey 0x4200 n 7
abbrev Obj.dest.meterPoint (n : Nat) : Nat := okey 0x4200 n 8
abbrev Obj.dest.state (n : Nat) : Nat := okey 0x4200 n 9
abbrev Obj.dest.outgoing (n : Nat) : Nat := okey 0x4200 n 10
abbrev Obj.dest.liveGain (n : Nat) : Nat := okey 0x4200 n 11
abbrev Obj.dest.peak (n : Nat) : Nat := okey 0x4200 n 12
abbrev Obj.dest.rms (n : Nat) : Nat := okey 0x4200 n 13
abbrev Obj.dest.clips (n : Nat) : Nat := okey 0x4200 n 14
abbrev Obj.dest.zxTimeouts (n : Nat) : Nat := okey 0x4200 n 15
abbrev Obj.meter.period : Nat := okey 0x4220 0 1
abbrev Obj.meter.rmsWindow : Nat := okey 0x4220 0 2
abbrev Obj.meter.bulkFirst : Nat := okey 0x4220 0 3
abbrev Obj.meter.bulkCount : Nat := okey 0x4220 0 4
abbrev Obj.meter.bulk : Nat := okey 0x4220 0 5
abbrev Obj.meter.bulkFrame : Nat := okey 0x4220 0 6
abbrev Obj.rill.enable (n : Nat) : Nat := okey 0x4210 n 1
abbrev Obj.rill.inPort (n : Nat) : Nat := okey 0x4210 n 2
abbrev Obj.rill.inSlot (n : Nat) : Nat := okey 0x4210 n 3
abbrev Obj.rill.outPort (n : Nat) : Nat := okey 0x4210 n 4
abbrev Obj.rill.outSlot (n : Nat) : Nat := okey 0x4210 n 5
abbrev Obj.rill.gain (n : Nat) : Nat := okey 0x4210 n 6
abbrev Obj.rill.state (n : Nat) : Nat := okey 0x4210 n 7
abbrev Obj.rill.origin (n : Nat) : Nat := okey 0x4210 n 8
abbrev Obj.rill.slips (n : Nat) : Nat := okey 0x4210 n 9
abbrev Obj.slu.open_ : Nat := okey 0x4300 0 1
abbrev Obj.slu.openTag : Nat := okey 0x4300 0 2
abbrev Obj.slu.openBytes : Nat := okey 0x4300 0 3
abbrev Obj.slu.openRoutes : Nat := okey 0x4300 0 4
abbrev Obj.slu.openEddy : Nat := okey 0x4300 0 5
abbrev Obj.slu.openBeams : Nat := okey 0x4300 0 6
abbrev Obj.slu.fedTag : Nat := okey 0x4300 0 7
abbrev Obj.slu.discard : Nat := okey 0x4300 0 8
abbrev Obj.slu.waiting : Nat := okey 0x4300 0 9
abbrev Obj.slu.queue : Nat := okey 0x4300 0 10
abbrev Obj.slu.storeUsed : Nat := okey 0x4300 0 11
abbrev Obj.slu.lastTag : Nat := okey 0x4300 0 12
abbrev Obj.slu.lastResult : Nat := okey 0x4300 0 13
abbrev Obj.slu.lastFrame : Nat := okey 0x4300 0 14
abbrev Obj.slu.lastFinal : Nat := okey 0x4300 0 15
abbrev Obj.slu.lastEarliest : Nat := okey 0x4300 0 16
abbrev Obj.slu.commits : Nat := okey 0x4300 0 17
abbrev Obj.slu.rejects : Nat := okey 0x4300 0 18
abbrev Obj.slu.late : Nat := okey 0x4300 0 19
abbrev Obj.elem.concentrator (n : Nat) : Nat := okey 0x5000 n 1
abbrev Obj.elem.channel (n : Nat) : Nat := okey 0x5000 n 2
abbrev Obj.elem.link (n : Nat) : Nat := okey 0x5000 n 3
abbrev Obj.elem.delay (n : Nat) : Nat := okey 0x5000 n 4
abbrev Obj.elem.gain (n : Nat) : Nat := okey 0x5000 n 5
abbrev Obj.elem.xMm (n : Nat) : Nat := okey 0x5000 n 6
abbrev Obj.elem.yMm (n : Nat) : Nat := okey 0x5000 n 7
abbrev Obj.elem.zMm (n : Nat) : Nat := okey 0x5000 n 8
abbrev Obj.elem.exclude (n : Nat) : Nat := okey 0x5000 n 9
abbrev Obj.elem.subbandGain (n : Nat) : Nat := okey 0x5000 n 10
abbrev Obj.elem.state (n : Nat) : Nat := okey 0x5000 n 11
abbrev Obj.elem.settledFrom (n : Nat) : Nat := okey 0x5000 n 12
abbrev Obj.elem.lostFrames (n : Nat) : Nat := okey 0x5000 n 13
abbrev Obj.elem.inputClips (n : Nat) : Nat := okey 0x5000 n 14
abbrev Obj.elem.requantClips (n : Nat) : Nat := okey 0x5000 n 15
abbrev Obj.elem.peak (n : Nat) : Nat := okey 0x5000 n 16
abbrev Obj.chan.merge : Nat := okey 0x5100 0 1
abbrev Obj.chan.groupEnable : Nat := okey 0x5100 0 2
abbrev Obj.chan.rqShift : Nat := okey 0x5100 0 3
abbrev Obj.chan.activeElements : Nat := okey 0x5100 0 4
abbrev Obj.chan.subbandNo : Nat := okey 0x5100 0 5
abbrev Obj.chan.settledFrom : Nat := okey 0x5100 0 6
abbrev Obj.chan.prototype : Nat := okey 0x5100 0 7
abbrev Obj.chan.lookbackLength : Nat := okey 0x5100 0 8
abbrev Obj.chan.lookbackFreeze : Nat := okey 0x5100 0 9
abbrev Obj.chan.lookbackOldest : Nat := okey 0x5100 0 10
abbrev Obj.chan.lookbackBase : Nat := okey 0x5100 0 11
abbrev Obj.chan.blocksBl2 : Nat := okey 0x5100 0 12
abbrev Obj.chan.blocksBl3 : Nat := okey 0x5100 0 13
abbrev Obj.chan.duplicates : Nat := okey 0x5100 0 14
abbrev Obj.chan.mismatches : Nat := okey 0x5100 0 15
abbrev Obj.chan.lateBlocks : Nat := okey 0x5100 0 16
abbrev Obj.chan.badBlocks : Nat := okey 0x5100 0 17
abbrev Obj.chan.conflicts : Nat := okey 0x5100 0 18
abbrev Obj.corr.enable : Nat := okey 0x5200 0 1
abbrev Obj.corr.mode : Nat := okey 0x5200 0 2
abbrev Obj.corr.l : Nat := okey 0x5200 0 3
abbrev Obj.corr.bandEnable : Nat := okey 0x5200 0 4
abbrev Obj.corr.fineGroups : Nat := okey 0x5200 0 5
abbrev Obj.corr.fineFirst : Nat := okey 0x5200 0 6
abbrev Obj.corr.shift : Nat := okey 0x5200 0 7
abbrev Obj.corr.state : Nat := okey 0x5200 0 8
abbrev Obj.corr.generation : Nat := okey 0x5200 0 9
abbrev Obj.corr.genStart : Nat := okey 0x5200 0 10
abbrev Obj.corr.snapshotNo : Nat := okey 0x5200 0 11
abbrev Obj.corr.readyFrame : Nat := okey 0x5200 0 12
abbrev Obj.corr.slotBase (i : Nat) : Nat := okey 0x5200 0 (13 + i)
abbrev Obj.corr.slotBytes : Nat := okey 0x5200 0 15
abbrev Obj.corr.cornerBase : Nat := okey 0x5200 0 16
abbrev Obj.corr.cornerBytes : Nat := okey 0x5200 0 17
abbrev Obj.corr.lock : Nat := okey 0x5200 0 18
abbrev Obj.corr.dropped : Nat := okey 0x5200 0 19
abbrev Obj.corr.overruns : Nat := okey 0x5200 0 20
abbrev Obj.corr.satSnapshots : Nat := okey 0x5200 0 21
abbrev Obj.corr.hbmCommitted : Nat := okey 0x5200 0 22
abbrev Obj.corr.hbmFree : Nat := okey 0x5200 0 23
abbrev Obj.corr.readSlot : Nat := okey 0x5200 0 24
abbrev Obj.corr.readBlock : Nat := okey 0x5200 0 25
abbrev Obj.corr.readBand : Nat := okey 0x5200 0 26
abbrev Obj.corr.readRow : Nat := okey 0x5200 0 27
abbrev Obj.corr.blockData : Nat := okey 0x5200 0 28
abbrev Obj.corr.header : Nat := okey 0x5200 0 29
abbrev Obj.beam.enable (n : Nat) : Nat := okey 0x5300 n 1
abbrev Obj.beam.mode (n : Nat) : Nat := okey 0x5300 n 2
abbrev Obj.beam.fade (n : Nat) : Nat := okey 0x5300 n 3
abbrev Obj.beam.outShift (n : Nat) : Nat := okey 0x5300 n 4
abbrev Obj.beam.steer (n : Nat) : Nat := okey 0x5300 n 5
abbrev Obj.beam.weightSelect (n : Nat) : Nat := okey 0x5300 n 6
abbrev Obj.beam.weightCrc (n : Nat) : Nat := okey 0x5300 n 7
abbrev Obj.beam.stageOffset (n : Nat) : Nat := okey 0x5300 n 8
abbrev Obj.beam.stageChunk (n : Nat) : Nat := okey 0x5300 n 9
abbrev Obj.beam.state (n : Nat) : Nat := okey 0x5300 n 10
abbrev Obj.beam.liveBuffer (n : Nat) : Nat := okey 0x5300 n 11
abbrev Obj.beam.fadeLeft (n : Nat) : Nat := okey 0x5300 n 12
abbrev Obj.beam.bufferBase (n i : Nat) : Nat := okey 0x5300 n (13 + i)
abbrev Obj.beam.peak (n : Nat) : Nat := okey 0x5300 n 15
abbrev Obj.beam.clips (n : Nat) : Nat := okey 0x5300 n 16
abbrev Obj.beam.overruns (n : Nat) : Nat := okey 0x5300 n 17
abbrev Obj.scan.scanEnable : Nat := okey 0x5300 0 64
abbrev Obj.scan.scanSlots : Nat := okey 0x5300 0 65
abbrev Obj.scan.scanNx : Nat := okey 0x5300 0 66
abbrev Obj.scan.scanNy : Nat := okey 0x5300 0 67
abbrev Obj.scan.scanDepth : Nat := okey 0x5300 0 68
abbrev Obj.scan.scanBands : Nat := okey 0x5300 0 69
abbrev Obj.scan.scanShift : Nat := okey 0x5300 0 70
abbrev Obj.scan.scanTableLo : Nat := okey 0x5300 0 71
abbrev Obj.scan.scanTableHi : Nat := okey 0x5300 0 72
abbrev Obj.scan.scanQueue : Nat := okey 0x5300 0 73
abbrev Obj.scan.mapNo : Nat := okey 0x5300 0 74
abbrev Obj.scan.mapBand : Nat := okey 0x5300 0 75
abbrev Obj.scan.mapData : Nat := okey 0x5300 0 76
abbrev Obj.scan.mapFrame : Nat := okey 0x5300 0 77
abbrev Obj.scan.scanClips : Nat := okey 0x5300 0 78
abbrev Obj.scan.slotsUsed : Nat := okey 0x5300 0 79
abbrev Obj.scan.synthPrototype : Nat := okey 0x5300 0 80
abbrev Obj.scan.halfband : Nat := okey 0x5300 0 81
abbrev Obj.scan.adaptiveBytes : Nat := okey 0x5300 0 82
abbrev Obj.link.enable (n : Nat) : Nat := okey 0x3000 n 1
abbrev Obj.link.width (n : Nat) : Nat := okey 0x3000 n 2
abbrev Obj.link.minWidth (n : Nat) : Nat := okey 0x3000 n 3
abbrev Obj.link.state (n : Nat) : Nat := okey 0x3000 n 4
abbrev Obj.link.txWidth (n : Nat) : Nat := okey 0x3000 n 5
abbrev Obj.link.rxWidth (n : Nat) : Nat := okey 0x3000 n 6
abbrev Obj.link.txSpareFor (n : Nat) : Nat := okey 0x3000 n 7
abbrev Obj.link.rxSpareFor (n : Nat) : Nat := okey 0x3000 n 8
abbrev Obj.link.retrain (n : Nat) : Nat := okey 0x3000 n 9
abbrev Obj.link.attempts (n : Nat) : Nat := okey 0x3000 n 10
abbrev Obj.link.fails (n : Nat) : Nat := okey 0x3000 n 11
abbrev Obj.link.lastFail (n : Nat) : Nat := okey 0x3000 n 12
abbrev Obj.link.backoffMs (n : Nat) : Nat := okey 0x3000 n 13
abbrev Obj.link.upSeconds (n : Nat) : Nat := okey 0x3000 n 14
abbrev Obj.link.partnerLink (n : Nat) : Nat := okey 0x3000 n 15
abbrev Obj.link.maxSkew (n : Nat) : Nat := okey 0x3000 n 16
abbrev Obj.link.msgErrors (n : Nat) : Nat := okey 0x3000 n 17
abbrev Obj.link.msgLost (n : Nat) : Nat := okey 0x3000 n 18
abbrev Obj.link.berThreshold (n : Nat) : Nat := okey 0x3000 n 19
abbrev Obj.link.fcLosses (n : Nat) : Nat := okey 0x3000 n 20
abbrev Obj.lane.role (n : Nat) : Nat := okey 0x3010 n 1
abbrev Obj.lane.logical (n : Nat) : Nat := okey 0x3010 n 2
abbrev Obj.lane.txPre (n : Nat) : Nat := okey 0x3010 n 3
abbrev Obj.lane.txPost (n : Nat) : Nat := okey 0x3010 n 4
abbrev Obj.lane.rxEq (n : Nat) : Nat := okey 0x3010 n 5
abbrev Obj.lane.locked (n : Nat) : Nat := okey 0x3010 n 6
abbrev Obj.lane.skew (n : Nat) : Nat := okey 0x3010 n 7
abbrev Obj.lane.lockLosses (n : Nat) : Nat := okey 0x3010 n 8
abbrev Obj.lane.headerErrors (n : Nat) : Nat := okey 0x3010 n 9
abbrev Obj.lane.bipErrors (n : Nat) : Nat := okey 0x3010 n 10
abbrev Obj.lane.pilotBits (n : Nat) : Nat := okey 0x3010 n 11
abbrev Obj.lane.pilotErrors (n : Nat) : Nat := okey 0x3010 n 12
abbrev Obj.lane.drifts (n : Nat) : Nat := okey 0x3010 n 13
abbrev Obj.lane.retrain (n : Nat) : Nat := okey 0x3010 n 14
abbrev Obj.port.enable (n : Nat) : Nat := okey 0x2800 n 1
abbrev Obj.port.speed (n : Nat) : Nat := okey 0x2800 n 2
abbrev Obj.port.fec (n : Nat) : Nat := okey 0x2800 n 3
abbrev Obj.port.link (n : Nat) : Nat := okey 0x2800 n 4
abbrev Obj.port.rxFrames (n : Nat) : Nat := okey 0x2800 n 5
abbrev Obj.port.txFrames (n : Nat) : Nat := okey 0x2800 n 6
abbrev Obj.port.rxErrors (n : Nat) : Nat := okey 0x2800 n 7
abbrev Obj.port.drops (n : Nat) : Nat := okey 0x2800 n 8
abbrev Obj.port.linkDowns (n : Nat) : Nat := okey 0x2800 n 9
abbrev Obj.ifc.ipv4Address (n : Nat) : Nat := okey 0x2800 n 1
abbrev Obj.ifc.netmask (n : Nat) : Nat := okey 0x2800 n 2
abbrev Obj.ifc.gateway (n : Nat) : Nat := okey 0x2800 n 3
abbrev Obj.ifc.macAddress (n : Nat) : Nat := okey 0x2800 n 4
abbrev Obj.ifc.tcMode (n : Nat) : Nat := okey 0x2800 n 5
abbrev Obj.ifc.ringBlock (n : Nat) : Nat := okey 0x2800 n 6
abbrev Obj.ifc.ringState (n : Nat) : Nat := okey 0x2800 n 7
abbrev Obj.ifc.igmpSnoop (n : Nat) : Nat := okey 0x2800 n 8
abbrev Obj.ifc.macAge (n : Nat) : Nat := okey 0x2800 n 9
abbrev Obj.ifc.macEntries (n : Nat) : Nat := okey 0x2800 n 10
abbrev Obj.ifc.forwarded (n : Nat) : Nat := okey 0x2800 n 11
abbrev Obj.ifc.streamSource (n : Nat) : Nat := okey 0x2800 n 12
abbrev Obj.ifc.mediaVlan (n : Nat) : Nat := okey 0x2800 n 13
abbrev Obj.ifc.mediaPcp (n : Nat) : Nat := okey 0x2800 n 14
abbrev Obj.ifc.dscpMedia (n : Nat) : Nat := okey 0x2800 n 15
abbrev Obj.ifc.dscpPtp (n : Nat) : Nat := okey 0x2800 n 16
abbrev Obj.ifc.gultinEnable (n : Nat) : Nat := okey 0x2800 n 17
abbrev Obj.ifc.gultinVlan (n : Nat) : Nat := okey 0x2800 n 18
abbrev Obj.tx.enable (n : Nat) : Nat := okey 0x2900 n 1
abbrev Obj.tx.firstChannel (n : Nat) : Nat := okey 0x2900 n 2
abbrev Obj.tx.channels (n : Nat) : Nat := okey 0x2900 n 3
abbrev Obj.tx.encoding (n : Nat) : Nat := okey 0x2900 n 4
abbrev Obj.tx.packetTime (n : Nat) : Nat := okey 0x2900 n 5
abbrev Obj.tx.destA (n : Nat) : Nat := okey 0x2900 n 6
abbrev Obj.tx.destB (n : Nat) : Nat := okey 0x2900 n 7
abbrev Obj.tx.udpPort (n : Nat) : Nat := okey 0x2900 n 8
abbrev Obj.tx.payloadType (n : Nat) : Nat := okey 0x2900 n 9
abbrev Obj.tx.ssrc (n : Nat) : Nat := okey 0x2900 n 10
abbrev Obj.tx.rtpOffset (n : Nat) : Nat := okey 0x2900 n 11
abbrev Obj.tx.seqBase (n : Nat) : Nat := okey 0x2900 n 12
abbrev Obj.tx.ttl (n : Nat) : Nat := okey 0x2900 n 13
abbrev Obj.tx.paths (n : Nat) : Nat := okey 0x2900 n 14
abbrev Obj.tx.state (n : Nat) : Nat := okey 0x2900 n 15
abbrev Obj.tx.packets (n : Nat) : Nat := okey 0x2900 n 16
abbrev Obj.tx.underruns (n : Nat) : Nat := okey 0x2900 n 17
abbrev Obj.tx.sdp (n : Nat) : Nat := okey 0x2900 n 18
abbrev Obj.tx.sdpVersion (n : Nat) : Nat := okey 0x2900 n 19
abbrev Obj.rx.enable (n : Nat) : Nat := okey 0x2A00 n 1
abbrev Obj.rx.firstChannel (n : Nat) : Nat := okey 0x2A00 n 2
abbrev Obj.rx.channels (n : Nat) : Nat := okey 0x2A00 n 3
abbrev Obj.rx.encoding (n : Nat) : Nat := okey 0x2A00 n 4
abbrev Obj.rx.packetTime (n : Nat) : Nat := okey 0x2A00 n 5
abbrev Obj.rx.groupA (n : Nat) : Nat := okey 0x2A00 n 6
abbrev Obj.rx.sourceA (n : Nat) : Nat := okey 0x2A00 n 7
abbrev Obj.rx.groupB (n : Nat) : Nat := okey 0x2A00 n 8
abbrev Obj.rx.sourceB (n : Nat) : Nat := okey 0x2A00 n 9
abbrev Obj.rx.udpPort (n : Nat) : Nat := okey 0x2A00 n 10
abbrev Obj.rx.payloadType (n : Nat) : Nat := okey 0x2A00 n 11
abbrev Obj.rx.rtpOffset (n : Nat) : Nat := okey 0x2A00 n 12
abbrev Obj.rx.linkOffset (n : Nat) : Nat := okey 0x2A00 n 13
abbrev Obj.rx.state (n : Nat) : Nat := okey 0x2A00 n 14
abbrev Obj.rx.ssrc (n : Nat) : Nat := okey 0x2A00 n 15
abbrev Obj.rx.packets (n i : Nat) : Nat := okey 0x2A00 n (16 + i)
abbrev Obj.rx.fromB (n : Nat) : Nat := okey 0x2A00 n 18
abbrev Obj.rx.lost (n : Nat) : Nat := okey 0x2A00 n 19
abbrev Obj.rx.late (n : Nat) : Nat := okey 0x2A00 n 20
abbrev Obj.rx.early (n : Nat) : Nat := okey 0x2A00 n 21
abbrev Obj.rx.bad (n : Nat) : Nat := okey 0x2A00 n 22
abbrev Obj.rx.duplicates (n : Nat) : Nat := okey 0x2A00 n 23
abbrev Obj.rx.mismatches (n : Nat) : Nat := okey 0x2A00 n 24
abbrev Obj.rx.pathLosses (n : Nat) : Nat := okey 0x2A00 n 25
abbrev Obj.ptp.enable (i : Nat) : Nat := okey (0x2100 + i) 0 1
abbrev Obj.ptp.profile (i : Nat) : Nat := okey (0x2100 + i) 0 2
abbrev Obj.ptp.domain (i : Nat) : Nat := okey (0x2100 + i) 0 3
abbrev Obj.ptp.delayMechanism (i : Nat) : Nat := okey (0x2100 + i) 0 4
abbrev Obj.ptp.state (i : Nat) : Nat := okey (0x2100 + i) 0 5
abbrev Obj.ptp.gmIdentity (i : Nat) : Nat := okey (0x2100 + i) 0 6
abbrev Obj.ptp.gmClass (i : Nat) : Nat := okey (0x2100 + i) 0 7
abbrev Obj.ptp.offset (i : Nat) : Nat := okey (0x2100 + i) 0 8
abbrev Obj.ptp.meanPathDelay (i : Nat) : Nat := okey (0x2100 + i) 0 9
abbrev Obj.ptp.ratePpb (i : Nat) : Nat := okey (0x2100 + i) 0 10
abbrev Obj.ptp.time (i : Nat) : Nat := okey (0x2100 + i) 0 11
abbrev Obj.ptp.lockWindow (i : Nat) : Nat := okey (0x2100 + i) 0 12
abbrev Obj.ptp.steps (i : Nat) : Nat := okey (0x2100 + i) 0 13
abbrev Obj.ptp.lastStep (i : Nat) : Nat := okey (0x2100 + i) 0 14
abbrev Obj.ptp.syncs (i : Nat) : Nat := okey (0x2100 + i) 0 15
abbrev Obj.ptp.lockLosses (i : Nat) : Nat := okey (0x2100 + i) 0 16
abbrev Obj.tb.slewLimit : Nat := okey 0x2100 0 64
abbrev Obj.tb.asymLimit : Nat := okey 0x2100 0 65
abbrev Obj.tb.slewRemaining : Nat := okey 0x2100 0 66
abbrev Obj.tb.heldSteps : Nat := okey 0x2100 0 67
abbrev Obj.tb.rebase : Nat := okey 0x2100 0 68
abbrev Obj.tb.tsShift : Nat := okey 0x2100 0 69
abbrev Obj.tb.abDifference : Nat := okey 0x2100 0 70
abbrev Obj.tb.asymShift : Nat := okey 0x2100 0 71
abbrev Obj.tb.asymVerdict : Nat := okey 0x2100 0 72
abbrev Obj.tb.timeError : Nat := okey 0x2100 0 73
abbrev Obj.tb.asymDegrade : Nat := okey 0x2100 0 74
abbrev Obj.tb.asymClear : Nat := okey 0x2100 0 75
abbrev Obj.cal.ingressLatency (n : Nat) : Nat := okey 0x2110 n 1
abbrev Obj.cal.egressLatency (n : Nat) : Nat := okey 0x2110 n 2
abbrev Obj.cal.asymmetry (n : Nat) : Nat := okey 0x2110 n 3
abbrev Obj.cal.peerDelay (n : Nat) : Nat := okey 0x2110 n 4
abbrev Obj.cal.residenceMax (n : Nat) : Nat := okey 0x2110 n 5
abbrev Obj.sel.mode : Nat := okey 0x2000 0 1
abbrev Obj.sel.selected : Nat := okey 0x2000 0 2
abbrev Obj.sel.state : Nat := okey 0x2000 0 3
abbrev Obj.sel.pendingEntry : Nat := okey 0x2000 0 4
abbrev Obj.sel.pendingFrame : Nat := okey 0x2000 0 5
abbrev Obj.sel.lastSwitch : Nat := okey 0x2000 0 6
abbrev Obj.sel.switches : Nat := okey 0x2000 0 7
abbrev Obj.sel.history : Nat := okey 0x2000 0 8
abbrev Obj.sel.holdoverPpb : Nat := okey 0x2000 0 9
abbrev Obj.sel.base : Nat := okey 0x2000 0 10
abbrev Obj.sel.xtalTrim : Nat := okey 0x2000 0 11
abbrev Obj.ref.kind (n : Nat) : Nat := okey 0x2010 n 1
abbrev Obj.ref.priority (n : Nat) : Nat := okey 0x2010 n 2
abbrev Obj.ref.format (n : Nat) : Nat := okey 0x2010 n 3
abbrev Obj.ref.qualTime (n : Nat) : Nat := okey 0x2010 n 4
abbrev Obj.ref.wtr (n : Nat) : Nat := okey 0x2010 n 5
abbrev Obj.ref.softLimit (n : Nat) : Nat := okey 0x2010 n 6
abbrev Obj.ref.hardLimit (n : Nat) : Nat := okey 0x2010 n 7
abbrev Obj.ref.jitterLimit (n : Nat) : Nat := okey 0x2010 n 8
abbrev Obj.ref.classLimit (n : Nat) : Nat := okey 0x2010 n 9
abbrev Obj.ref.phaseTrim (n : Nat) : Nat := okey 0x2010 n 10
abbrev Obj.ref.state (n : Nat) : Nat := okey 0x2010 n 11
abbrev Obj.ref.offsetPpb (n : Nat) : Nat := okey 0x2010 n 12
abbrev Obj.ref.jitterNs (n : Nat) : Nat := okey 0x2010 n 13
abbrev Obj.ref.phaseNs (n : Nat) : Nat := okey 0x2010 n 14
abbrev Obj.ref.waitLeft (n : Nat) : Nat := okey 0x2010 n 15
abbrev Obj.ref.disqualifications (n : Nat) : Nat := okey 0x2010 n 16
abbrev Obj.ref.agrees (n : Nat) : Nat := okey 0x2010 n 17
abbrev Obj.pll.bandwidth : Nat := okey 0x2200 0 16
abbrev Obj.pll.pllState : Nat := okey 0x2200 0 17
abbrev Obj.pll.mediaPpb : Nat := okey 0x2200 0 18
abbrev Obj.pll.phaseError : Nat := okey 0x2200 0 19
abbrev Obj.pll.glideLeft : Nat := okey 0x2200 0 20
abbrev Obj.pll.lastStep : Nat := okey 0x2200 0 21
abbrev Obj.pll.lastAction : Nat := okey 0x2200 0 22
abbrev Obj.pll.lastN : Nat := okey 0x2200 0 23
abbrev Obj.pll.lastStepFrame : Nat := okey 0x2200 0 24
abbrev Obj.pll.splices : Nat := okey 0x2200 0 25
abbrev Obj.pll.reframes : Nat := okey 0x2200 0 26
abbrev Obj.pll.coreLag : Nat := okey 0x2200 0 27
abbrev Obj.pair.pairEnable : Nat := okey 0x3800 0 1
abbrev Obj.pair.role : Nat := okey 0x3800 0 2
abbrev Obj.pair.state : Nat := okey 0x3800 0 3
abbrev Obj.pair.partnerState : Nat := okey 0x3800 0 4
abbrev Obj.pair.exposed : Nat := okey 0x3800 0 5
abbrev Obj.pair.unverified : Nat := okey 0x3800 0 6
abbrev Obj.pair.resyncAuto : Nat := okey 0x3800 0 7
abbrev Obj.pair.resync : Nat := okey 0x3800 0 8
abbrev Obj.pair.roleSwap : Nat := okey 0x3800 0 9
abbrev Obj.pair.forceActive : Nat := okey 0x3800 0 10
abbrev Obj.pair.takeoverSilent : Nat := okey 0x3800 0 11
abbrev Obj.pair.partnerReset : Nat := okey 0x3800 0 12
abbrev Obj.pair.digest : Nat := okey 0x3800 0 13
abbrev Obj.pair.divergences : Nat := okey 0x3800 0 14
abbrev Obj.pair.lastDiverge : Nat := okey 0x3800 0 15
abbrev Obj.pair.failovers : Nat := okey 0x3800 0 16
abbrev Obj.pair.lastFailover : Nat := okey 0x3800 0 17
abbrev Obj.pair.lastCause : Nat := okey 0x3800 0 18
abbrev Obj.pair.resyncPhase : Nat := okey 0x3800 0 19
abbrev Obj.pair.resyncBytes : Nat := okey 0x3800 0 20
abbrev Obj.pair.resyncEpoch : Nat := okey 0x3800 0 21
abbrev Obj.pair.resyncAborts : Nat := okey 0x3800 0 22
abbrev Obj.pair.abortCause : Nat := okey 0x3800 0 23
abbrev Obj.pair.catchupLag : Nat := okey 0x3800 0 24
abbrev Obj.pair.filled : Nat := okey 0x3800 0 25
abbrev Obj.pair.tdmDiff : Nat := okey 0x3800 0 26
abbrev Obj.pair.agreeMissed : Nat := okey 0x3800 0 27
abbrev Obj.pair.tickSkew : Nat := okey 0x3800 0 28
abbrev Obj.pair.scrubPasses : Nat := okey 0x3800 0 29
abbrev Obj.pair.bistFails : Nat := okey 0x3800 0 30
abbrev Obj.fed.enable : Nat := okey 0x3900 0 1
abbrev Obj.fed.memberId : Nat := okey 0x3900 0 2
abbrev Obj.fed.members : Nat := okey 0x3900 0 3
abbrev Obj.fed.state : Nat := okey 0x3900 0 4
abbrev Obj.fed.leader : Nat := okey 0x3900 0 5
abbrev Obj.fed.generation : Nat := okey 0x3900 0 6
abbrev Obj.fed.layout : Nat := okey 0x3900 0 7
abbrev Obj.fed.hashCheck : Nat := okey 0x3900 0 8
abbrev Obj.fed.timeLimit : Nat := okey 0x3900 0 9
abbrev Obj.fed.phaseLimit : Nat := okey 0x3900 0 10
abbrev Obj.fed.mismatch : Nat := okey 0x3900 0 11
abbrev Obj.fed.present : Nat := okey 0x3900 0 12
abbrev Obj.fed.sentSlots : Nat := okey 0x3900 0 13
abbrev Obj.fed.inboundClips : Nat := okey 0x3900 0 14
abbrev Obj.fed.lateParts : Nat := okey 0x3900 0 15
abbrev Obj.fed.memberLost (i : Nat) : Nat := okey 0x3900 0 (16 + i)
abbrev Obj.rst.reset : Nat := okey 0x1200 0 1
abbrev Obj.rst.blockHold : Nat := okey 0x1200 0 2
abbrev Obj.rst.graceful : Nat := okey 0x1200 0 3
abbrev Obj.rst.idleTimeout : Nat := okey 0x1200 0 4
abbrev Obj.rst.inReset : Nat := okey 0x1200 0 5
abbrev Obj.rcnt.total : Nat := okey 0x1201 0 1
abbrev Obj.rcnt.source (i : Nat) : Nat := okey 0x1201 0 (2 + i)
abbrev Obj.rcnt.block : Nat := okey 0x1201 0 8
abbrev Obj.rcnt.lastSources : Nat := okey 0x1201 0 9
abbrev Obj.rcnt.lastReach : Nat := okey 0x1201 0 10
abbrev Obj.rcnt.lastTime : Nat := okey 0x1201 0 11
abbrev Obj.rcnt.clear : Nat := okey 0x1201 0 12
abbrev Obj.stage.stage : Nat := okey 0x1210 0 1
abbrev Obj.stage.entered : Nat := okey 0x1210 0 2
abbrev Obj.stage.trickleUs : Nat := okey 0x1210 0 3
abbrev Obj.stage.risingMs : Nat := okey 0x1210 0 4
abbrev Obj.stage.flowingMs : Nat := okey 0x1210 0 5
abbrev Obj.stage.flowWait : Nat := okey 0x1210 0 6
abbrev Obj.stage.fwImage : Nat := okey 0x1210 0 7
abbrev Obj.stage.bootState : Nat := okey 0x1210 0 8
abbrev Obj.stage.flowCause : Nat := okey 0x1210 0 9
abbrev Obj.opt.slot : Nat := okey 0x1220 0 1
abbrev Obj.opt.bytes : Nat := okey 0x1220 0 2
abbrev Obj.opt.blank : Nat := okey 0x1220 0 3
abbrev Obj.opt.bad : Nat := okey 0x1220 0 4
abbrev Obj.opt.program : Nat := okey 0x1220 0 5
abbrev Obj.pwr.target (i : Nat) : Nat := okey 0x1230 0 (1 + i)
abbrev Obj.pwr.state (i : Nat) : Nat := okey 0x1230 0 (33 + i)
abbrev Obj.pwr.clears : Nat := okey 0x1230 0 52
abbrev Obj.evt.status (n : Nat) : Nat := okey 0x1300 n 1
abbrev Obj.evt.sticky (n : Nat) : Nat := okey 0x1300 n 2
abbrev Obj.evt.mask (n : Nat) : Nat := okey 0x1300 n 3
abbrev Obj.evt.severity (n : Nat) : Nat := okey 0x1300 n 4
abbrev Obj.evt.count (n : Nat) : Nat := okey 0x1300 n 5
abbrev Obj.evt.lastFrame (n : Nat) : Nat := okey 0x1300 n 6
abbrev Obj.evt.detail (n : Nat) : Nat := okey 0x1300 n 7
abbrev Obj.evt.log (n : Nat) : Nat := okey 0x1300 n 8
abbrev Obj.evt.injected (n : Nat) : Nat := okey 0x1300 n 9
abbrev Obj.evset.evtLevel : Nat := okey 0x1300 0 64
abbrev Obj.evset.eventQueue : Nat := okey 0x1300 0 65
abbrev Obj.evset.statusAll : Nat := okey 0x1300 0 66
abbrev Obj.evset.stickyAll : Nat := okey 0x1300 0 67
abbrev Obj.evset.clearAll : Nat := okey 0x1300 0 68
abbrev Obj.inj.arm (n : Nat) : Nat := okey 0x1400 n 1
abbrev Obj.inj.delay (n : Nat) : Nat := okey 0x1400 n 2
abbrev Obj.inj.target (n : Nat) : Nat := okey 0x1400 n 3
abbrev Obj.inj.state (n : Nat) : Nat := okey 0x1400 n 4
abbrev Obj.inj.fires (n : Nat) : Nat := okey 0x1400 n 5
abbrev Obj.inj.fireFrame (n : Nat) : Nat := okey 0x1400 n 6
abbrev Obj.inj.detail (n : Nat) : Nat := okey 0x1400 n 7
abbrev Obj.drift.consumer (n : Nat) : Nat := okey 0x1380 n 1
abbrev Obj.drift.depth (n : Nat) : Nat := okey 0x1380 n 2
abbrev Obj.drift.lostItems (n : Nat) : Nat := okey 0x1380 n 3
abbrev Obj.drift.flush (n : Nat) : Nat := okey 0x1380 n 4
abbrev Obj.drift.data (n : Nat) : Nat := okey 0x1380 n 5
abbrev Obj.drift.producer (n : Nat) : Nat := okey 0x1380 n 6
abbrev Obj.drift.words (n : Nat) : Nat := okey 0x1380 n 7
abbrev Obj.drift.flushed (n : Nat) : Nat := okey 0x1380 n 8
abbrev Obj.mor.records : Nat := okey 0x1500 0 1
abbrev Obj.mor.count : Nat := okey 0x1500 0 2
abbrev Obj.mor.nextSeq : Nat := okey 0x1500 0 3
abbrev Obj.mor.mirroredSeq : Nat := okey 0x1500 0 4
abbrev Obj.mor.mirrorRecords : Nat := okey 0x1500 0 5
abbrev Obj.mor.mirrorIndex : Nat := okey 0x1500 0 6
abbrev Obj.mor.mirrorData : Nat := okey 0x1500 0 7
abbrev Obj.mor.shutdown : Nat := okey 0x1500 0 8
abbrev Obj.mor.clear : Nat := okey 0x1500 0 9
abbrev Obj.health.state : Nat := okey 0x1510 0 1
abbrev Obj.health.worstEvent : Nat := okey 0x1510 0 2
abbrev Obj.health.severityCount (i : Nat) : Nat := okey 0x1510 0 (3 + i)
abbrev Obj.health.tdmSlips : Nat := okey 0x1510 0 6
abbrev Obj.health.junctionC : Nat := okey 0x1510 0 7
abbrev Obj.health.hbmC : Nat := okey 0x1510 0 8
abbrev Obj.health.vddCoreMv : Nat := okey 0x1510 0 9
abbrev Obj.health.eccCorrected : Nat := okey 0x1510 0 10
abbrev Obj.health.eccUncorrectable : Nat := okey 0x1510 0 11
abbrev Obj.health.selfTest : Nat := okey 0x1510 0 12
abbrev Obj.health.bistCells : Nat := okey 0x1510 0 13
abbrev Obj.health.scrubPasses : Nat := okey 0x1510 0 14
abbrev Obj.health.linksDegraded : Nat := okey 0x1510 0 15
abbrev Obj.health.exposed : Nat := okey 0x1510 0 16
abbrev Obj.health.uptime : Nat := okey 0x1510 0 17
abbrev Obj.reg.base (n : Nat) : Nat := okey 0x1610 n 1
abbrev Obj.reg.size (n : Nat) : Nat := okey 0x1610 n 2
abbrev Obj.reg.rights (n : Nat) : Nat := okey 0x1610 n 3
abbrev Obj.reg.violations (n : Nat) : Nat := okey 0x1610 n 4
abbrev Obj.bus.bootRemap : Nat := okey 0x1600 0 1
abbrev Obj.bus.outstandingMax : Nat := okey 0x1600 0 2
abbrev Obj.bus.busErrors : Nat := okey 0x1600 0 3
abbrev Obj.bus.timeouts : Nat := okey 0x1600 0 4
abbrev Obj.bus.violations : Nat := okey 0x1600 0 5
abbrev Obj.bus.keyWrite : Nat := okey 0x1600 0 6
abbrev Obj.bus.keysPresent : Nat := okey 0x1600 0 7
abbrev Obj.bus.sramScrubs : Nat := okey 0x1600 0 8
abbrev Obj.bus.hbmScrubs : Nat := okey 0x1600 0 9
abbrev Obj.bus.hbmThrottled : Nat := okey 0x1600 0 10
abbrev Obj.dma.direction (n : Nat) : Nat := okey 0x1600 n 1
abbrev Obj.dma.address (n : Nat) : Nat := okey 0x1600 n 2
abbrev Obj.dma.length (n : Nat) : Nat := okey 0x1600 n 3
abbrev Obj.dma.hostAddress (n : Nat) : Nat := okey 0x1600 n 4
abbrev Obj.dma.hostPort (n : Nat) : Nat := okey 0x1600 n 5
abbrev Obj.dma.interface (n : Nat) : Nat := okey 0x1600 n 6
abbrev Obj.dma.start (n : Nat) : Nat := okey 0x1600 n 7
abbrev Obj.dma.state (n : Nat) : Nat := okey 0x1600 n 8
abbrev Obj.dma.doneBytes (n : Nat) : Nat := okey 0x1600 n 9
abbrev Obj.dma.dropped (n : Nat) : Nat := okey 0x1600 n 10
abbrev Obj.fw.running : Nat := okey 0x1620 0 1
abbrev Obj.fw.target : Nat := okey 0x1620 0 2
abbrev Obj.fw.length : Nat := okey 0x1620 0 3
abbrev Obj.fw.offset : Nat := okey 0x1620 0 4
abbrev Obj.fw.chunk : Nat := okey 0x1620 0 5
abbrev Obj.fw.verify : Nat := okey 0x1620 0 6
abbrev Obj.fw.result : Nat := okey 0x1620 0 7
abbrev Obj.fw.version (i : Nat) : Nat := okey 0x1620 0 (8 + i)
abbrev Obj.fw.handover : Nat := okey 0x1620 0 10
abbrev Obj.fw.bootImage : Nat := okey 0x1620 0 11
abbrev Obj.fw.handovers : Nat := okey 0x1620 0 12
abbrev Obj.inj.window : Nat := okey 0x1400 0 0

/-- The objects of index 1000h (Table 2.5). -/
def dictRows1000 : List Decl :=
  [⟨1, 0, 0, .str, .konst, .control, false, 0, 0, 0⟩,
    ⟨2, 0, 0, .str, .konst, .control, false, 0, 0, 0⟩,
    ⟨3, 0, 0, .str, .konst, .control, false, 0, 0, 0⟩,
    ⟨4, 0, 0, .u32, .ro, .control, false, 0, 4294967295, 0⟩,
    ⟨5, 0, 0, .u64, .ro, .control, false, 0, 18446744073709551615, 0⟩,
    ⟨6, 0, 0, .str, .konst, .control, false, 0, 0, 0⟩,
    ⟨7, 0, 0, .u8, .ro, .control, false, 0, 255, 0⟩]

/-- The objects of index 1100h (Table 2.6). -/
def dictRows1100 : List Decl :=
  [⟨1, 0, 0, .u8, .ro, .control, false, 0, 255, 0⟩,
    ⟨2, 0, 0, .u64, .ro, .control, false, 0, 18446744073709551615, 0⟩,
    ⟨3, 0, 0, .u16, .ro, .control, false, 0, 65535, 0⟩,
    ⟨4, 0, 0, .u8, .ro, .control, false, 0, 255, 0⟩,
    ⟨5, 0, 0, .bool, .rw, .control, false, 0, 1, 0⟩,
    ⟨6, 0, 0, .u32, .ro, .control, false, 0, 4294967295, 0⟩,
    ⟨7, 0, 0, .u16, .konst, .control, false, 0, 65535, 20⟩,
    ⟨8, 0, 0, .u16, .konst, .control, false, 0, 65535, 100⟩]
   ++ [⟨9, 0, 0, .u16, .konst, .control, false, 0, 65535, 40⟩,
    ⟨16, 0, 0, .u8, .svc, .control, true, 0, 2, 0⟩,
    ⟨17, 0, 0, .blob, .svc, .control, true, 0, 0, 0⟩,
    ⟨18, 0, 0, .blob, .svc, .control, true, 0, 0, 0⟩,
    ⟨19, 0, 0, .blob, .svc, .control, true, 0, 0, 0⟩,
    ⟨20, 0, 0, .blob, .svc, .control, true, 0, 0, 0⟩,
    ⟨21, 0, 0, .u32, .ro, .control, false, 0, 4294967295, 0⟩,
    ⟨22, 0, 0, .u32, .ro, .control, false, 0, 4294967295, 0⟩]

/-- The objects of index 1110h (Table 2.7). -/
def dictRows1110 : List Decl :=
  [⟨1, 0, 31, .u8, .ro, .control, false, 0, 255, 0⟩,
    ⟨2, 0, 31, .u64, .ro, .control, false, 0, 18446744073709551615, 0⟩,
    ⟨3, 0, 31, .u32, .ro, .control, false, 0, 4294967295, 0⟩,
    ⟨4, 0, 31, .u16, .ro, .control, false, 0, 65535, 0⟩,
    ⟨5, 0, 31, .u32, .ro, .control, false, 0, 4294967295, 1⟩,
    ⟨6, 0, 31, .u8, .ro, .control, false, 0, 255, 0⟩,
    ⟨7, 0, 31, .u32, .ro, .control, false, 0, 4294967295, 0⟩,
    ⟨8, 0, 31, .u8, .ro, .control, false, 0, 255, 0⟩]
   ++ [⟨9, 0, 31, .u32, .ro, .control, false, 0, 4294967295, 0⟩,
    ⟨10, 0, 31, .bool, .wo, .control, false, 0, 1, 0⟩]

/-- The objects of index 1120h (Table 2.8). -/
def dictRows1120 : List Decl :=
  [⟨1, 0, 0, .u32, .konst, .control, false, 0, 4294967295, 65536⟩,
    ⟨2, 0, 0, .u32, .ro, .control, false, 0, 4294967295, 0⟩,
    ⟨3, 0, 0, .u32, .ro, .control, false, 0, 4294967295, 0⟩,
    ⟨4, 0, 0, .u16, .ro, .control, false, 0, 65535, 0⟩,
    ⟨5, 0, 0, .u16, .ro, .control, false, 0, 65535, 0⟩,
    ⟨6, 0, 0, .u16, .ro, .control, false, 0, 65535, 0⟩]

/-- The objects of index 1200h (Table 14.13). -/
def dictRows1200 : List Decl :=
  [⟨1, 0, 0, .u16, .wo, .control, false, 0, 65535, 0⟩,
    ⟨2, 0, 0, .u16, .rw, .control, true, 1, 60000, 6⟩,
    ⟨3, 0, 0, .u32, .rw, .control, true, 0, 4294967295, 33423360⟩,
    ⟨4, 0, 0, .u16, .rw, .control, true, 10, 10000, 100⟩,
    ⟨5, 0, 0, .u32, .ro, .control, false, 0, 4294967295, 0⟩]

/-- The objects of index 1201h (Table 14.15). -/
def dictRows1201 : List Decl :=
  [⟨1, 0, 0, .u32, .ro, .control, false, 0, 4294967295, 0⟩,
    ⟨2, 0, 0, .u16, .ro, .control, false, 0, 65535, 0⟩,
    ⟨3, 0, 0, .u16, .ro, .control, false, 0, 65535, 0⟩,
    ⟨4, 0, 0, .u16, .ro, .control, false, 0, 65535, 0⟩,
    ⟨5, 0, 0, .u16, .ro, .control, false, 0, 65535, 0⟩,
    ⟨6, 0, 0, .u16, .ro, .control, false, 0, 65535, 0⟩,
    ⟨7, 0, 0, .u16, .ro, .control, false, 0, 65535, 0⟩,
    ⟨8, 0, 0, .u16, .ro, .control, false, 0, 65535, 0⟩]
   ++ [⟨9, 0, 0, .u8, .ro, .control, false, 0, 255, 0⟩,
    ⟨10, 0, 0, .u8, .ro, .control, false, 0, 255, 0⟩,
    ⟨11, 0, 0, .time, .ro, .control, false, 0, 281474976710655999999999, 0⟩,
    ⟨12, 0, 0, .bool, .svc, .control, false, 0, 1, 0⟩]

/-- The objects of index 1210h (Table 14.16). -/
def dictRows1210 : List Decl :=
  [⟨1, 0, 0, .u8, .ro, .control, false, 0, 255, 0⟩,
    ⟨2, 0, 0, .frame, .ro, .control, false, 0, 281474976710655, 0⟩,
    ⟨3, 0, 0, .u32, .ro, .control, false, 0, 4294967295, 0⟩,
    ⟨4, 0, 0, .u32, .ro, .control, false, 0, 4294967295, 0⟩,
    ⟨5, 0, 0, .u32, .ro, .control, false, 0, 4294967295, 0⟩,
    ⟨6, 0, 0, .u16, .rw, .control, true, 1, 600, 10⟩,
    ⟨7, 0, 0, .u8, .ro, .control, false, 0, 255, 255⟩,
    ⟨8, 0, 0, .u8, .ro, .control, false, 0, 255, 0⟩]
   ++ [⟨9, 0, 0, .u8, .ro, .control, false, 0, 255, 0⟩]

/-- The objects of index 1220h (Table 14.17). -/
def dictRows1220 : List Decl :=
  [⟨1, 0, 0, .u8, .ro, .control, false, 0, 255, 255⟩,
    ⟨2, 0, 0, .blob, .ro, .control, false, 0, 0, 0⟩,
    ⟨3, 0, 0, .u8, .ro, .control, false, 0, 255, 8⟩,
    ⟨4, 0, 0, .u8, .ro, .control, false, 0, 255, 0⟩,
    ⟨5, 0, 0, .blob, .svc, .control, false, 0, 0, 0⟩]

/-- The objects of index 1230h (Table 14.17). -/
def dictRows1230 : List Decl :=
  [⟨1, 0, 0, .u8, .rw, .sluice, false, 0, 255, 0⟩,
    ⟨2, 0, 0, .u8, .rw, .sluice, false, 0, 255, 0⟩,
    ⟨3, 0, 0, .u8, .rw, .sluice, false, 0, 255, 0⟩,
    ⟨4, 0, 0, .u8, .rw, .sluice, false, 0, 255, 0⟩,
    ⟨5, 0, 0, .u8, .rw, .sluice, false, 0, 255, 0⟩,
    ⟨6, 0, 0, .u8, .rw, .sluice, false, 0, 255, 0⟩,
    ⟨7, 0, 0, .u8, .rw, .sluice, false, 0, 255, 0⟩,
    ⟨8, 0, 0, .u8, .rw, .sluice, false, 0, 255, 0⟩]
   ++ [⟨9, 0, 0, .u8, .rw, .sluice, false, 0, 255, 0⟩,
    ⟨10, 0, 0, .u8, .rw, .sluice, false, 0, 255, 0⟩,
    ⟨11, 0, 0, .u8, .rw, .sluice, false, 0, 255, 0⟩,
    ⟨12, 0, 0, .u8, .rw, .sluice, false, 0, 255, 0⟩,
    ⟨13, 0, 0, .u8, .rw, .sluice, false, 0, 255, 0⟩,
    ⟨14, 0, 0, .u8, .rw, .sluice, false, 0, 255, 0⟩,
    ⟨15, 0, 0, .u8, .rw, .sluice, false, 0, 255, 0⟩,
    ⟨16, 0, 0, .u8, .rw, .sluice, false, 0, 255, 0⟩]
   ++ [⟨17, 0, 0, .u8, .rw, .sluice, false, 0, 255, 0⟩,
    ⟨18, 0, 0, .u8, .rw, .sluice, false, 0, 255, 0⟩,
    ⟨19, 0, 0, .u8, .rw, .sluice, false, 0, 255, 0⟩,
    ⟨33, 0, 0, .u8, .ro, .control, false, 0, 255, 0⟩,
    ⟨34, 0, 0, .u8, .ro, .control, false, 0, 255, 0⟩,
    ⟨35, 0, 0, .u8, .ro, .control, false, 0, 255, 0⟩,
    ⟨36, 0, 0, .u8, .ro, .control, false, 0, 255, 0⟩,
    ⟨37, 0, 0, .u8, .ro, .control, false, 0, 255, 0⟩]
   ++ [⟨38, 0, 0, .u8, .ro, .control, false, 0, 255, 0⟩,
    ⟨39, 0, 0, .u8, .ro, .control, false, 0, 255, 0⟩,
    ⟨40, 0, 0, .u8, .ro, .control, false, 0, 255, 0⟩,
    ⟨41, 0, 0, .u8, .ro, .control, false, 0, 255, 0⟩,
    ⟨42, 0, 0, .u8, .ro, .control, false, 0, 255, 0⟩,
    ⟨43, 0, 0, .u8, .ro, .control, false, 0, 255, 0⟩,
    ⟨44, 0, 0, .u8, .ro, .control, false, 0, 255, 0⟩,
    ⟨45, 0, 0, .u8, .ro, .control, false, 0, 255, 0⟩]
   ++ [⟨46, 0, 0, .u8, .ro, .control, false, 0, 255, 0⟩,
    ⟨47, 0, 0, .u8, .ro, .control, false, 0, 255, 0⟩,
    ⟨48, 0, 0, .u8, .ro, .control, false, 0, 255, 0⟩,
    ⟨49, 0, 0, .u8, .ro, .control, false, 0, 255, 0⟩,
    ⟨50, 0, 0, .u8, .ro, .control, false, 0, 255, 0⟩,
    ⟨51, 0, 0, .u8, .ro, .control, false, 0, 255, 0⟩,
    ⟨52, 0, 0, .u32, .ro, .control, false, 0, 4294967295, 0⟩]

/-- The objects of index 1300h (Table 15.2, Table 15.3). -/
def dictRows1300 : List Decl :=
  [⟨1, 0, 255, .bool, .ro, .control, false, 0, 1, 0⟩,
    ⟨2, 0, 255, .bool, .rw, .control, false, 0, 0, 0⟩,
    ⟨3, 0, 255, .bool, .rw, .control, true, 0, 1, 0⟩,
    ⟨4, 0, 255, .u8, .rw, .control, true, 0, 3, 0⟩,
    ⟨5, 0, 255, .u16, .rw, .control, false, 0, 0, 0⟩,
    ⟨6, 0, 255, .frame, .ro, .control, false, 0, 281474976710655, 0⟩,
    ⟨7, 0, 255, .u32, .ro, .control, false, 0, 4294967295, 4294967295⟩,
    ⟨8, 0, 255, .bool, .rw, .control, true, 0, 1, 0⟩]
   ++ [⟨9, 0, 255, .bool, .ro, .control, false, 0, 1, 0⟩,
    ⟨64, 0, 0, .u8, .rw, .control, true, 0, 3, 2⟩,
    ⟨65, 0, 0, .u8, .rw, .control, true, 0, 255, 15⟩,
    ⟨66, 0, 0, .blob, .ro, .control, false, 0, 0, 0⟩,
    ⟨67, 0, 0, .blob, .ro, .control, false, 0, 0, 0⟩,
    ⟨68, 0, 0, .bool, .wo, .control, false, 0, 1, 0⟩]

/-- The objects of index 1380h (Table 15.9). -/
def dictRows1380 : List Decl :=
  [⟨1, 0, 15, .u8, .rw, .control, true, 0, 2, 0⟩,
    ⟨2, 0, 15, .u8, .ro, .control, false, 0, 255, 0⟩,
    ⟨3, 0, 15, .u32, .ro, .control, false, 0, 4294967295, 0⟩,
    ⟨4, 0, 15, .bool, .wo, .control, false, 0, 1, 0⟩,
    ⟨5, 0, 15, .blob, .ro, .control, false, 0, 0, 0⟩,
    ⟨6, 0, 15, .u8, .ro, .control, false, 0, 255, 0⟩,
    ⟨7, 0, 15, .u64, .ro, .control, false, 0, 18446744073709551615, 0⟩,
    ⟨8, 0, 15, .u32, .ro, .control, false, 0, 4294967295, 0⟩]

/-- The objects of index 1400h (Table 15.4). -/
def dictRows1400 : List Decl :=
  [⟨1, 0, 255, .u8, .rw, .control, false, 0, 2, 0⟩,
    ⟨2, 0, 255, .u16, .rw, .control, false, 0, 60000, 0⟩,
    ⟨3, 0, 255, .u8, .rw, .control, false, 0, 1, 0⟩,
    ⟨4, 0, 255, .u8, .ro, .control, false, 0, 255, 0⟩,
    ⟨5, 0, 255, .u32, .ro, .control, false, 0, 4294967295, 0⟩,
    ⟨6, 0, 255, .frame, .ro, .control, false, 0, 281474976710655, 0⟩,
    ⟨7, 0, 255, .u32, .rw, .control, false, 0, 4294967295, 4294967295⟩,
    ⟨0, 0, 0, .u16, .rw, .control, false, 0, 65535, 0⟩]

/-- The objects of index 1500h (Table 15.11). -/
def dictRows1500 : List Decl :=
  [⟨1, 0, 0, .blob, .ro, .control, false, 0, 0, 0⟩,
    ⟨2, 0, 0, .u8, .ro, .control, false, 0, 255, 0⟩,
    ⟨3, 0, 0, .u32, .ro, .control, false, 0, 4294967295, 0⟩,
    ⟨4, 0, 0, .u32, .ro, .control, false, 0, 4294967295, 0⟩,
    ⟨5, 0, 0, .u32, .konst, .control, false, 0, 4294967295, 8192⟩,
    ⟨6, 0, 0, .u32, .rw, .control, false, 0, 4294967295, 0⟩,
    ⟨7, 0, 0, .blob, .ro, .control, false, 0, 0, 0⟩,
    ⟨8, 0, 0, .bool, .wo, .control, false, 0, 1, 0⟩]
   ++ [⟨9, 0, 0, .bool, .svc, .control, false, 0, 1, 0⟩]

/-- The objects of index 1510h (Table 15.12). -/
def dictRows1510 : List Decl :=
  [⟨1, 0, 0, .u8, .ro, .control, false, 0, 255, 0⟩,
    ⟨2, 0, 0, .u16, .ro, .control, false, 0, 65535, 65535⟩,
    ⟨3, 0, 0, .u16, .ro, .control, false, 0, 65535, 0⟩,
    ⟨4, 0, 0, .u16, .ro, .control, false, 0, 65535, 0⟩,
    ⟨5, 0, 0, .u16, .ro, .control, false, 0, 65535, 0⟩,
    ⟨6, 0, 0, .u32, .ro, .control, false, 0, 4294967295, 0⟩,
    ⟨7, 0, 0, .i16, .ro, .control, false, -32768, 32767, 0⟩,
    ⟨8, 0, 0, .i16, .ro, .control, false, -32768, 32767, 0⟩]
   ++ [⟨9, 0, 0, .u16, .ro, .control, false, 0, 65535, 0⟩,
    ⟨10, 0, 0, .u64, .ro, .control, false, 0, 18446744073709551615, 0⟩,
    ⟨11, 0, 0, .u32, .ro, .control, false, 0, 4294967295, 0⟩,
    ⟨12, 0, 0, .u8, .ro, .control, false, 0, 255, 0⟩,
    ⟨13, 0, 0, .u64, .ro, .control, false, 0, 18446744073709551615, 0⟩,
    ⟨14, 0, 0, .u32, .ro, .control, false, 0, 4294967295, 0⟩,
    ⟨15, 0, 0, .u8, .ro, .control, false, 0, 255, 0⟩,
    ⟨16, 0, 0, .bool, .ro, .control, false, 0, 1, 1⟩]
   ++ [⟨17, 0, 0, .u32, .ro, .control, false, 0, 4294967295, 0⟩]

/-- The objects of index 1600h (Table 16.13, Table 16.9). -/
def dictRows1600 : List Decl :=
  [⟨1, 0, 0, .bool, .ro, .control, false, 0, 1, 0⟩,
    ⟨2, 0, 0, .u16, .ro, .control, false, 0, 65535, 0⟩,
    ⟨3, 0, 0, .u32, .ro, .control, false, 0, 4294967295, 0⟩,
    ⟨4, 0, 0, .u32, .ro, .control, false, 0, 4294967295, 0⟩,
    ⟨5, 0, 0, .u32, .ro, .control, false, 0, 4294967295, 0⟩,
    ⟨6, 0, 0, .blob, .svc, .control, false, 0, 0, 0⟩,
    ⟨7, 0, 0, .u8, .ro, .control, false, 0, 255, 0⟩,
    ⟨8, 0, 0, .u32, .ro, .control, false, 0, 4294967295, 0⟩]
   ++ [⟨9, 0, 0, .u32, .ro, .control, false, 0, 4294967295, 0⟩,
    ⟨10, 0, 0, .bool, .ro, .control, false, 0, 1, 0⟩,
    ⟨1, 1, 9, .u8, .rw, .control, false, 0, 1, 0⟩,
    ⟨2, 1, 9, .u64, .rw, .control, false, 0, 18446744073709551615, 0⟩,
    ⟨3, 1, 9, .u64, .rw, .control, false, 0, 18446744073709551615, 0⟩,
    ⟨4, 1, 9, .u32, .rw, .control, false, 0, 4294967295, 0⟩,
    ⟨5, 1, 9, .u16, .rw, .control, false, 0, 65535, 0⟩,
    ⟨6, 1, 9, .u8, .rw, .control, false, 0, 2, 0⟩]
   ++ [⟨7, 1, 9, .bool, .wo, .control, false, 0, 1, 0⟩,
    ⟨8, 1, 9, .u8, .ro, .control, false, 0, 255, 0⟩,
    ⟨9, 1, 9, .u64, .ro, .control, false, 0, 18446744073709551615, 0⟩,
    ⟨10, 1, 9, .u32, .ro, .control, false, 0, 4294967295, 0⟩]

/-- The objects of index 1610h (Table 16.6). -/
def dictRows1610 : List Decl :=
  [⟨1, 0, 2175, .u64, .rw, .control, false, 0, 18446744073709551615, 0⟩,
    ⟨2, 0, 2175, .u64, .rw, .control, false, 0, 18446744073709551615, 0⟩,
    ⟨3, 0, 2175, .u8, .rw, .control, false, 0, 3, 0⟩,
    ⟨4, 0, 2175, .u32, .ro, .control, false, 0, 4294967295, 0⟩]

/-- The objects of index 1620h (Table 16.14). -/
def dictRows1620 : List Decl :=
  [⟨1, 0, 0, .u8, .ro, .control, false, 0, 255, 0⟩,
    ⟨2, 0, 0, .u8, .rw, .control, false, 0, 1, 0⟩,
    ⟨3, 0, 0, .u32, .rw, .control, false, 0, 16777216, 0⟩,
    ⟨4, 0, 0, .u32, .rw, .control, false, 0, 4294967295, 0⟩,
    ⟨5, 0, 0, .blob, .wo, .control, false, 0, 0, 0⟩,
    ⟨6, 0, 0, .bool, .wo, .control, false, 0, 1, 0⟩,
    ⟨7, 0, 0, .u8, .ro, .control, false, 0, 255, 0⟩,
    ⟨8, 0, 0, .u32, .ro, .control, false, 0, 4294967295, 0⟩]
   ++ [⟨9, 0, 0, .u32, .ro, .control, false, 0, 4294967295, 0⟩,
    ⟨10, 0, 0, .u8, .wo, .control, false, 0, 3, 0⟩,
    ⟨11, 0, 0, .u8, .rw, .control, true, 0, 1, 0⟩,
    ⟨12, 0, 0, .u32, .ro, .control, false, 0, 4294967295, 0⟩]

/-- The objects of index 2000h (Table 12.4). -/
def dictRows2000 : List Decl :=
  [⟨1, 0, 0, .u8, .rw, .control, true, 0, 1, 0⟩,
    ⟨2, 0, 0, .u8, .ro, .control, false, 0, 255, 255⟩,
    ⟨3, 0, 0, .u8, .ro, .control, false, 0, 255, 0⟩,
    ⟨4, 0, 0, .u8, .ro, .control, false, 0, 255, 255⟩,
    ⟨5, 0, 0, .frame, .ro, .control, false, 0, 281474976710655, 0⟩,
    ⟨6, 0, 0, .frame, .ro, .control, false, 0, 281474976710655, 0⟩,
    ⟨7, 0, 0, .u32, .ro, .control, false, 0, 4294967295, 0⟩,
    ⟨8, 0, 0, .u16, .ro, .control, false, 0, 65535, 0⟩]
   ++ [⟨9, 0, 0, .i32, .ro, .control, false, -2147483648, 2147483647, 0⟩,
    ⟨10, 0, 0, .u8, .ro, .control, false, 0, 255, 0⟩,
    ⟨11, 0, 0, .i32, .ro, .control, true, -2147483648, 2147483647, 0⟩]

/-- The objects of index 2010h (Table 12.5). -/
def dictRows2010 : List Decl :=
  [⟨1, 0, 7, .u8, .konst, .control, false, 0, 255, 0⟩,
    ⟨2, 0, 7, .u8, .rw, .control, true, 0, 15, 0⟩,
    ⟨3, 0, 7, .u8, .rw, .control, true, 0, 5, 0⟩,
    ⟨4, 0, 7, .u16, .rw, .control, true, 100, 60000, 2000⟩,
    ⟨5, 0, 7, .u16, .rw, .control, true, 0, 3600, 60⟩,
    ⟨6, 0, 7, .u32, .rw, .control, true, 10, 100000, 2000⟩,
    ⟨7, 0, 7, .u32, .rw, .control, true, 10, 100000, 10000⟩,
    ⟨8, 0, 7, .u32, .rw, .control, true, 1, 100000, 100⟩]
   ++ [⟨9, 0, 7, .u8, .rw, .control, true, 0, 255, 248⟩,
    ⟨10, 0, 7, .i32, .rw, .sluice, true, -166666, 166666, 0⟩,
    ⟨11, 0, 7, .u8, .ro, .control, false, 0, 255, 0⟩,
    ⟨12, 0, 7, .i32, .ro, .control, false, -2147483648, 2147483647, 0⟩,
    ⟨13, 0, 7, .u32, .ro, .control, false, 0, 4294967295, 0⟩,
    ⟨14, 0, 7, .i64, .ro, .control, false, -9223372036854775808, 9223372036854775807, 0⟩,
    ⟨15, 0, 7, .u32, .ro, .control, false, 0, 4294967295, 0⟩,
    ⟨16, 0, 7, .u32, .ro, .control, false, 0, 4294967295, 0⟩]
   ++ [⟨17, 0, 7, .u8, .ro, .control, false, 0, 255, 0⟩]

/-- The objects of index 2100h (Table 11.8, Table 11.9). -/
def dictRows2100 : List Decl :=
  [⟨1, 0, 0, .bool, .rw, .control, true, 0, 1, 1⟩,
    ⟨2, 0, 0, .u8, .rw, .control, true, 0, 1, 0⟩,
    ⟨3, 0, 0, .u8, .rw, .control, true, 0, 127, 0⟩,
    ⟨4, 0, 0, .u8, .rw, .control, true, 0, 1, 0⟩,
    ⟨5, 0, 0, .u8, .ro, .control, false, 0, 255, 0⟩,
    ⟨6, 0, 0, .u64, .ro, .control, false, 0, 18446744073709551615, 0⟩,
    ⟨7, 0, 0, .u8, .ro, .control, false, 0, 255, 255⟩,
    ⟨8, 0, 0, .i64, .ro, .control, false, -9223372036854775808, 9223372036854775807, 0⟩]
   ++ [⟨9, 0, 0, .i64, .ro, .control, false, -9223372036854775808, 9223372036854775807, 0⟩,
    ⟨10, 0, 0, .i32, .ro, .control, false, -2147483648, 2147483647, 0⟩,
    ⟨11, 0, 0, .time, .ro, .control, false, 0, 281474976710655999999999, 0⟩,
    ⟨12, 0, 0, .u32, .rw, .control, true, 50, 100000, 1000⟩,
    ⟨13, 0, 0, .u32, .ro, .control, false, 0, 4294967295, 0⟩,
    ⟨14, 0, 0, .i64, .ro, .control, false, -9223372036854775808, 9223372036854775807, 0⟩,
    ⟨15, 0, 0, .u64, .ro, .control, false, 0, 18446744073709551615, 0⟩,
    ⟨16, 0, 0, .u32, .ro, .control, false, 0, 4294967295, 0⟩]
   ++ [⟨64, 0, 0, .u32, .rw, .control, true, 10000, 1000000000, 100000⟩,
    ⟨65, 0, 0, .u32, .rw, .control, true, 20, 100000, 200⟩,
    ⟨66, 0, 0, .i64, .ro, .control, false, -9223372036854775808, 9223372036854775807, 0⟩,
    ⟨67, 0, 0, .u32, .ro, .control, false, 0, 4294967295, 0⟩,
    ⟨68, 0, 0, .bool, .wo, .sluice, false, 0, 1, 0⟩,
    ⟨69, 0, 0, .i64, .ro, .control, false, -9223372036854775808, 9223372036854775807, 0⟩,
    ⟨70, 0, 0, .i64, .ro, .control, false, -9223372036854775808, 9223372036854775807, 0⟩,
    ⟨71, 0, 0, .i64, .ro, .control, false, -9223372036854775808, 9223372036854775807, 0⟩]
   ++ [⟨72, 0, 0, .u8, .ro, .control, false, 0, 255, 0⟩,
    ⟨73, 0, 0, .u32, .ro, .control, false, 0, 4294967295, 4294967295⟩,
    ⟨74, 0, 0, .u32, .ro, .control, false, 0, 4294967295, 0⟩,
    ⟨75, 0, 0, .bool, .wo, .control, false, 0, 1, 0⟩]

/-- The objects of index 2101h (Table 11.8). -/
def dictRows2101 : List Decl :=
  [⟨1, 0, 0, .bool, .rw, .control, true, 0, 1, 1⟩,
    ⟨2, 0, 0, .u8, .rw, .control, true, 0, 1, 0⟩,
    ⟨3, 0, 0, .u8, .rw, .control, true, 0, 127, 0⟩,
    ⟨4, 0, 0, .u8, .rw, .control, true, 0, 1, 0⟩,
    ⟨5, 0, 0, .u8, .ro, .control, false, 0, 255, 0⟩,
    ⟨6, 0, 0, .u64, .ro, .control, false, 0, 18446744073709551615, 0⟩,
    ⟨7, 0, 0, .u8, .ro, .control, false, 0, 255, 255⟩,
    ⟨8, 0, 0, .i64, .ro, .control, false, -9223372036854775808, 9223372036854775807, 0⟩]
   ++ [⟨9, 0, 0, .i64, .ro, .control, false, -9223372036854775808, 9223372036854775807, 0⟩,
    ⟨10, 0, 0, .i32, .ro, .control, false, -2147483648, 2147483647, 0⟩,
    ⟨11, 0, 0, .time, .ro, .control, false, 0, 281474976710655999999999, 0⟩,
    ⟨12, 0, 0, .u32, .rw, .control, true, 50, 100000, 1000⟩,
    ⟨13, 0, 0, .u32, .ro, .control, false, 0, 4294967295, 0⟩,
    ⟨14, 0, 0, .i64, .ro, .control, false, -9223372036854775808, 9223372036854775807, 0⟩,
    ⟨15, 0, 0, .u64, .ro, .control, false, 0, 18446744073709551615, 0⟩,
    ⟨16, 0, 0, .u32, .ro, .control, false, 0, 4294967295, 0⟩]

/-- The objects of index 2110h (Table 11.10). -/
def dictRows2110 : List Decl :=
  [⟨1, 0, 3, .i32, .rw, .control, true, -2147483648, 2147483647, 0⟩,
    ⟨2, 0, 3, .i32, .rw, .control, true, -2147483648, 2147483647, 0⟩,
    ⟨3, 0, 3, .i32, .rw, .control, true, -2147483648, 2147483647, 0⟩,
    ⟨4, 0, 3, .i64, .ro, .control, false, -9223372036854775808, 9223372036854775807, 0⟩,
    ⟨5, 0, 3, .u32, .ro, .control, false, 0, 4294967295, 0⟩]

/-- The objects of index 2200h (Table 1.5, Table 12.6). -/
def dictRows2200 : List Decl :=
  [⟨1, 0, 0, .frame, .ro, .control, false, 0, 281474976710655, 0⟩,
    ⟨2, 0, 0, .u8, .ro, .control, false, 0, 255, 0⟩,
    ⟨3, 0, 0, .u8, .rw, .control, true, 0, 1, 0⟩,
    ⟨4, 0, 0, .u32, .rw, .sluice, false, 0, 166666, 0⟩,
    ⟨5, 0, 0, .i64, .ro, .control, false, -9223372036854775808, 9223372036854775807, 0⟩,
    ⟨6, 0, 0, .time, .ro, .control, false, 0, 281474976710655999999999, 0⟩,
    ⟨7, 0, 0, .u32, .ro, .control, false, 0, 4294967295, 0⟩,
    ⟨16, 0, 0, .u16, .rw, .control, true, 10, 10000, 100⟩]
   ++ [⟨17, 0, 0, .u8, .ro, .control, false, 0, 255, 0⟩,
    ⟨18, 0, 0, .i32, .ro, .control, false, -2147483648, 2147483647, 0⟩,
    ⟨19, 0, 0, .i32, .ro, .control, false, -2147483648, 2147483647, 0⟩,
    ⟨20, 0, 0, .i32, .ro, .control, false, -2147483648, 2147483647, 0⟩,
    ⟨21, 0, 0, .i32, .ro, .control, false, -2147483648, 2147483647, 0⟩,
    ⟨22, 0, 0, .u8, .ro, .control, false, 0, 255, 0⟩,
    ⟨23, 0, 0, .i16, .ro, .control, false, -32768, 32767, 0⟩,
    ⟨24, 0, 0, .frame, .ro, .control, false, 0, 281474976710655, 0⟩]
   ++ [⟨25, 0, 0, .u32, .ro, .control, false, 0, 4294967295, 0⟩,
    ⟨26, 0, 0, .u32, .ro, .control, false, 0, 4294967295, 0⟩,
    ⟨27, 0, 0, .u32, .ro, .control, false, 0, 4294967295, 0⟩]

/-- The objects of index 2800h (Table 11.3, Table 11.4). -/
def dictRows2800 : List Decl :=
  [⟨1, 0, 4, .bool, .rw, .control, true, 0, 1, 1⟩,
    ⟨2, 0, 4, .u8, .rw, .control, true, 0, 1, 0⟩,
    ⟨3, 0, 4, .u8, .rw, .control, true, 0, 2, 0⟩,
    ⟨4, 0, 4, .bool, .ro, .control, false, 0, 1, 0⟩,
    ⟨5, 0, 4, .u64, .ro, .control, false, 0, 18446744073709551615, 0⟩,
    ⟨6, 0, 4, .u64, .ro, .control, false, 0, 18446744073709551615, 0⟩,
    ⟨7, 0, 4, .u32, .ro, .control, false, 0, 4294967295, 0⟩,
    ⟨8, 0, 4, .u32, .ro, .control, false, 0, 4294967295, 0⟩]
   ++ [⟨9, 0, 4, .u32, .ro, .control, false, 0, 4294967295, 0⟩,
    ⟨1, 5, 10, .u32, .rw, .control, true, 0, 4294967295, 0⟩,
    ⟨2, 5, 10, .u32, .rw, .control, true, 0, 4294967295, 0⟩,
    ⟨3, 5, 10, .u32, .rw, .control, true, 0, 4294967295, 0⟩,
    ⟨4, 5, 10, .u64, .ro, .control, false, 0, 18446744073709551615, 0⟩,
    ⟨5, 5, 8, .u8, .rw, .control, true, 0, 2, 1⟩,
    ⟨6, 5, 8, .u8, .rw, .control, true, 0, 255, 255⟩,
    ⟨7, 5, 8, .u8, .ro, .control, false, 0, 255, 0⟩]
   ++ [⟨8, 5, 8, .bool, .rw, .control, true, 0, 1, 1⟩,
    ⟨9, 5, 8, .u16, .rw, .control, true, 10, 3600, 300⟩,
    ⟨10, 5, 8, .u16, .ro, .control, false, 0, 65535, 0⟩,
    ⟨11, 5, 8, .u64, .ro, .control, false, 0, 18446744073709551615, 0⟩,
    ⟨12, 11, 12, .u32, .rw, .control, true, 0, 4294967295, 0⟩,
    ⟨13, 11, 12, .u16, .rw, .control, true, 0, 4094, 0⟩,
    ⟨14, 11, 12, .u8, .rw, .control, true, 0, 7, 5⟩,
    ⟨15, 11, 12, .u8, .rw, .control, true, 0, 63, 34⟩]
   ++ [⟨16, 11, 12, .u8, .rw, .control, true, 0, 63, 46⟩,
    ⟨17, 11, 12, .bool, .rw, .control, true, 0, 1, 0⟩,
    ⟨18, 11, 12, .u16, .rw, .control, true, 0, 4094, 0⟩]

/-- The objects of index 2900h (Table 11.5). -/
def dictRows2900 : List Decl :=
  [⟨1, 0, 511, .bool, .rw, .sluice, true, 0, 1, 0⟩,
    ⟨2, 0, 511, .u16, .rw, .control, true, 0, 4095, 0⟩,
    ⟨3, 0, 511, .u8, .rw, .control, true, 1, 64, 2⟩,
    ⟨4, 0, 511, .u8, .rw, .control, true, 0, 0, 0⟩,
    ⟨5, 0, 511, .u8, .rw, .control, true, 0, 3, 3⟩,
    ⟨6, 0, 511, .u32, .rw, .control, true, 0, 4294967295, 0⟩,
    ⟨7, 0, 511, .u32, .rw, .control, true, 0, 4294967295, 0⟩,
    ⟨8, 0, 511, .u16, .rw, .control, true, 0, 65535, 5004⟩]
   ++ [⟨9, 0, 511, .u8, .rw, .control, true, 96, 127, 97⟩,
    ⟨10, 0, 511, .u32, .rw, .control, true, 0, 4294967295, 0⟩,
    ⟨11, 0, 511, .u32, .rw, .control, true, 0, 4294967295, 0⟩,
    ⟨12, 0, 511, .u16, .rw, .control, true, 0, 65535, 0⟩,
    ⟨13, 0, 511, .u8, .rw, .control, true, 1, 255, 16⟩,
    ⟨14, 0, 511, .u8, .rw, .control, true, 0, 3, 3⟩,
    ⟨15, 0, 511, .u8, .ro, .control, false, 0, 255, 0⟩,
    ⟨16, 0, 511, .u64, .ro, .control, false, 0, 18446744073709551615, 0⟩]
   ++ [⟨17, 0, 511, .u32, .ro, .control, false, 0, 4294967295, 0⟩,
    ⟨18, 0, 511, .blob, .ro, .control, false, 0, 0, 0⟩,
    ⟨19, 0, 511, .u32, .ro, .control, false, 0, 4294967295, 1⟩]

/-- The objects of index 2A00h (Table 11.6). -/
def dictRows2A00 : List Decl :=
  [⟨1, 0, 511, .bool, .rw, .sluice, true, 0, 1, 0⟩,
    ⟨2, 0, 511, .u16, .rw, .control, true, 0, 4095, 0⟩,
    ⟨3, 0, 511, .u8, .rw, .control, true, 1, 64, 2⟩,
    ⟨4, 0, 511, .u8, .rw, .control, true, 0, 1, 0⟩,
    ⟨5, 0, 511, .u8, .rw, .control, true, 0, 3, 3⟩,
    ⟨6, 0, 511, .u32, .rw, .control, true, 0, 4294967295, 0⟩,
    ⟨7, 0, 511, .u32, .rw, .control, true, 0, 4294967295, 0⟩,
    ⟨8, 0, 511, .u32, .rw, .control, true, 0, 4294967295, 0⟩]
   ++ [⟨9, 0, 511, .u32, .rw, .control, true, 0, 4294967295, 0⟩,
    ⟨10, 0, 511, .u16, .rw, .control, true, 0, 65535, 5004⟩,
    ⟨11, 0, 511, .u8, .rw, .control, true, 96, 127, 97⟩,
    ⟨12, 0, 511, .u32, .rw, .control, true, 0, 4294967295, 0⟩,
    ⟨13, 0, 511, .u16, .rw, .control, true, 1, 1920, 48⟩,
    ⟨14, 0, 511, .u8, .ro, .control, false, 0, 255, 0⟩,
    ⟨15, 0, 511, .u32, .ro, .control, false, 0, 4294967295, 0⟩,
    ⟨16, 0, 511, .u64, .ro, .control, false, 0, 18446744073709551615, 0⟩]
   ++ [⟨17, 0, 511, .u64, .ro, .control, false, 0, 18446744073709551615, 0⟩,
    ⟨18, 0, 511, .u64, .ro, .control, false, 0, 18446744073709551615, 0⟩,
    ⟨19, 0, 511, .u32, .ro, .control, false, 0, 4294967295, 0⟩,
    ⟨20, 0, 511, .u32, .ro, .control, false, 0, 4294967295, 0⟩,
    ⟨21, 0, 511, .u32, .ro, .control, false, 0, 4294967295, 0⟩,
    ⟨22, 0, 511, .u32, .ro, .control, false, 0, 4294967295, 0⟩,
    ⟨23, 0, 511, .u64, .ro, .control, false, 0, 18446744073709551615, 0⟩,
    ⟨24, 0, 511, .u32, .ro, .control, false, 0, 4294967295, 0⟩]
   ++ [⟨25, 0, 511, .u32, .ro, .control, false, 0, 4294967295, 0⟩]

/-- The objects of index 3000h (Table 10.10). -/
def dictRows3000 : List Decl :=
  [⟨1, 0, 5, .bool, .rw, .control, true, 0, 1, 1⟩,
    ⟨2, 0, 5, .u8, .rw, .control, true, 1, 8, 8⟩,
    ⟨3, 0, 5, .u8, .rw, .control, true, 1, 8, 1⟩,
    ⟨4, 0, 5, .u8, .ro, .control, false, 0, 255, 0⟩,
    ⟨5, 0, 5, .u8, .ro, .control, false, 0, 255, 0⟩,
    ⟨6, 0, 5, .u8, .ro, .control, false, 0, 255, 0⟩,
    ⟨7, 0, 5, .u8, .ro, .control, false, 0, 255, 255⟩,
    ⟨8, 0, 5, .u8, .ro, .control, false, 0, 255, 255⟩]
   ++ [⟨9, 0, 5, .bool, .wo, .control, false, 0, 1, 0⟩,
    ⟨10, 0, 5, .u32, .ro, .control, false, 0, 4294967295, 0⟩,
    ⟨11, 0, 5, .u32, .ro, .control, false, 0, 4294967295, 0⟩,
    ⟨12, 0, 5, .u8, .ro, .control, false, 0, 255, 0⟩,
    ⟨13, 0, 5, .u16, .ro, .control, false, 0, 65535, 0⟩,
    ⟨14, 0, 5, .u32, .ro, .control, false, 0, 4294967295, 0⟩,
    ⟨15, 0, 5, .u8, .ro, .control, false, 0, 255, 255⟩,
    ⟨16, 0, 5, .u8, .ro, .control, false, 0, 255, 0⟩]
   ++ [⟨17, 0, 5, .u32, .ro, .control, false, 0, 4294967295, 0⟩,
    ⟨18, 0, 5, .u32, .ro, .control, false, 0, 4294967295, 0⟩,
    ⟨19, 0, 5, .u32, .rw, .control, true, 0, 4294967295, 10⟩,
    ⟨20, 0, 5, .u32, .ro, .control, false, 0, 4294967295, 0⟩]

/-- The objects of index 3010h (Table 10.11). -/
def dictRows3010 : List Decl :=
  [⟨1, 0, 59, .u8, .ro, .control, false, 0, 255, 5⟩,
    ⟨2, 0, 59, .u8, .ro, .control, false, 0, 255, 255⟩,
    ⟨3, 0, 59, .u8, .ro, .control, false, 0, 255, 4⟩,
    ⟨4, 0, 59, .u8, .ro, .control, false, 0, 255, 8⟩,
    ⟨5, 0, 59, .blob, .ro, .control, false, 0, 0, 0⟩,
    ⟨6, 0, 59, .bool, .ro, .control, false, 0, 1, 0⟩,
    ⟨7, 0, 59, .u8, .ro, .control, false, 0, 255, 0⟩,
    ⟨8, 0, 59, .u32, .ro, .control, false, 0, 4294967295, 0⟩]
   ++ [⟨9, 0, 59, .u32, .ro, .control, false, 0, 4294967295, 0⟩,
    ⟨10, 0, 59, .u32, .ro, .control, false, 0, 4294967295, 0⟩,
    ⟨11, 0, 59, .u64, .ro, .control, false, 0, 18446744073709551615, 0⟩,
    ⟨12, 0, 59, .u64, .ro, .control, false, 0, 18446744073709551615, 0⟩,
    ⟨13, 0, 59, .u32, .ro, .control, false, 0, 4294967295, 0⟩,
    ⟨14, 0, 59, .bool, .wo, .control, false, 0, 1, 0⟩]

/-- The objects of index 3800h (Table 13.12). -/
def dictRows3800 : List Decl :=
  [⟨1, 0, 0, .bool, .rw, .control, true, 0, 1, 1⟩,
    ⟨2, 0, 0, .u8, .ro, .control, false, 0, 255, 0⟩,
    ⟨3, 0, 0, .u8, .ro, .control, false, 0, 255, 0⟩,
    ⟨4, 0, 0, .u8, .ro, .control, false, 0, 255, 255⟩,
    ⟨5, 0, 0, .bool, .ro, .control, false, 0, 1, 1⟩,
    ⟨6, 0, 0, .bool, .ro, .control, false, 0, 1, 0⟩,
    ⟨7, 0, 0, .bool, .rw, .control, true, 0, 1, 1⟩,
    ⟨8, 0, 0, .bool, .wo, .control, false, 0, 1, 0⟩]
   ++ [⟨9, 0, 0, .bool, .wo, .sluice, false, 0, 1, 0⟩,
    ⟨10, 0, 0, .bool, .wo, .control, false, 0, 1, 0⟩,
    ⟨11, 0, 0, .bool, .rw, .control, true, 0, 1, 1⟩,
    ⟨12, 0, 0, .bool, .wo, .control, false, 0, 1, 0⟩,
    ⟨13, 0, 0, .u64, .ro, .control, false, 0, 18446744073709551615, 0⟩,
    ⟨14, 0, 0, .u32, .ro, .control, false, 0, 4294967295, 0⟩,
    ⟨15, 0, 0, .frame, .ro, .control, false, 0, 281474976710655, 0⟩,
    ⟨16, 0, 0, .u32, .ro, .control, false, 0, 4294967295, 0⟩]
   ++ [⟨17, 0, 0, .frame, .ro, .control, false, 0, 281474976710655, 0⟩,
    ⟨18, 0, 0, .u8, .ro, .control, false, 0, 255, 0⟩,
    ⟨19, 0, 0, .u8, .ro, .control, false, 0, 255, 0⟩,
    ⟨20, 0, 0, .u64, .ro, .control, false, 0, 18446744073709551615, 0⟩,
    ⟨21, 0, 0, .frame, .ro, .control, false, 0, 281474976710655, 0⟩,
    ⟨22, 0, 0, .u32, .ro, .control, false, 0, 4294967295, 0⟩,
    ⟨23, 0, 0, .u8, .ro, .control, false, 0, 255, 0⟩,
    ⟨24, 0, 0, .u16, .ro, .control, false, 0, 65535, 0⟩]
   ++ [⟨25, 0, 0, .u32, .ro, .control, false, 0, 4294967295, 0⟩,
    ⟨26, 0, 0, .u32, .ro, .control, false, 0, 4294967295, 0⟩,
    ⟨27, 0, 0, .u32, .ro, .control, false, 0, 4294967295, 0⟩,
    ⟨28, 0, 0, .i32, .ro, .control, false, -2147483648, 2147483647, 0⟩,
    ⟨29, 0, 0, .u32, .ro, .control, false, 0, 4294967295, 0⟩,
    ⟨30, 0, 0, .u32, .ro, .control, false, 0, 4294967295, 0⟩]

/-- The objects of index 3900h (Table 13.14). -/
def dictRows3900 : List Decl :=
  [⟨1, 0, 0, .bool, .rw, .control, true, 0, 1, 0⟩,
    ⟨2, 0, 0, .u8, .ro, .control, false, 0, 255, 0⟩,
    ⟨3, 0, 0, .u8, .rw, .control, true, 0, 255, 0⟩,
    ⟨4, 0, 0, .u8, .ro, .control, false, 0, 255, 0⟩,
    ⟨5, 0, 0, .u8, .ro, .control, false, 0, 255, 255⟩,
    ⟨6, 0, 0, .u64, .ro, .control, false, 0, 18446744073709551615, 0⟩,
    ⟨7, 0, 0, .u32, .rw, .control, true, 0, 4294967295, 0⟩,
    ⟨8, 0, 0, .bool, .rw, .control, true, 0, 1, 1⟩]
   ++ [⟨9, 0, 0, .u32, .rw, .control, true, 0, 4294967295, 10000⟩,
    ⟨10, 0, 0, .u32, .rw, .control, true, 0, 4294967295, 5000⟩,
    ⟨11, 0, 0, .u8, .ro, .control, false, 0, 255, 0⟩,
    ⟨12, 0, 0, .u8, .ro, .control, false, 0, 255, 0⟩,
    ⟨13, 0, 0, .u16, .ro, .control, false, 0, 65535, 0⟩,
    ⟨14, 0, 0, .u32, .ro, .control, false, 0, 4294967295, 0⟩,
    ⟨15, 0, 0, .u32, .ro, .control, false, 0, 4294967295, 0⟩,
    ⟨16, 0, 0, .u32, .ro, .control, false, 0, 4294967295, 0⟩]
   ++ [⟨17, 0, 0, .u32, .ro, .control, false, 0, 4294967295, 0⟩,
    ⟨18, 0, 0, .u32, .ro, .control, false, 0, 4294967295, 0⟩,
    ⟨19, 0, 0, .u32, .ro, .control, false, 0, 4294967295, 0⟩,
    ⟨20, 0, 0, .u32, .ro, .control, false, 0, 4294967295, 0⟩,
    ⟨21, 0, 0, .u32, .ro, .control, false, 0, 4294967295, 0⟩,
    ⟨22, 0, 0, .u32, .ro, .control, false, 0, 4294967295, 0⟩,
    ⟨23, 0, 0, .u32, .ro, .control, false, 0, 4294967295, 0⟩]

/-- The objects of index 4000h (Table 4.5). -/
def dictRows4000 : List Decl :=
  [⟨1, 0, 0, .u8, .ro, .control, false, 0, 255, 0⟩,
    ⟨2, 0, 0, .u8, .ro, .control, false, 0, 255, 255⟩,
    ⟨3, 0, 0, .str, .ro, .control, false, 0, 0, 0⟩,
    ⟨4, 0, 0, .u8, .rw, .control, false, 0, 1, 0⟩,
    ⟨5, 0, 0, .u32, .rw, .control, false, 0, 50331648, 0⟩,
    ⟨6, 0, 0, .u32, .rw, .control, false, 0, 50266112, 0⟩,
    ⟨7, 0, 0, .blob, .wo, .control, false, 0, 0, 0⟩,
    ⟨8, 0, 0, .bool, .wo, .control, false, 0, 1, 0⟩]
   ++ [⟨9, 0, 0, .u32, .ro, .control, false, 0, 4294967295, 0⟩,
    ⟨10, 0, 0, .u64, .ro, .control, false, 0, 18446744073709551615, 0⟩,
    ⟨11, 0, 0, .u64, .ro, .control, false, 0, 18446744073709551615, 0⟩,
    ⟨12, 0, 0, .u8, .ro, .control, false, 0, 255, 255⟩,
    ⟨13, 0, 0, .u8, .rw, .sluice, false, 0, 255, 255⟩,
    ⟨14, 0, 0, .u8, .rw, .control, true, 0, 255, 255⟩,
    ⟨15, 0, 0, .u32, .ro, .control, false, 0, 4294967295, 0⟩,
    ⟨16, 0, 0, .frame, .ro, .control, false, 0, 281474976710655, 0⟩]
   ++ [⟨17, 0, 0, .u32, .ro, .control, false, 0, 4294967295, 0⟩]

/-- The objects of index 4010h (Table 4.12). -/
def dictRows4010 : List Decl :=
  [⟨1, 0, 15, .u8, .ro, .control, false, 0, 255, 0⟩,
    ⟨2, 0, 15, .u32, .rw, .control, false, 0, 4294967295, 0⟩,
    ⟨3, 0, 15, .u32, .rw, .control, false, 0, 4294967295, 0⟩,
    ⟨4, 0, 15, .u32, .rw, .control, false, 0, 4294967295, 0⟩,
    ⟨5, 0, 15, .u32, .rw, .control, false, 0, 4294967295, 0⟩,
    ⟨6, 0, 15, .u32, .rw, .control, false, 0, 4294967295, 0⟩,
    ⟨7, 0, 15, .u32, .rw, .control, false, 0, 4294967295, 0⟩,
    ⟨8, 0, 15, .u32, .rw, .control, false, 0, 4294967295, 0⟩]
   ++ [⟨9, 0, 15, .u32, .rw, .control, false, 0, 4294967295, 0⟩,
    ⟨10, 0, 15, .u32, .ro, .control, false, 0, 4294967295, 0⟩,
    ⟨11, 0, 15, .u32, .ro, .control, false, 0, 4294967295, 0⟩,
    ⟨12, 0, 15, .u32, .ro, .control, false, 0, 4294967295, 0⟩]

/-- The objects of index 4100h (Table 4.10). -/
def dictRows4100 : List Decl :=
  [⟨1, 0, 4095, .u8, .ro, .control, false, 0, 255, 0⟩,
    ⟨2, 0, 4095, .u8, .ro, .control, false, 0, 255, 0⟩,
    ⟨3, 0, 4095, .u8, .ro, .control, false, 0, 255, 0⟩,
    ⟨4, 0, 4095, .u8, .ro, .control, false, 0, 255, 0⟩,
    ⟨5, 0, 4095, .u32, .rw, .sluice, false, 64, 2147483648, 0⟩,
    ⟨6, 0, 4095, .u64, .ro, .control, false, 0, 18446744073709551615, 0⟩,
    ⟨7, 0, 4095, .u64, .ro, .control, false, 0, 18446744073709551615, 0⟩,
    ⟨8, 0, 4095, .u64, .ro, .control, false, 0, 18446744073709551615, 0⟩]
   ++ [⟨9, 0, 4095, .u8, .ro, .control, false, 0, 255, 0⟩,
    ⟨10, 0, 4095, .u32, .rw, .sluice, false, 0, 4294967295, 0⟩,
    ⟨11, 0, 4095, .u32, .rw, .sluice, false, 0, 4294967295, 0⟩,
    ⟨12, 0, 4095, .u32, .rw, .sluice, false, 0, 4294967295, 0⟩,
    ⟨13, 0, 4095, .u32, .rw, .sluice, false, 0, 4294967295, 0⟩,
    ⟨14, 0, 4095, .u32, .rw, .sluice, false, 0, 4294967295, 0⟩,
    ⟨15, 0, 4095, .u32, .rw, .sluice, false, 0, 4294967295, 0⟩,
    ⟨16, 0, 4095, .u32, .rw, .sluice, false, 0, 4294967295, 0⟩]
   ++ [⟨17, 0, 4095, .u32, .rw, .sluice, false, 0, 4294967295, 0⟩,
    ⟨18, 0, 4095, .u32, .rw, .sluice, false, 0, 4294967295, 0⟩,
    ⟨19, 0, 4095, .u32, .rw, .sluice, false, 0, 4294967295, 0⟩,
    ⟨20, 0, 4095, .u32, .rw, .sluice, false, 0, 4294967295, 0⟩,
    ⟨21, 0, 4095, .u32, .rw, .sluice, false, 0, 4294967295, 0⟩,
    ⟨22, 0, 4095, .u32, .rw, .sluice, false, 0, 4294967295, 0⟩,
    ⟨23, 0, 4095, .u32, .rw, .sluice, false, 0, 4294967295, 0⟩,
    ⟨24, 0, 4095, .u32, .rw, .sluice, false, 0, 4294967295, 0⟩]
   ++ [⟨25, 0, 4095, .u32, .rw, .sluice, false, 0, 4294967295, 0⟩,
    ⟨26, 0, 4095, .u64, .rw, .sluice, false, 0, 18446744073709551615, 18446744073709551614⟩,
    ⟨27, 0, 4095, .u8, .ro, .control, false, 0, 255, 0⟩,
    ⟨28, 0, 4095, .u32, .rw, .control, false, 0, 4294967295, 0⟩,
    ⟨29, 0, 4095, .blob, .ro, .control, false, 0, 0, 0⟩,
    ⟨30, 0, 4095, .u32, .ro, .control, false, 0, 4294967295, 0⟩]

/-- The objects of index 4200h (Table 5.3). -/
def dictRows4200 : List Decl :=
  [⟨1, 0, 16383, .u16, .rw, .sluice, false, 0, 65535, 0⟩,
    ⟨2, 0, 16383, .gain, .rw, .sluice, false, -32768, 2400, 0⟩,
    ⟨3, 0, 16383, .u8, .rw, .sluice, false, 0, 2, 2⟩,
    ⟨4, 0, 16383, .u16, .rw, .sluice, false, 8, 4096, 480⟩,
    ⟨5, 0, 16383, .u8, .rw, .sluice, false, 1, 100, 20⟩,
    ⟨6, 0, 16383, .u16, .rw, .sluice, false, 0, 4095, 0⟩,
    ⟨7, 0, 16383, .bool, .rw, .sluice, false, 0, 1, 0⟩,
    ⟨8, 0, 16383, .u8, .rw, .control, false, 0, 1, 0⟩]
   ++ [⟨9, 0, 16383, .u8, .ro, .control, false, 0, 255, 0⟩,
    ⟨10, 0, 16383, .u16, .ro, .control, false, 0, 65535, 0⟩,
    ⟨11, 0, 16383, .gain, .ro, .control, false, -32768, 2400, 0⟩,
    ⟨12, 0, 16383, .i16, .ro, .control, false, -32768, 32767, -32768⟩,
    ⟨13, 0, 16383, .i16, .ro, .control, false, -32768, 32767, -32768⟩,
    ⟨14, 0, 16383, .u32, .ro, .control, false, 0, 4294967295, 0⟩,
    ⟨15, 0, 16383, .u32, .ro, .control, false, 0, 4294967295, 0⟩]

/-- The objects of index 4210h (Table 5.6). -/
def dictRows4210 : List Decl :=
  [⟨1, 0, 255, .bool, .rw, .direct, false, 0, 1, 0⟩,
    ⟨2, 0, 255, .u8, .rw, .control, false, 0, 15, 0⟩,
    ⟨3, 0, 255, .u8, .rw, .control, false, 0, 31, 0⟩,
    ⟨4, 0, 255, .u8, .rw, .control, false, 0, 15, 0⟩,
    ⟨5, 0, 255, .u8, .rw, .control, false, 0, 31, 0⟩,
    ⟨6, 0, 255, .gain, .rw, .direct, false, -32768, 2400, 0⟩,
    ⟨7, 0, 255, .u8, .ro, .control, false, 0, 255, 0⟩,
    ⟨8, 0, 255, .u8, .ro, .control, false, 0, 255, 0⟩]
   ++ [⟨9, 0, 255, .u32, .ro, .control, false, 0, 4294967295, 0⟩]

/-- The objects of index 4220h (Table 5.5). -/
def dictRows4220 : List Decl :=
  [⟨1, 0, 0, .u16, .rw, .control, false, 1, 6000, 6⟩,
    ⟨2, 0, 0, .u16, .rw, .control, false, 1, 6000, 1800⟩,
    ⟨3, 0, 0, .u16, .rw, .control, false, 0, 16383, 0⟩,
    ⟨4, 0, 0, .u16, .rw, .control, false, 1, 16384, 512⟩,
    ⟨5, 0, 0, .blob, .ro, .control, false, 0, 0, 0⟩,
    ⟨6, 0, 0, .frame, .ro, .control, false, 0, 281474976710655, 0⟩]

/-- The objects of index 4300h (Table 6.7). -/
def dictRows4300 : List Decl :=
  [⟨1, 0, 0, .bool, .ro, .control, false, 0, 1, 0⟩,
    ⟨2, 0, 0, .u32, .ro, .control, false, 0, 4294967295, 0⟩,
    ⟨3, 0, 0, .u32, .ro, .control, false, 0, 4294967295, 0⟩,
    ⟨4, 0, 0, .u16, .ro, .control, false, 0, 65535, 0⟩,
    ⟨5, 0, 0, .u16, .ro, .control, false, 0, 65535, 0⟩,
    ⟨6, 0, 0, .u16, .ro, .control, false, 0, 65535, 0⟩,
    ⟨7, 0, 0, .u32, .rw, .control, false, 0, 4294967295, 0⟩,
    ⟨8, 0, 0, .bool, .wo, .control, false, 0, 1, 0⟩]
   ++ [⟨9, 0, 0, .u8, .ro, .control, false, 0, 255, 0⟩,
    ⟨10, 0, 0, .blob, .ro, .control, false, 0, 0, 0⟩,
    ⟨11, 0, 0, .u32, .ro, .control, false, 0, 4294967295, 0⟩,
    ⟨12, 0, 0, .u32, .ro, .control, false, 0, 4294967295, 0⟩,
    ⟨13, 0, 0, .u8, .ro, .control, false, 0, 255, 0⟩,
    ⟨14, 0, 0, .frame, .ro, .control, false, 0, 281474976710655, 0⟩,
    ⟨15, 0, 0, .frame, .ro, .control, false, 0, 281474976710655, 0⟩,
    ⟨16, 0, 0, .frame, .ro, .control, false, 0, 281474976710655, 0⟩]
   ++ [⟨17, 0, 0, .u32, .ro, .control, false, 0, 4294967295, 0⟩,
    ⟨18, 0, 0, .u32, .ro, .control, false, 0, 4294967295, 0⟩,
    ⟨19, 0, 0, .u32, .ro, .control, false, 0, 4294967295, 0⟩]

/-- The objects of index 5000h (Table 7.4). -/
def dictRows5000 : List Decl :=
  [⟨1, 0, 8191, .u16, .rw, .sluice, false, 0, 65535, 65535⟩,
    ⟨2, 0, 8191, .u8, .rw, .sluice, false, 0, 127, 0⟩,
    ⟨3, 0, 8191, .u8, .rw, .sluice, false, 2, 3, 2⟩,
    ⟨4, 0, 8191, .u16, .rw, .sluice, false, 0, 1023, 0⟩,
    ⟨5, 0, 8191, .gain, .rw, .sluice, false, -32768, 2400, 0⟩,
    ⟨6, 0, 8191, .i32, .rw, .control, false, -2147483648, 2147483647, 0⟩,
    ⟨7, 0, 8191, .i32, .rw, .control, false, -2147483648, 2147483647, 0⟩,
    ⟨8, 0, 8191, .i32, .rw, .control, false, -2147483648, 2147483647, 0⟩]
   ++ [⟨9, 0, 8191, .bool, .rw, .sluice, false, 0, 1, 0⟩,
    ⟨10, 0, 8191, .blob, .rw, .sluice, false, 0, 0, 0⟩,
    ⟨11, 0, 8191, .u8, .ro, .control, false, 0, 255, 0⟩,
    ⟨12, 0, 8191, .u64, .ro, .control, false, 0, 18446744073709551615, 0⟩,
    ⟨13, 0, 8191, .u32, .ro, .control, false, 0, 4294967295, 0⟩,
    ⟨14, 0, 8191, .u32, .ro, .control, false, 0, 4294967295, 0⟩,
    ⟨15, 0, 8191, .u32, .ro, .control, false, 0, 4294967295, 0⟩,
    ⟨16, 0, 8191, .i16, .ro, .control, false, -32768, 32767, -32768⟩]

/-- The objects of index 5100h (Table 7.6). -/
def dictRows5100 : List Decl :=
  [⟨1, 0, 0, .bool, .rw, .sluice, false, 0, 1, 1⟩,
    ⟨2, 0, 0, .u64, .rw, .sluice, false, 0, 18446744073709551615, 0⟩,
    ⟨3, 0, 0, .u8, .rw, .sluice, false, 0, 15, 8⟩,
    ⟨4, 0, 0, .u16, .ro, .control, false, 0, 65535, 0⟩,
    ⟨5, 0, 0, .u64, .ro, .control, false, 0, 18446744073709551615, 0⟩,
    ⟨6, 0, 0, .u64, .ro, .control, false, 0, 18446744073709551615, 0⟩,
    ⟨7, 0, 0, .blob, .konst, .control, false, 0, 0, 0⟩,
    ⟨8, 0, 0, .u16, .rw, .sluice, false, 0, 2250, 0⟩]
   ++ [⟨9, 0, 0, .bool, .rw, .sluice, false, 0, 1, 0⟩,
    ⟨10, 0, 0, .u64, .ro, .control, false, 0, 18446744073709551615, 0⟩,
    ⟨11, 0, 0, .u64, .ro, .control, false, 0, 18446744073709551615, 0⟩,
    ⟨12, 0, 0, .u32, .ro, .control, false, 0, 4294967295, 0⟩,
    ⟨13, 0, 0, .u32, .ro, .control, false, 0, 4294967295, 0⟩,
    ⟨14, 0, 0, .u32, .ro, .control, false, 0, 4294967295, 0⟩,
    ⟨15, 0, 0, .u32, .ro, .control, false, 0, 4294967295, 0⟩,
    ⟨16, 0, 0, .u32, .ro, .control, false, 0, 4294967295, 0⟩]
   ++ [⟨17, 0, 0, .u32, .ro, .control, false, 0, 4294967295, 0⟩,
    ⟨18, 0, 0, .u32, .ro, .control, false, 0, 4294967295, 0⟩]

/-- The objects of index 5200h (Table 8.8). -/
def dictRows5200 : List Decl :=
  [⟨1, 0, 0, .bool, .rw, .sluice, true, 0, 1, 0⟩,
    ⟨2, 0, 0, .u8, .rw, .sluice, false, 0, 1, 0⟩,
    ⟨3, 0, 0, .u16, .rw, .sluice, false, 8, 375, 375⟩,
    ⟨4, 0, 0, .u16, .rw, .sluice, false, 0, 65535, 65535⟩,
    ⟨5, 0, 0, .u64, .rw, .sluice, false, 0, 18446744073709551615, 0⟩,
    ⟨6, 0, 0, .u8, .rw, .sluice, false, 0, 64, 0⟩,
    ⟨7, 0, 0, .blob, .rw, .sluice, false, 0, 0, 0⟩,
    ⟨8, 0, 0, .u8, .ro, .control, false, 0, 255, 0⟩]
   ++ [⟨9, 0, 0, .u64, .ro, .control, false, 0, 18446744073709551615, 0⟩,
    ⟨10, 0, 0, .u64, .ro, .control, false, 0, 18446744073709551615, 0⟩,
    ⟨11, 0, 0, .u64, .ro, .control, false, 0, 18446744073709551615, 0⟩,
    ⟨12, 0, 0, .frame, .ro, .control, false, 0, 281474976710655, 0⟩,
    ⟨13, 0, 0, .u64, .ro, .control, false, 0, 18446744073709551615, 0⟩,
    ⟨14, 0, 0, .u64, .ro, .control, false, 0, 18446744073709551615, 0⟩,
    ⟨15, 0, 0, .u64, .ro, .control, false, 0, 18446744073709551615, 0⟩,
    ⟨16, 0, 0, .u64, .ro, .control, false, 0, 18446744073709551615, 0⟩]
   ++ [⟨17, 0, 0, .u64, .ro, .control, false, 0, 18446744073709551615, 0⟩,
    ⟨18, 0, 0, .u8, .rw, .control, false, 0, 3, 0⟩,
    ⟨19, 0, 0, .u32, .ro, .control, false, 0, 4294967295, 0⟩,
    ⟨20, 0, 0, .u32, .ro, .control, false, 0, 4294967295, 0⟩,
    ⟨21, 0, 0, .u32, .ro, .control, false, 0, 4294967295, 0⟩,
    ⟨22, 0, 0, .u64, .ro, .control, false, 0, 18446744073709551615, 0⟩,
    ⟨23, 0, 0, .u64, .ro, .control, false, 0, 18446744073709551615, 25769803776⟩,
    ⟨24, 0, 0, .u8, .rw, .control, false, 0, 1, 0⟩]
   ++ [⟨25, 0, 0, .u16, .rw, .control, false, 0, 65535, 0⟩,
    ⟨26, 0, 0, .u8, .rw, .control, false, 0, 255, 0⟩,
    ⟨27, 0, 0, .u8, .rw, .control, false, 0, 64, 0⟩,
    ⟨28, 0, 0, .blob, .ro, .control, false, 0, 0, 0⟩,
    ⟨29, 0, 0, .blob, .ro, .control, false, 0, 0, 0⟩]

/-- The objects of index 5300h (Table 9.5, Table 9.6). -/
def dictRows5300 : List Decl :=
  [⟨1, 0, 255, .bool, .rw, .sluice, false, 0, 1, 0⟩,
    ⟨2, 0, 255, .u8, .rw, .sluice, false, 0, 1, 0⟩,
    ⟨3, 0, 255, .u8, .rw, .sluice, false, 1, 64, 16⟩,
    ⟨4, 0, 255, .i8, .rw, .sluice, false, -15, 15, 8⟩,
    ⟨5, 0, 255, .blob, .rw, .sluice, false, 0, 0, 0⟩,
    ⟨6, 0, 255, .u8, .rw, .sluice, false, 0, 1, 0⟩,
    ⟨7, 0, 255, .u32, .rw, .sluice, false, 0, 4294967295, 0⟩,
    ⟨8, 0, 255, .u32, .rw, .control, false, 0, 458752, 0⟩]
   ++ [⟨9, 0, 255, .blob, .wo, .control, false, 0, 0, 0⟩,
    ⟨10, 0, 255, .u8, .ro, .control, false, 0, 255, 0⟩,
    ⟨11, 0, 255, .u8, .ro, .control, false, 0, 255, 0⟩,
    ⟨12, 0, 255, .u8, .ro, .control, false, 0, 255, 0⟩,
    ⟨13, 0, 255, .u64, .ro, .control, false, 0, 18446744073709551615, 0⟩,
    ⟨14, 0, 255, .u64, .ro, .control, false, 0, 18446744073709551615, 0⟩,
    ⟨15, 0, 255, .i16, .ro, .control, false, -32768, 32767, -32768⟩,
    ⟨16, 0, 255, .u32, .ro, .control, false, 0, 4294967295, 0⟩]
   ++ [⟨17, 0, 255, .u32, .ro, .control, false, 0, 4294967295, 0⟩,
    ⟨64, 0, 0, .bool, .rw, .sluice, false, 0, 1, 0⟩,
    ⟨65, 0, 0, .u16, .rw, .sluice, false, 0, 288, 288⟩,
    ⟨66, 0, 0, .u8, .rw, .sluice, false, 1, 64, 64⟩,
    ⟨67, 0, 0, .u8, .rw, .sluice, false, 1, 64, 64⟩,
    ⟨68, 0, 0, .u8, .rw, .sluice, false, 1, 16, 1⟩,
    ⟨69, 0, 0, .u16, .rw, .sluice, false, 1, 65535, 65535⟩,
    ⟨70, 0, 0, .u8, .rw, .sluice, false, 0, 31, 16⟩]
   ++ [⟨71, 0, 0, .blob, .rw, .sluice, false, 0, 0, 0⟩,
    ⟨72, 0, 0, .blob, .rw, .sluice, false, 0, 0, 0⟩,
    ⟨73, 0, 0, .u8, .rw, .control, false, 0, 15, 14⟩,
    ⟨74, 0, 0, .u32, .ro, .control, false, 0, 4294967295, 0⟩,
    ⟨75, 0, 0, .u8, .rw, .control, false, 0, 15, 0⟩,
    ⟨76, 0, 0, .blob, .ro, .control, false, 0, 0, 0⟩,
    ⟨77, 0, 0, .frame, .ro, .control, false, 0, 281474976710655, 0⟩,
    ⟨78, 0, 0, .u32, .ro, .control, false, 0, 4294967295, 0⟩]
   ++ [⟨79, 0, 0, .u16, .ro, .control, false, 0, 65535, 0⟩,
    ⟨80, 0, 0, .blob, .konst, .control, false, 0, 0, 0⟩,
    ⟨81, 0, 0, .blob, .konst, .control, false, 0, 0, 0⟩,
    ⟨82, 0, 0, .u32, .ro, .control, false, 0, 4294967295, 0⟩]

/-- The declared rows of an index (Table 2.4); none for an index the manual does not assign. -/
def dictRows (index : Nat) : List Decl :=
  match index with
  | 0x1000 => dictRows1000
  | 0x1100 => dictRows1100
  | 0x1110 => dictRows1110
  | 0x1120 => dictRows1120
  | 0x1200 => dictRows1200
  | 0x1201 => dictRows1201
  | 0x1210 => dictRows1210
  | 0x1220 => dictRows1220
  | 0x1230 => dictRows1230
  | 0x1300 => dictRows1300
  | 0x1380 => dictRows1380
  | 0x1400 => dictRows1400
  | 0x1500 => dictRows1500
  | 0x1510 => dictRows1510
  | 0x1600 => dictRows1600
  | 0x1610 => dictRows1610
  | 0x1620 => dictRows1620
  | 0x2000 => dictRows2000
  | 0x2010 => dictRows2010
  | 0x2100 => dictRows2100
  | 0x2101 => dictRows2101
  | 0x2110 => dictRows2110
  | 0x2200 => dictRows2200
  | 0x2800 => dictRows2800
  | 0x2900 => dictRows2900
  | 0x2A00 => dictRows2A00
  | 0x3000 => dictRows3000
  | 0x3010 => dictRows3010
  | 0x3800 => dictRows3800
  | 0x3900 => dictRows3900
  | 0x4000 => dictRows4000
  | 0x4010 => dictRows4010
  | 0x4100 => dictRows4100
  | 0x4200 => dictRows4200
  | 0x4210 => dictRows4210
  | 0x4220 => dictRows4220
  | 0x4300 => dictRows4300
  | 0x5000 => dictRows5000
  | 0x5100 => dictRows5100
  | 0x5200 => dictRows5200
  | 0x5300 => dictRows5300
  | _ => []

/-- Elements and sub-indices that a row covers but the manual leaves unassigned: destinations between the DSP inputs
and the other receivers (Table 5.2), a lane block's FC entry (Table 10.11). -/
def unassigned (index elem sub : Nat) : Bool :=
  match index with
  | 0x4200 => decide (6656 ≤ elem ∧ elem ≤ 8191)
  | 0x3010 => decide (elem % 10 = 9) && !(sub == 1 || sub == 6 || sub == 8)
  | _ => false

/-- The declaration of an object the manual assigns (R5, R35). -/
def fixedDecl (index elem sub : Nat) : Option Decl :=
  if unassigned index elem sub then none
  else (dictRows index).find? (fun d => d.sub == sub && decide (d.lo ≤ elem) && decide (elem ≤ d.hi))

/-- Default severity of each event (Table 15.1). -/
def eventSeverity (n : Nat) : Nat :=
  if n ∈ [5, 128, 130, 135, 141, 225] then 3
  else if n ∈ [2, 9, 11, 44, 47, 97, 134, 136, 137, 138, 139, 140, 160, 162, 171, 198, 226, 227, 228, 233] then 2
  else if n ∈ [4, 6, 7, 8, 12, 13, 14, 32, 33, 36, 37, 38, 39, 41, 42, 43, 45, 64, 65, 66, 67, 68, 69, 70, 71, 96, 98, 100,
      101, 102, 103, 104, 129] then 1
  else if n ∈ [161, 163, 165, 166, 168, 169, 172, 192, 193, 194, 197, 200, 229, 230, 232, 234, 236, 237] then 1
  else 0

/-- Defaults that differ from element to element. -/
def elementDefault (index elem sub : Nat) (d : Int) : Int :=
  match index, sub with
  | 0x1300, 4 => eventSeverity elem
  | 0x1300, 8 => if 2 ≤ eventSeverity elem then 1 else 0
  | 0x2010, 1 => elem
  | 0x2010, 2 => if elem ≤ 1 then 1 else 0
  | 0x2800, 2 => if elem = 4 then 2 else d
  | 0x2110, 1 => 2415657
  | 0x2110, 2 => 1610875
  | _, _ => d

/-- What a numeric object reads as while nothing has been written to it: its default (R30). -/
def dfltOf (k : Nat) : Int :=
  match fixedDecl (keyIndex k) (keyElem k) (keySub k) with
  | some d => elementDefault (keyIndex k) (keyElem k) (keySub k) d.dflt
  | none => 0

/-- What a STR or BLOB object reads as while nothing has been written to it. -/
def blobDflt (k : Nat) : List Byte :=
  if k = Obj.ident.vendor then [0x4B, 0x61, 0x6C, 0x61, 0x6E, 0x74, 0x61, 0x6E, 0x64]
  else if k = Obj.ident.part then
    [0x55, 0x5A, 0x32, 0x30, 0x34, 0x38, 0x2D, 0x46, 0x42, 0x32, 0x39, 0x31, 0x36, 0x2D, 0x45]
  else if k = Obj.ident.revision then [0x41, 0x31]
  else
    match keyIndex k, keySub k with
    | 0x5000, 10 => (List.replicate 128 [(0x10 : Byte), 0x00]).flatten
    | 0x5200, 7 => List.replicate 64 4
    | 0x5300, 5 => List.replicate 49152 0
    | 0x5300, 71 => List.replicate 57344 0
    | 0x5300, 72 => List.replicate 57344 0
    | _, _ => []

/-- The value a numeric type admits (R33, Table 2.2). -/
def Ty.admits (t : Ty) (v : Int) : Bool :=
  match t with
  | .bool => decide (0 ≤ v ∧ v ≤ 1)
  | .u8 => decide (0 ≤ v ∧ v < 256)
  | .u16 => decide (0 ≤ v ∧ v < 65536)
  | .u32 => decide (0 ≤ v ∧ v < 4294967296)
  | .u64 => decide (0 ≤ v ∧ v < 18446744073709551616)
  | .i8 => decide (-128 ≤ v ∧ v < 128)
  | .i16 => decide (-32768 ≤ v ∧ v < 32768)
  | .i32 => decide (-2147483648 ≤ v ∧ v < 2147483648)
  | .i64 => decide (-9223372036854775808 ≤ v ∧ v < 9223372036854775808)
  | .q23 => decide (-8388608 ≤ v ∧ v < 8388608)
  | .gain => decide (-14400 ≤ v ∧ v ≤ 2400) || decide (v = -32768)
  | .frame => decide (0 ≤ v ∧ v < 281474976710656)
  | .time => decide (0 ≤ v ∧ v < 281474976710656000000000)
  | .str => false
  | .blob => false

end Sys2Proof.Machine
end

