-- ==== Sys2Proof/Machine/State.lean ====
section
/-! DEFINITION. The state of one engine: every dictionary object (in the two sparse object stores), every hidden piece
of state behind the objects, the memories, the pins, the messages sent, and the queue of waiting commands. -/

namespace Sys2Proof.Machine

/-! ## What the machine sends -/

/-- A message the engine puts on a port. -/
inductive Out where
  /-- A Gultin answer or push: peer address, port, session, sequence, message type, flags, payload, tag. -/
  | gultin (addr port session sequence typ : Nat) (flags : BitVec 16) (payload tag : List Byte)
  /-- A Braid message handed to its link: class, MSG_SEQ, KIND, its bytes behind KIND. -/
  | braid (link cls seq kind : Nat) (bytes : List Byte)
  /-- The TRAIN payload that a lane sends from now on (Table 10.7): link, physical lane. -/
  | train (link lane : Nat) (payload : BitVec 64)
  /-- The lanes of a link over the frame that ends. -/
  | lanes (link : Nat) (f : LaneFrame)
  /-- State that a resync copies to the partner in the bulk class. -/
  | resync (piece : ResyncPiece)
  /-- WCK_OUT over the frame that ends: periods, counted from the rising edge at its sample 0. -/
  | wck (periods : Nat)
  /-- A frame sent: port 0 to 3, or 5, 6 and 7 for the internal ports of paths A and B and of CTL0 (4 out of CTL0); what it is; its numbers. -/
  | eth (port : Nat) (kind : String) (fields : List Int) (payload : List Byte)
  /-- Bytes on SVC_MISO. -/
  | svc (bytes : List Byte)
  /-- Samples played by a clock group: 32 × port + slot and sample; and whether the engine drives the group's TCK and TFS. -/
  | tdm (group position : Nat) (clock : Bool) (samples : List (Nat × Int))
  /-- A bus response: master, ID, response code name, data. -/
  | bus (master id : Nat) (response : String) (data : List Byte)
  deriving DecidableEq, Repr

/-- The state of the engine. -/
structure State where
  /-- Commands waiting, first in first out. -/
  pending : List Instr
  /-- Messages sent, newest first; nothing reads it. -/
  out     : List Out
  /-- Model's own: how many free values have been drawn. -/
  fresh   : Nat
  /-- FRAME_NO (2200h.1). -/
  frame   : Nat
  /-- Numeric dictionary objects by key; unlisted ones read their default. -/
  obj     : Sparse Int
  /-- STR and BLOB objects by key. -/
  blob    : Sparse (List Byte)
  ctl     : Ctl
  slu     : Sluice
  cells   : Sparse Cell
  prog    : Program
  eddy    : Sparse Eddy
  conf    : Conf
  array   : Catch
  braid   : Braid
  net     : Net
  time    : Time
  sel     : Selector
  pair    : Pair
  fed     : Fed
  rst     : Reset
  ev      : Events
  bus     : Bus
  jtag    : Jtag
  pins    : Pins
  deriving DecidableEq, Repr

/-- Why a command stops the machine. (DESIGN CHOICE, log entry 103.) -/
inductive Fault where
  /-- Raised by no command: the manual answers every error with an answer, an event or a reset. Safe. -/
  | none
  deriving DecidableEq, Repr

/-- Why a command has no meaning. -/
inductive Refusal where
  /-- Raised by the dispatcher for a row without a meaning; no row of this model is so. Safe. -/
  | notModelled (mnemonic : String)
  deriving DecidableEq, Repr

/-! ## The machine right after reset -/

/-- The option bytes used when no slot is valid: the default column of Table 14.5 (fields without a default are 0). -/
def defaultOptions : List Byte := [0, 0, 0, 0, 20, 0] ++ List.replicate 122 0

def Ctl.reset : Ctl :=
  { sessions := [], candidates := [], journal := [], await := [], series := [], forwarded := [], savedNum := [],
    savedBlob := [], savedHash := 0, dormantNo := 0, ownedBefore := false, replay := false, handover := false }
def Sluice.reset : Sluice :=
  { openTag := 0, openSession := 0, openSeq := 0, openSet := [], waiting := [], heldFed := none, coord := none, answers := [],
    goAt := none, prepareSeen := false, fedAsk := none, fedReady := 0, nextId := 1, direct := [], heldBlock := [] }
def Program.reset : Program :=
  { running := none, staged := none, oldOut := none, copies := [], verifying := none, prepared := false }
def Tdm.reset : Tdm :=
  { capture := [], frames := [], adopted := [], playing := [], routed := [], position := [0, 0, 0, 0],
    heard := List.replicate 4 [], driving := List.replicate 4 false, driveNext := false, running := false, lastOut := [], outFade := none,
    inFade := none }
def Conf.reset : Conf :=
  { dests := [], rills := [], tdm := Tdm.reset, muteFrame := none, reframe := none, splice := none, meterFrame := 0, meterRun := 0 }
def Corr.reset : Corr :=
  { gens := [], corner := [], excluded := [], shifts := [], computing := [], areas := [],
    nextNo := 1, lastEnd := none }
def Catch.reset : Catch :=
  { running := false, copies := [], elems := [], base := 0, nextIn := 0, nextSub := 0, olds := [], lookback := [],
    lookFrom := 0, corr := Corr.reset, beams := [], buffers := [], bufFree := [], kept := [], settledBase := 0, held := [], allocs := 0,
    scan := none, scanFrom := [], ended := [], lastMap := none, mapOut := none, exactFrom := 0 }
def Braid.reset : Braid :=
  { links := [], lanes := [] }
def Net.reset : Net :=
  { copies := [], seen := [], differ := [], badAt := [], phase := [], rxFrom := [], rxUntil := [], txNext := [], txUntil := [],
    played := [], hearing := [], lossSeen := [], paths := [PathSt.idle, PathSt.idle] }
def Time.reset : Time :=
  { inst := [PtpInst.idle, PtpInst.idle], window := [], rebase := none, cycleRest := 0 }
def Selector.reset : Selector :=
  { running := false, entries := List.replicate 8 RefEntry.idle, pending := none, steps := none, later := 0,
    history := [], xtal := [], disagree := [], glide6 := 0, slew6 := 0 }
def Pair.reset : Pair :=
  { roleHigh := true, pullsRole := false, aliveOut := 0, partnerKind := 0, activeRuns := 0, watching := 0,
    agreeParts := [], agreeLast := none, records := [], agreeClosed := false, agreeMissing := 0, fills := [],
    digests := [], agreeing := 0, pathsSent := [], handovers := [], versionsOk := false, partnerMajor := 0,
    resyncAsked := false, epochC := 0, aborts := [], autoStopped := false, waitAuto := false, stored := [],
    image := [], imageLen := 0, tickLost := false, follows := 255 }
def Fed.reset : Fed :=
  { parts := [], heard := [], ahead := 0, missing := List.replicate 8 0, gens := List.replicate 8 0,
    goodVersion := 0, goodTime := 0, badTime := 0, differ := [], hops := [255, 255] }
def Reset.reset : Reset :=
  { asserted := [0], sources := [0], tell := [], cold := true, released := 0, optionsLoaded := false, begun := false,
    pllLocked := false, ticked := false, blocks := [], soft := none, starting := [], corePulse := false,
    firmwareDown := false, vbatLost := false, rtc := 0, options := defaultOptions, svcAnswer := none,
    svcSeries := [], thermLow := false, outHigh := false, pairEnable := true, rate := 0, rateNext := none,
    upFrames := 0 }
def Events.reset : Events :=
  { now := [], lasting := [], handling := [], queues := [], ring := [], flash := [], evtN := false }
def Bus.reset : Bus :=
  { hbm := [], sram := [], aon := [], flash := [], otp := [], cluster := [], dmaDone := [], fwVerifying := none, late := [] }
def Jtag.reset : Jtag :=
  { tap := .testLogicReset, ir := .idcode, irShift := [], dr := [], latched := [], tdo := false }
def Pins.reset : Pins :=
  { unitB := false, fedId := 0, resetN := true, supplyOk := false, boundary := [] }

/-- The engine at power-on: a power-on reset asserted, stage Frozen, every object at its default (R30, R335, R349).
(DESIGN CHOICE, log entries 3 and 4.) -/
def State.reset : State :=
  { pending := [], out := [], fresh := 0, frame := 0, obj := [], blob := [], ctl := Ctl.reset, slu := Sluice.reset,
    cells := [], prog := Program.reset, eddy := [], conf := Conf.reset, array := Catch.reset, braid := Braid.reset,
    net := Net.reset, time := Time.reset, sel := Selector.reset, pair := Pair.reset, fed := Fed.reset,
    rst := Reset.reset, ev := Events.reset, bus := Bus.reset, jtag := Jtag.reset, pins := Pins.reset }

end Sys2Proof.Machine
end

