-- ==== Sys2Proof/Machine/Ops.lean ====
section
/-! DEFINITION. The named operations over the state: reading and writing objects, sending messages, raising an event with
its Drift word, its Moraine record and its pushes (R361 to R380). -/

namespace Sys2Proof.Machine

/-- What a meaning answers. -/
abbrev Ans := Host.Outcome State Fault Refusal

/-! ## Objects -/

/-- The stored value of a numeric object. -/
def getO (s : State) (k : Nat) : Int := Sparse.get dfltOf s.obj k

/-- The stored value of an object that is never negative. -/
def natO (s : State) (k : Nat) : Nat := (getO s k).toNat

def setO (s : State) (k : Nat) (v : Int) : State := { s with obj := Sparse.put dfltOf s.obj k v }

def getB (s : State) (k : Nat) : List Byte := Sparse.get blobDflt s.blob k

def setB (s : State) (k : Nat) (v : List Byte) : State := { s with blob := Sparse.put blobDflt s.blob k v }

/-- Several numeric writes in order. -/
def setMany (s : State) (l : List (Nat × Int)) : State := l.foldl (fun s e => setO s e.1 e.2) s

/-- Number of values of a counter's type. -/
def counterSpan (k : Nat) : Nat :=
  match fixedDecl (keyIndex k) (keyElem k) (keySub k) with
  | some d => 2 ^ (8 * d.typ.size)
  | none => 2 ^ 32

/-- Add to a counter. Past the end of its type the manual gives no value (log entry 8): a free value of the type. -/
def addO (s : State) (k n : Nat) : State :=
  if natO s k + n < counterSpan k then setO s k (natO s k + n : Nat)
  else setO s k ((Config.counterPast k (natO s k + n)) % (counterSpan k : Nat))

def bumpO (s : State) (k : Nat) : State := addO s k 1

/-- Add to a counter that saturates at 65,535 (R344, R361). -/
def bumpSat (s : State) (k : Nat) : State := setO s k (min (natO s k + 1) 65535 : Nat)

/-- Send a message. (DESIGN CHOICE, log entry 104.) -/
def emit (s : State) (o : Out) : State := { s with out := o :: s.out }

/-- Draw a free value: the value and the state with the counter advanced. -/
def drawFree (s : State) : Nat × State := (Config.free s.fresh, { s with fresh := s.fresh + 1 })

/-- A field of the option bytes in use. -/
def optionField (s : State) (off n : Nat) : Nat := leNat ((s.rst.options.drop off).take n)

/-- UDP port of Gultin (R36, Table 14.5). -/
def gultinPort (s : State) : Nat := if optionField s 6 2 = 0 then 31013 else optionField s 6 2

/-- Samples in one frame (R22, R26): 8 at 48 kHz, 16 at 96 kHz. -/
def frameSamples (s : State) : Nat := if s.rst.rate = 0 then 8 else 16

/-- Index of the first sample of a frame. -/
def sampleIndex (s : State) (f : Nat) : Nat := f * frameSamples s

/-- FRAME_NO one frame on; the count holds at 2^48 − 1 (R22, R24). -/
def nextFrame (f : Nat) : Nat := if f + 1 < 281474976710656 then f + 1 else f

/-- Replace an element of a list. -/
def listSet {α : Type} (l : List α) (i : Nat) (v : α) : List α := l.set i v

/-- Update an association list's entry. -/
def assocPut {α : Type} (l : List (Nat × α)) (k : Nat) (v : α) : List (Nat × α) :=
  l.filter (fun e => e.1 != k) ++ [(k, v)]

def assocGet {α : Type} (l : List (Nat × α)) (k : Nat) : Option α := (l.find? (fun e => e.1 == k)).map (·.2)

/-! ## Blocks, roles and sessions -/

/-- A block is under block reset: its wrapper is closed (R345, R346); the control complex answers nothing until its firmware has
restarted as well (R348). -/
def inReset (s : State) (code : Nat) : Bool :=
  s.rst.blocks.any (fun b => b.1 == code && !b.2.idling) || (code == 25 && s.rst.firmwareDown)

/-- A block takes new work: it is neither in reset nor being asked to go idle (R346). -/
def takesWork (s : State) (code : Nat) : Bool := !s.rst.blocks.any (fun b => b.1 == code)

/-- Stage of the start (R349). -/
def stageOf (s : State) : Nat := natO s Obj.stage.stage

/-- ROLE reads ACTIVE (3800h.2, Table 13.12), and the role has been taken (R296). -/
def isActive (s : State) : Bool := getO s Obj.pair.role == 0 && s.pair.watching == 0

/-- This unit is PAIRED, IN_STEP or a party of a resync (R399). -/
def pairBound (s : State) : Bool := [2, 3, 4, 6].contains (natO s Obj.pair.state)

/-- Nothing decides here: the control complex is in reset (R348), or it hands over in a pair (R399). -/
def decidesNothing (s : State) : Bool := inReset s 25 || (s.ctl.handover && pairBound s)

/-- The session record of session number n (1 to 32). -/
def session (s : State) (n : Nat) : Session := Sparse.get (fun _ => Session.free) s.ctl.sessions n

def setSession (s : State) (n : Nat) (v : Session) : State :=
  { s with ctl := { s.ctl with sessions := Sparse.put (fun _ => Session.free) s.ctl.sessions n v } }

/-- STATE of session number n: 0 FREE, 1 OPEN, 2 FENCED, 3 DORMANT (Table 2.7). -/
def sessState (s : State) (n : Nat) : Nat := natO s (Obj.sess.state (n - 1))

/-- The session numbers. -/
def sessionNumbers : List Nat := (List.range 32).map (· + 1)

/-! ## The journal (R50, Tables 2.8 and 2.16) -/

/-- USED: bytes of the entries that have not retired. -/
def journalUsed (s : State) : Nat := (s.ctl.journal.filter (fun e => e.state != 2)).foldl (fun a e => a + e.length) 0

/-- PENDING: entries accepted and not yet applied. -/
def journalPending (s : State) : Nat := (s.ctl.journal.filter (fun e => e.state == 0)).length

/-! ## Gultin messages from the engine (Tables 2.9, 2.10) -/

/-- A Gultin header as sent. -/
def headerBytes (typ sess seq : Nat) (flags : BitVec 16) (len slot : Nat) : List Byte :=
  [0x47, 0x4C, 0x01] ++ natBE typ 1 ++ natBE sess 2 ++ natBE seq 4 ++ natBE flags.toNat 2 ++ natBE len 2
    ++ natBE slot 1 ++ [0x00]

/-- KEY_SLOT with which a message to a session is tagged, none for no tag: R56. `tagged` says whether the request
answered carried a tag, and with which slot. -/
def tagSlot (s : State) (sess : Nat) (tagged : Option Nat) : Option Nat :=
  match getO s Obj.own.authMode with
  | 0 => none
  | 2 => some (tagged.getD (session s sess).keySlot)
  | _ => tagged

/-- KEY0 to KEY3 (R56): 32 zeros until they are written. -/
def authKey (s : State) (k : Nat) : List Byte :=
  let b := getB s (Obj.own.authKey k)
  if b.isEmpty then List.replicate 32 0 else b

/-- Send a Gultin message to an address and port; FROM_ENGINE is set, and AUTH when it is tagged. -/
def sendGultin (s : State) (addr port sess seq typ : Nat) (flags : BitVec 16) (payload : List Byte)
    (tagged : Option Nat) : State :=
  match tagSlot s sess tagged with
  | none => emit s (.gultin addr port sess seq typ (flags ||| 0x8000) payload [])
  | some k =>
    let fl := flags ||| 0x8001
    let h := headerBytes typ sess seq fl payload.length k
    emit s (.gultin addr port sess seq typ fl payload ((hmacSha256 (authKey s k) (h ++ payload)).take 16))

/-- Push an EVENT message to a session, taking its next push sequence number (R44). -/
def pushTo (s : State) (n : Nat) (flags : BitVec 16) (payload : List Byte) : State :=
  if inReset s 25 then s
  else
    let v := session s n
    let s := sendGultin s (natO s (Obj.sess.peerAddress (n - 1))) (natO s (Obj.sess.peerPort (n - 1))) n v.pushSeq 10 flags
      payload none
    setSession s n { v with pushSeq := v.pushSeq + 1 }

/-! ## Drift queues (R372 to R378) -/

def driftQ (s : State) (q : Nat) : DQueue := Sparse.get (fun _ => DQueue.empty) s.ev.queues q

def setDriftQ (s : State) (q : Nat) (v : DQueue) : State :=
  { s with ev := { s.ev with queues := Sparse.put (fun _ => DQueue.empty) s.ev.queues q v } }

/-- Items in a word: VALID divided by the item size (R374). -/
def DWord.items (w : DWord) : Nat := w.valid / 2 ^ w.size

/-- The 20 wire bytes of a word: data, padded with zeros, then the tag (Table 15.7). -/
def DWord.wire (w : DWord) : List Byte :=
  let b (x : Bool) (n : Nat) : Nat := if x then 2 ^ n else 0
  w.data ++ List.replicate (16 - w.data.length) 0
    ++ natBE (b w.start 30 + b w.fin 29 + w.size * 2 ^ 27 + b w.loss 26 + w.valid) 4

/-- The idle word (Table 15.7): all data zero, VALID 0, IDLE set. -/
def idleWord : List Byte := List.replicate 16 0 ++ natBE (2 ^ 31) 4

/-- Mark the oldest word, or remember to mark the next one, as following a loss (R374, R376). -/
def markLoss (q : DQueue) : DQueue :=
  match q.words with
  | [] => { q with afterLoss := true }
  | w :: r => { q with words := { w with loss := true } :: r }

/-- A completed word enters a queue; when 32 are held the oldest is dropped. Answers the queue and the items lost. -/
def pushWord (q : DQueue) (w : DWord) : DQueue × Option Nat :=
  let w := if q.afterLoss then { w with loss := true } else w
  let q := { q with afterLoss := false }
  if q.words.length < 32 then ({ q with words := q.words ++ [w] }, none)
  else
    match q.words with
    | [] => ({ q with words := [w] }, none)
    | o :: r => (markLoss { q with words := r ++ [w] }, some o.items)

/-! ## Raising an event -/

/-- DETAIL when no instance applies (R361). (DEDUCED, log entry 42.) -/
def noDetail : Nat := 0xFFFFFFFF

/-- EVT_N is pulled low while an unmasked event of at least EVT_LEVEL has STICKY set, from Rising on (R365, Table 14.10).
(DEDUCED, log entry 16.) -/
def evtLow (s : State) : Bool :=
  decide (2 ≤ stageOf s) &&
    (List.range 256).any (fun n => getO s (Obj.evt.sticky n) == 1 && getO s (Obj.evt.mask n) == 0
      && decide (getO s Obj.evset.evtLevel ≤ getO s (Obj.evt.severity n)))

/-- The pin EVT_N follows the events. -/
def driveEvtN (s : State) : State := { s with ev := { s.ev with evtN := evtLow s } }

/-- A command is done: the next state, with EVT_N as the events now drive it. -/
def done (s : State) : Ans := .next (driveEvtN s)

/-- Add instance code `d` to a raising of this frame: the lowest code stands, a real cause clears the injected mark. -/
def Raised.merge (r : Raised) (d : Nat) (inj : Bool) : Raised :=
  { r with detail := min r.detail d, injected := r.injected && inj }

/-- Raise event n with instance d in frame f (R361, R370). At most one raising of an event per frame. -/
def raiseFull (s : State) (f n d : Nat) (inj lasting : Bool) : State :=
  let inj := inj || s.ev.handling.contains (n, d)
  let s := { s with ev := { s.ev with handling := s.ev.handling.filter (· != (n, d)) } }
  let s := if lasting && !s.ev.lasting.contains n then { s with ev := { s.ev with lasting := n :: s.ev.lasting } } else s
  match s.ev.now.find? (fun r => r.event == n && r.frame == f) with
  | some r =>
    let r' := r.merge d inj
    let s := setMany s [(Obj.evt.detail n, r'.detail), (Obj.evt.injected n, if r'.injected then 1 else 0)]
    { s with ev := { s.ev with now := s.ev.now.map (fun x => if x.event == n && x.frame == f then r' else x) } }
  | none =>
    let s := bumpSat s (Obj.evt.count n)
    let s := setMany s [(Obj.evt.status n, 1), (Obj.evt.sticky n, 1), (Obj.evt.lastFrame n, f), (Obj.evt.detail n, d),
      (Obj.evt.injected n, if inj then 1 else 0)]
    let r : Raised := ⟨n, f, d, inj, getO s (Obj.evt.mask n) == 1, getO s (Obj.evt.log n) == 1,
      natO s (Obj.evt.severity n), natO s (Obj.evt.count n)⟩
    { s with ev := { s.ev with now := s.ev.now ++ [r] } }

/-- Raise an event without a lasting condition in the current frame. -/
def raise (s : State) (n d : Nat) : State := raiseFull s s.frame n d false false

/-- Raise an event in the frame whose boundary is being prepared. -/
def raiseAt (s : State) (f n d : Nat) : State := raiseFull s f n d false false

/-- Raise an event whose condition lasts. -/
def raiseLasting (s : State) (n d : Nat) : State := raiseFull s s.frame n d false true

/-- The condition of an event is found absent (R361): STATUS returns to 0 unless it was raised in this very frame. -/
def clearCondition (s : State) (n : Nat) : State :=
  let s := { s with ev := { s.ev with lasting := s.ev.lasting.filter (· != n) } }
  if s.ev.now.any (fun r => r.event == n) then s else setO s (Obj.evt.status n) 0

/-! ## Moraine records (R379, R380, Table 15.10) -/

/-- The STATUS of events 0 to 255 as one number. -/
def statusBits (s : State) : Nat :=
  (List.range 256).foldl (fun a n => if getO s (Obj.evt.status n) == 1 then a + 2 ^ n else a) 0

/-- Write a Moraine record: kind 0 event, 1 stage entry, 2 release, 3 shutdown. -/
def writeMoraine (s : State) (kind : Nat) (injected : Bool) (frame event severity : Nat) : State :=
  let flags := (if injected then 1 else 0) + (if s.pins.unitB then 2 else 0) + (if isActive s then 4 else 0)
    + (if getO s Obj.clk.epoch == 0 then 8 else 0) + kind * 16
  let r : MRec := ⟨natO s Obj.mor.nextSeq, s.rst.rtc / 3000000000, s.rst.rtc % 3000000000 * 32768 / 3000000000, frame, stageOf s, flags,
    natO s Obj.rcnt.total, event, severity, statusBits s⟩
  let ring := s.ev.ring ++ [r]
  let ring := ring.drop (ring.length - 128)
  let s := { s with ev := { s.ev with ring := ring } }
  setO (bumpO s Obj.mor.nextSeq) Obj.mor.count ring.length

/-- The 64 bytes of a record, little-endian, its CRC over bytes 0 to 59. -/
def MRec.bytes (r : MRec) : List Byte :=
  let b := natLE r.seq 4 ++ natLE r.rtc 6 ++ natLE r.frac 2 ++ natLE r.frame 6 ++ natLE r.stage 1 ++ natLE r.flags 1
    ++ natLE r.total 4 ++ natLE r.event 2 ++ natLE r.severity 1 ++ [0x00] ++ natLE r.status 32
  b ++ natLE (crc32 b) 4

/-- Mirror every record not yet mirrored to the flash ring of 8,192 records (R380). -/
def mirrorMoraine (s : State) : State :=
  let new := s.ev.ring.filter (fun r => !s.ev.flash.any (fun x => x.seq == r.seq))
  match new.getLast? with
  | none => s
  | some l =>
    let fl := s.ev.flash ++ new
    setO { s with ev := { s.ev with flash := fl.drop (fl.length - 8192) } } Obj.mor.mirroredSeq l.seq

/-! ## Delivery at the end of the frame of raising -/

/-- The group of 32 of an event's STATUS or STICKY as a U32 (R364). -/
def groupBits (s : State) (key : Nat → Nat) (n : Nat) : Nat :=
  (List.range 32).foldl (fun a i => if getO s (key (32 * (n / 32) + i)) == 1 then a + 2 ^ i else a) 0

/-- Payload of an EVENT push for an event (Table 2.12, R364). -/
def eventPayload (s : State) (subId : Nat) (n severity count frame detail : Nat) : List Byte :=
  natBE subId 2 ++ natBE n 2 ++ natBE severity 1 ++ [0x00] ++ natBE count 2 ++ natBE frame 8 ++ natBE detail 4
    ++ natBE (groupBits s Obj.evt.status n) 4 ++ natBE (groupBits s Obj.evt.sticky n) 4 ++ [0x00, 0x00, 0x00, 0x00]

/-- INJECTED in the header flags (Table 2.10). -/
def injectedFlag (b : Bool) : BitVec 16 := if b then 0x0008 else 0

/-- Push an unmasked raising to every session that holds an on-change subscription covering it (R44, R364). -/
def pushEvent (s : State) (r : Raised) : State :=
  sessionNumbers.foldl
    (fun s n =>
      ((session s n).subs.filter (fun u => u.kind == 1 && u.mode == 0 && decide (u.first ≤ r.event)
          && decide (r.event ≤ u.last))).foldl
        (fun s u => pushTo s n (injectedFlag r.injected)
          (eventPayload s u.id r.event r.severity r.count r.frame r.detail)) s)
    s

/-- The Drift record of a raising: four 32-bit items in one word (R366). -/
def eventWord (s : State) (r : Raised) : DWord :=
  let b (x : Bool) (n : Nat) : Nat := if x then 2 ^ n else 0
  let i0 := r.event * 65536 + r.severity * 16384 + b r.injected 13 + b (getO s (Obj.evt.status r.event) == 1) 12
    + b s.pins.unitB 11
  ⟨natBE i0 4 ++ natBE (r.frame / 2 ^ 32 % 65536) 4 ++ natBE (r.frame % 2 ^ 32) 4 ++ natBE r.count 4, true, true, 2, false,
    16⟩

/-- Enter a word into a queue, with the loss of the oldest word when it is full (R374). -/
def enterWord (s : State) (q : Nat) (w : DWord) : State :=
  let (d, lost) := pushWord (driftQ s q) w
  let s := setO (setDriftQ s q d) (Obj.drift.depth q) d.words.length
  match lost with
  | none => s
  | some n => raise (addO s (Obj.drift.lostItems q) n) 229 q

/-- Deliver one raising: Moraine under LOG, then Drift and pushes unless masked (R361, R363 to R366, R379). -/
def deliver (s : State) (r : Raised) : State :=
  let s := if r.log then writeMoraine s 0 r.injected r.frame r.event r.severity else s
  if r.masked then s
  else
    let q := natO s Obj.evset.eventQueue
    let s := if q < 16 then enterWord s q (eventWord s r) else s
    pushEvent s r

/-- End the frame for its raisings: deliver each, then events without a lasting condition read STATUS 0 (R361).
A loss of Drift words raised by these deliveries (event 229) is delivered last. -/
def flushEvents (s : State) : State :=
  let due := s.ev.now.filter (fun r => decide (r.frame ≤ s.frame))
  let s := due.foldl deliver s
  let late := s.ev.now.filter (fun r => decide (r.frame ≤ s.frame) && !due.any (fun x => x.event == r.event))
  let s := late.foldl deliver s
  let gone := s.ev.now.filter (fun r => decide (r.frame ≤ s.frame))
  let s := { s with ev := { s.ev with now := s.ev.now.filter (fun r => !decide (r.frame ≤ s.frame)) } }
  gone.foldl
    (fun s r =>
      if s.ev.lasting.contains r.event || s.ev.now.any (fun x => x.event == r.event) then s
      else setO s (Obj.evt.status r.event) 0)
    s

end Sys2Proof.Machine
end

