-- ==== Sys2Proof/Machine/Operands.lean ====
section
/-! DEFINITION. Numbers: lane operands, rounding and saturation (R59, R60, R63, R64, R66), the level tables (R79, R80),
operand memory addressing (R70, R71) and the gain of a GAIN value (R116). -/

namespace Sys2Proof.Machine

/-! ## Rounding and saturation -/

/-- Bits [23:0] of a register as Q1.23 (R59). -/
def q23 (w : Word) : Int := signed 24 w.toNat

/-- A register that holds a 24-bit value with its sign extension (R59). -/
def ofQ23 (v : Int) : Word := BitVec.ofInt 32 (signed 24 (wrapTo 24 v))

def sat (lo hi v : Int) : Int := if v < lo then lo else if hi < v then hi else v

/-- Saturation to Q1.23. -/
def sat24 (v : Int) : Int := sat (-8388608) 8388607 v

/-- A value lies outside Q1.23. -/
def over24 (v : Int) : Bool := decide (v < -8388608 ∨ 8388607 < v)

/-- floor((v + 2^(n−1)) / 2^n), for n ≥ 1; v for n = 0: round half up (R64, R66). -/
def roundShift (v : Int) (n : Nat) : Int :=
  match n with
  | 0 => v
  | k + 1 => (v + (2 ^ k : Nat)).fdiv (2 ^ (k + 1) : Nat)

/-! ## Accumulators (R60 to R66) -/

/-- Load an accumulator: W becomes 0 and WRAP_LOST clears (R62). -/
def Acc.load (p : Int) : Acc := ⟨BitVec.ofInt 56 p, 0, false⟩

/-- Add a value: V wraps, W counts the wraps, WRAP_LOST tells that W could not (R61, R62). -/
def Acc.add (a : Acc) (p : Int) : Acc :=
  let t := a.v.toInt + p
  let v := BitVec.ofInt 56 t
  if 36028797018963967 < t then
    if a.lost then { a with v := v } else if a.w = 7 then { a with v := v, lost := true } else { a with v := v, w := a.w + 1 }
  else if t < -36028797018963968 then
    if a.lost then { a with v := v } else if a.w = -8 then { a with v := v, lost := true } else { a with v := v, w := a.w - 1 }
  else { a with v := v }

/-- The true sum T = V + W × 2^56. -/
def Acc.sum (a : Acc) : Int := a.v.toInt + a.w * 72057594037927936

/-- What an extraction recorded: nothing, a wrap (161), a lost count (162) or a saturation (163). -/
inductive Seen where
  | none
  | wrap
  | lost
  | sat
  deriving DecidableEq, Repr

/-- Extraction by accumulator state (Table 3.2): `f` computes from V, `lo` and `hi` bound the result. -/
def Acc.extract (a : Acc) (f : Int → Int) (lo hi : Int) : Int × Seen :=
  if a.lost then (if a.w < 0 then lo else hi, .lost)
  else if a.w ≠ 0 then (if a.w < 0 then lo else hi, .wrap)
  else
    let q := f a.v.toInt
    (sat lo hi q, if q < lo ∨ hi < q then .sat else .none)

/-- EXT with field SHIFT + 9 (R64). -/
def Acc.ext (a : Acc) (field : Nat) : Int × Seen := a.extract (fun t => roundShift t (32 - field)) (-8388608) 8388607

/-- EXW with scale 2^−s (R66). -/
def Acc.exw (a : Acc) (s : Nat) : Int × Seen := a.extract (fun t => roundShift t s) (-140737488355328) 140737488355327

/-! ## Levels (R79, R80) -/

/-- t[k] = round(2^18 × log2(1 + k/64)) (R79). -/
def log2Table : List Int :=
  [0, 5864, 11638, 17325, 22928, 28449, 33891, 39255, 44545, 49761, 54907, 59983, 64993]
  ++ [69936, 74816, 79634, 84392, 89090, 93730, 98314, 102844, 107319, 111743, 116115, 120437, 124711]
  ++ [128936, 133115, 137249, 141337, 145382, 149384, 153344, 157264, 161142, 164982, 168783, 172546, 176272]
  ++ [179962, 183616, 187235, 190820, 194371, 197889, 201375, 204829, 208251, 211643, 215005, 218337, 221640]
  ++ [224915, 228161, 231380, 234571, 237736, 240874, 243987, 247075, 250137, 253175, 256188, 259178, 262144]

/-- e[k] = round(2^22 × 2^(k/64)) (R80). -/
def exp2Table : List Int :=
  [4194304, 4239977, 4286147, 4332820, 4380002, 4427697, 4475911, 4524651, 4573921, 4623728, 4674077, 4724974, 4776426]
  ++ [4828438, 4881016, 4934167, 4987896, 5042211, 5097117, 5152621, 5208729, 5265449, 5322786, 5380747, 5439339, 5498570]
  ++ [5558445, 5618973, 5680159, 5742012, 5804539, 5867746, 5931642, 5996233, 6061528, 6127533, 6194258, 6261709, 6329894]
  ++ [6398822, 6468501, 6538938, 6610143, 6682122, 6754886, 6828442, 6902799, 6977965, 7053950, 7130763, 7208412, 7286906]
  ++ [7366255, 7446469, 7527555, 7609525, 7692387, 7776152, 7860829, 7946428, 8032959, 8120432, 8208857, 8298246, 8388608]

/-- LOG2 of a Q1.23 value (R79). -/
def log2Level (x : Int) : Int :=
  let v := x.natAbs
  if v = 0 then -8388608
  else if v = 8388608 then 0
  else
    let e := Nat.log2 v
    let f := v * 2 ^ (22 - e) % 4194304
    let k := f / 65536
    let r := f % 65536
    let t (i : Nat) : Int := log2Table.getD i 0
    let l := t k + ((t (k + 1) - t k) * r + 32768).fdiv 65536
    ((e : Int) - 23) * 262144 + l

/-- EXP2 of a Q1.23 value (R80). -/
def exp2Level (u : Int) : Int :=
  let n := u.fdiv 262144
  let g := (u % 262144).toNat
  let k := g / 4096
  let r := g % 4096
  let e (i : Nat) : Int := exp2Table.getD i 0
  let m := e k + ((e (k + 1) - e k) * r + 2048).fdiv 4096
  if -1 ≤ n then min (m * (2 ^ (n + 1).toNat : Nat)) 8388607
  else (m + (2 ^ (-n - 2).toNat : Nat)).fdiv (2 ^ (-n - 1).toNat : Nat)

/-! ## Addressing (R70, R71) -/

/-- The low b bits of o in reverse order. -/
def bitRev (b o : Nat) : Nat := (List.range b).foldl (fun a i => if o.testBit i then a + 2 ^ (b - 1 - i) else a) 0

/-- Step an address register by n under its M register (R71). -/
def stepP (p : BitVec 15) (m : Word) (n : Int) : BitVec 15 :=
  let base : Int := ((m >>> 15) &&& 0x7FFF).toNat
  let len := (m &&& 0x7FFF).toNat
  let o := ((p.toNat : Int) - base) % 32768
  let linear := BitVec.ofInt 15 ((p.toNat : Int) + n)
  match (m >>> 30).toNat with
  | 1 => if len = 0 then linear else BitVec.ofInt 15 (base + (o + n) % len)
  | 2 =>
    let b := if len ≤ 1 then 0 else Nat.log2 len
    let w := 2 ^ b
    BitVec.ofInt 15 (base + bitRev b (((bitRev b (o % w).toNat : Nat) + n) % w).toNat)
  | _ => linear

/-- Address used by a slot, and the address registers afterwards (Table 3.5); `unit` is 8 for a vector access. -/
def slotAddress (a : Addrs) (ap : Fin 8) (am : Fin 4) (unit : Int) : Nat × Addrs :=
  let p := a.p[ap]
  let n := a.n[ap].toInt
  match am with
  | 0 => (p.toNat, a)
  | 1 => (p.toNat, { a with p := a.p.set ap (stepP p a.m[ap] n) })
  | 2 => ((BitVec.ofInt 15 ((p.toNat : Int) + n)).toNat, a)
  | 3 => (p.toNat, { a with p := a.p.set ap (stepP p a.m[ap] unit) })

/-! ## Gains -/

/-- The largest number of at most `bits` bits above `acc` that meets a downward-closed test. -/
def searchMax (ok : Nat → Bool) : Nat → Nat → Nat
  | 0, acc => acc
  | b + 1, acc => if ok (acc + 2 ^ b) then searchMax ok b (acc + 2 ^ b) else searchMax ok b acc

/-- round(2^23 × 10^(G / 2000)), exactly: the largest g with (2g − 1)^2000 ≤ 2^48000 × 10^G. -/
def tenPower (g : Int) : Nat :=
  if 0 ≤ g then searchMax (fun x => decide ((2 * x - 1) ^ 2000 ≤ 2 ^ 48000 * 10 ^ g.toNat)) 28 0
  else searchMax (fun x => decide ((2 * x - 1) ^ 2000 * 10 ^ (-g).toNat ≤ 2 ^ 48000)) 28 0

/-- The linear gain of a GAIN value: −32,768 mutes (R116). -/
def linearGain (g : Int) : Int := if g = -32768 then 0 else tenPower g

end Sys2Proof.Machine
end

