-- ==== Sys2Proof/Machine/Wire.lean ====
section
/-! DEFINITION. The wire of a Braid link: blocks, bit order and scrambler (R216), the places of markers and pilots (R217), BIP and
PRBS31 (R219, R220), the framing of messages (R223), the transmitter's choice among the classes (R224), and what each lane carries. -/

namespace Sys2Proof

/-! ## Blocks (R216) -/

/-- Byte i of a block's payload. -/
def LinkBlock.byte (b : LinkBlock) (i : Nat) : Nat := b.payload.toNat / 2 ^ (8 * (7 - i)) % 256

/-- Bytes from `off`, as one big-endian number (R8). -/
def LinkBlock.field (b : LinkBlock) (off n : Nat) : Nat := b.payload.toNat / 2 ^ (8 * (8 - off - n)) % 2 ^ (8 * n)

/-- A data block. -/
def LinkBlock.isData (b : LinkBlock) : Bool := b.hdr == 1

/-- A control block of a BTYPE. -/
def LinkBlock.isType (b : LinkBlock) (t : Nat) : Bool := b.hdr == 2 && b.byte 0 == t

/-- The header is 01b or 10b. -/
def LinkBlock.headerOk (b : LinkBlock) : Bool := b.hdr == 1 || b.hdr == 2

/-- A data block, or a control block with a BTYPE of Table 10.2. -/
def LinkBlock.valid (b : LinkBlock) : Bool := b.isData || [0x1E, 0x2D, 0x4B, 0x78, 0x87].any b.isType

/-! ## Framing (R223, Table 10.4) -/

namespace BraidFrame

/-- The START block; a frame without blocks has none, and this one is invalid. -/
def start (f : BraidFrame) : LinkBlock := f.blocks.headD ⟨0, 0⟩

/-- The last block: the END, or the START that broke the message off. -/
def last (f : BraidFrame) : LinkBlock := f.blocks.getLastD ⟨0, 0⟩

/-- The blocks between them. -/
def body (f : BraidFrame) : List LinkBlock := (f.blocks.drop 1).dropLast

def cls (f : BraidFrame) : Nat := f.start.byte 1 / 64
def length (f : BraidFrame) : Nat := f.start.field 2 2
def msgSeq (f : BraidFrame) : Nat := f.start.field 4 2

/-- CRC of the END block. -/
def crc (f : BraidFrame) : Nat := f.last.field 1 4

/-- The data blocks. -/
def data (f : BraidFrame) : List LinkBlock := f.body.filter LinkBlock.isData

end BraidFrame

end Sys2Proof

namespace Sys2Proof.Machine

/-- The message bytes: those of the data blocks, without the padding. -/
def frameBytes (f : BraidFrame) : List Byte :=
  (f.data.flatMap (fun b => natBE b.payload.toNat 8)).take f.length

/-- A START of a class and length (Table 10.4): reserved bits 0, class 0 to 2, length 1 to 16,384. -/
def startOk (f : BraidFrame) : Bool :=
  f.start.isType 0x78 && decide (f.cls < 3) && f.start.byte 1 % 64 == 0 && f.start.field 6 2 == 0
    && decide (0 < f.length) && decide (f.length ≤ 16384)

/-- The blocks inside are valid, as many data blocks as LENGTH implies, an END follows, and its CRC is right (R225). -/
def blocksOk (f : BraidFrame) : Bool :=
  f.body.all LinkBlock.valid && f.data.length == (f.length + 7) / 8 && f.last.isType 0x87 && f.last.field 5 3 == 0
    && crc32 (frameBytes f) == f.crc

/-- A block of a header and eight bytes. -/
def mkBlock (hdr : BitVec 2) (b : List Byte) : LinkBlock := ⟨hdr, BitVec.ofNat 64 (beNat b)⟩

/-- Message bytes as data blocks, the last one padded with 00h. -/
def dataBlocks (b : List Byte) : List LinkBlock :=
  (List.range ((b.length + 7) / 8)).map (fun i =>
    let x := (b.drop (8 * i)).take 8
    mkBlock 1 (x ++ List.replicate (8 - x.length) 0x00))

/-- The blocks of a message: START, data blocks, END (R223). -/
def frameBlocks (cls seq : Nat) (b : List Byte) : List LinkBlock :=
  mkBlock 2 ([0x78] ++ natBE (cls * 64) 1 ++ natBE b.length 2 ++ natBE seq 2 ++ [0x00, 0x00])
    :: dataBlocks b ++ [mkBlock 2 ([0x87] ++ natBE (crc32 b) 4 ++ [0x00, 0x00, 0x00])]

/-- IDLE (Table 10.2). -/
def idleBlock : LinkBlock := mkBlock 2 [0x1E, 0x00, 0x00, 0x00, 0x00, 0x00, 0x00, 0x00]

/-! ## Bits and the scrambler (R216) -/

/-- The low n bits of a number, the highest first. -/
def bitsOf (v : Nat) : Nat → List Bool
  | 0 => []
  | n + 1 => v.testBit n :: bitsOf v n

def ofBits (l : List Bool) : Nat := l.foldl (fun a b => 2 * a + (if b then 1 else 0)) 0

/-- A block as it goes on the wire: its header as written, then byte 0 to byte 7, each most significant bit first. -/
def wireBits (b : LinkBlock) : List Bool := bitsOf b.hdr.toNat 2 ++ bitsOf b.payload.toNat 64

/-- What a bit is combined with: the scrambled bits 39 and 58 places before it. -/
def scrambleTap (st : BitVec 58) : Bool := st.getLsbD 38 != st.getLsbD 57

/-- The last 58 scrambled bits, the newest in bit 0. -/
def scramblePush (st : BitVec 58) (b : Bool) : BitVec 58 := st <<< 1 ||| (if b then 1 else 0)

/-- The scrambler x^58 + x^39 + 1, from the 58 scrambled bits before. -/
def scramble : BitVec 58 → List Bool → List Bool
  | _, [] => []
  | st, b :: bs =>
    let c := b != scrambleTap st
    c :: scramble (scramblePush st c) bs

/-- The descrambler: it needs the 58 bits received before, and no other state. -/
def descramble : BitVec 58 → List Bool → List Bool
  | _, [] => []
  | st, c :: cs => (c != scrambleTap st) :: descramble (scramblePush st c) cs

/-- A payload received after `before`, descrambled. -/
def descrambled (before : BitVec 58) (payload : BitVec 64) : BitVec 64 :=
  BitVec.ofNat 64 (ofBits (descramble before (bitsOf payload.toNat 64)))

/-! ## Markers and pilots (R217 to R220) -/

/-- The block at a count B is a marker, a pilot, or neither. -/
def isMarkerAt (b : Nat) : Bool := b % 16384 == 16383
def isPilotAt (b : Nat) : Bool := b % 1024 == 1023 && !isMarkerAt b

/-- Markers and pilots among the blocks counted 0 to B − 1. -/
def overheadBefore (b : Nat) : Nat := b / 1024

/-- Output bits of x^31 + x^28 + 1 from a state of 31 bits, the newest in bit 0 (PRBS31). -/
def prbs31 (st : Nat) : Nat → List Bool
  | 0 => []
  | n + 1 =>
    let b := st.testBit 30 != st.testBit 27
    b :: prbs31 (2 * st % 2 ^ 31 + (if b then 1 else 0)) n

/-- Bits 64 k to 64 k + 63 of a PRBS31 sequence as a payload, the first in bit 63. -/
def prbsBlock (seed k : Nat) : BitVec 64 := BitVec.ofNat 64 (ofBits ((prbs31 seed (64 * (k + 1))).drop (64 * k)))

/-- The 64 bits of pilot i, the generator being set to all ones after the marker (R220). -/
def pilotBits (i : Nat) : BitVec 64 := prbsBlock (2 ^ 31 - 1) (i - 1)

/-- Number of bits set. -/
def popCount (w : BitVec 64) : Nat := (List.range 64).countP (fun i => w.getLsbD i)

/-- BIP-8 over payloads as they are on the wire: bit j is the parity of the bits k with k mod 8 = j, from the first bit sent (R219). -/
def bip8 (l : List LinkBlock) : Nat :=
  let x := l.foldl (fun a b => a ^^^ b.payload) 0
  (List.range 8).foldl (fun a j =>
    a + (if (List.range 8).foldl (fun p i => p != x.getLsbD (63 - 8 * i - j)) false then 2 ^ j else 0)) 0

/-- A MARKER (Table 10.3): sender's link, physical lane, whether it carries a copy, the logical lane carried, BIP and count. -/
def markerBlock (link lane : Nat) (copy : Bool) (carried : Option Nat) (bip count : Nat) : LinkBlock :=
  mkBlock 2 ([0x4B] ++ natBE (16 * link + lane) 1 ++ natBE ((if copy then 128 else 0) + carried.getD 15) 1 ++ natBE bip 1
    ++ natBE count 4)

/-! ## The link stream of a frame (R222, R224) -/

/-- Send n blocks of a backlog: what is sent, and what is left. At each place the highest class with a block left sends its next, so a
START of a higher class nests inside an open message of a lower one, and a class has one message open at most. -/
def advance (q : List (List LinkBlock)) (n : Nat) : List LinkBlock × List (List LinkBlock) :=
  q.foldl (fun a c => (a.1 ++ c.take (n - a.1.length), a.2 ++ [c.drop (n - a.1.length)])) ([], [])

/-- A message joins the backlog of its class. -/
def enqueue (q : List (List LinkBlock)) (m : Handed) : List (List LinkBlock) := q.set m.cls (q.getD m.cls [] ++ m.blocks)

/-- The link stream from place `from` to its end, messages joining at their places: the runs sent and the backlog left. -/
def linkStream (size : Nat) : Nat → List (List LinkBlock) → List Handed → List (Nat × List LinkBlock) × List (List LinkBlock)
  | at', q, [] =>
    let r := advance q (size - at')
    ([(at', r.1)], r.2)
  | at', q, m :: ms =>
    let upto := max at' (min m.place size)
    let r := advance q (upto - at')
    let rest := linkStream size upto (enqueue r.2 m) ms
    ((at', r.1) :: rest.1, rest.2)

/-- The block at a place of a stream: IDLE where no run lies. -/
def streamBlock (runs : List (Nat × List LinkBlock)) (place : Nat) : LinkBlock :=
  match runs.find? (fun r => decide (r.1 ≤ place ∧ place < r.1 + r.2.length)) with
  | some r => r.2.getD (place - r.1) idleBlock
  | none => idleBlock

/-! ## What a lane carries (R216, R217, R229) -/

/-- Positions of a frame that carry neither marker nor pilot, before position p. -/
def freeBefore (first p : Nat) : Nat := p - (overheadBefore (first + p) - overheadBefore first)

/-- Training data blocks of a lane counted before B: neither marker, pilot nor TRAIN. TRAIN takes B mod 16 = 15, where the markers and
pilots also lie. -/
def trainingBefore (b : Nat) : Nat := b - b / 16

/-- The block a physical lane sends at position p, before scrambling; a marker's BIP is still 0 (R217, R222, R229). -/
def laneBlock (link lane : Nat) (f : LaneFrame) (p : Nat) : LinkBlock :=
  let b := f.first + p
  let carried := f.carried.getD lane none
  if isMarkerAt b then markerBlock link lane (f.copy && lane == 8) carried 0 (b / 16384 % 2 ^ 32)
  else if isPilotAt b then ⟨2, pilotBits (b % 16384 / 1024 + 1)⟩
  else if f.training.getD lane false then
    if b % 16 = 15 then ⟨2, f.train.getD lane 0⟩ else ⟨1, prbsBlock (Config.trainingSeed link lane) (trainingBefore b)⟩
  else
    match carried with
    | some k => streamBlock f.runs (f.width * freeBefore f.first p + k)
    | none => idleBlock

/-- A lane's blocks, each told whether it is a marker, as they go on the wire, from the 58 bits before and the payloads sent since the last marker: every payload but a
marker's scrambled, and each marker with its BIP (R216, R219). -/
def wireLane : BitVec 58 → List LinkBlock → List (Bool × LinkBlock) → List LinkBlock
  | _, _, [] => []
  | st, since, (marker, b) :: bs =>
    if marker then ⟨b.hdr, b.payload ||| BitVec.ofNat 64 (bip8 since * 2 ^ 32)⟩ :: wireLane st [] bs
    else
      let bits := scramble st (bitsOf b.payload.toNat 64)
      let c : LinkBlock := ⟨b.hdr, BitVec.ofNat 64 (ofBits bits)⟩
      c :: wireLane (bits.foldl scramblePush st) (c :: since) bs

/-- A lane's frame on the wire. -/
def laneWire (link lane : Nat) (f : LaneFrame) (st : BitVec 58) (since : List LinkBlock) : List LinkBlock :=
  wireLane st since ((List.range f.length).map (fun p => (isMarkerAt (f.first + p), laneBlock link lane f p)))

/-! ## The receiver's side of an interval (R219, R221, R228) -/

/-- Invalid headers. -/
def badHeaders (l : List LinkBlock) : Nat := l.countP (fun b => !b.headerOk)

/-- Blocks of an interval that adaptation uses: its data blocks and its pilots, 1,024 × i after the marker. -/
def qualifying (l : List LinkBlock) : Nat := l.countP LinkBlock.isData + min 15 (l.length / 1024)

end Sys2Proof.Machine
end

