-- ==== Sys2Proof/Machine/Braid.lean ====
section
/-! DEFINITION. Braid links: messages and their discard (R223 to R226), equalisation (R227, R228), training (R229 to R232),
sparing (R233 to R236), markers and pilots (R219 to R222). -/

namespace Sys2Proof.Machine

def linkOf (s : State) (l : Nat) : LinkSt := Sparse.get (fun _ => LinkSt.idle) s.braid.links l

def setLink (s : State) (l : Nat) (v : LinkSt) : State :=
  { s with braid := { s.braid with links := Sparse.put (fun _ => LinkSt.idle) s.braid.links l v } }

/-- The element of a lane in 3010h (R238). -/
def laneNo (l lane : Nat) : Nat := 10 * l + lane

def laneOf (s : State) (l lane : Nat) : LaneSt := Sparse.get (fun _ => LaneSt.idle) s.braid.lanes (laneNo l lane)

def setLane (s : State) (l lane : Nat) (v : LaneSt) : State :=
  { s with braid := { s.braid with lanes := Sparse.put (fun _ => LaneSt.idle) s.braid.lanes (laneNo l lane) v } }

/-- STATE of a link (Table 10.10). -/
def linkState (s : State) (l : Nat) : Nat := natO s (Obj.link.state l)

def linkActive (s : State) (l : Nat) : Bool := linkState s l == 6

/-- D0 to D7 and SP. -/
def dataLanes : List Nat := List.range 9

def laneRole (s : State) (l lane : Nat) : Nat := natO s (Obj.lane.role (laneNo l lane))
def laneLocked (s : State) (l lane : Nat) : Bool := getO s (Obj.lane.locked (laneNo l lane)) == 1

/-- A lasting condition is still present somewhere, or is found absent (R361). -/
def settle (s : State) (n : Nat) (present : Bool) : State := if present then s else clearCondition s n

/-! ## Messages (R223 to R226) -/

/-- Replace an entry of a list indexed by class. -/
def perClass {α : Type} (l : List α) (c : Nat) (v : α) : List α := l.set c v

/-- The messages handed over in this frame with a further one: TIMING, the isochronous class of BL2 and BL3, is ready at position 0
of its frame; every other at a place not before those handed earlier (R224). (DESIGN CHOICE, log entry 127.) -/
def handOver (s : State) (l cls : Nat) (blocks : List LinkBlock) : List Handed :=
  let h := (linkOf s l).handed
  if cls = 0 ∧ (l = 2 ∨ l = 3) then ⟨cls, 0, blocks⟩ :: h
  else h ++ [⟨cls, (h.getLast?.elim 0 (·.place)) + Config.readyPlace l s.frame h.length, blocks⟩]

/-- Send a Braid message of a class on an ACTIVE link: it is framed with the class's next MSG_SEQ and handed to the link (R223, R224). -/
def sendBraid (s : State) (l cls kind : Nat) (bytes : List Byte) : State :=
  if !linkActive s l then s
  else
    let v := linkOf s l
    let seq := v.txSeq.getD cls 0
    let s := setLink s l { v with
      txSeq := perClass v.txSeq cls ((seq + 1) % 65536)
      handed := handOver s l cls (frameBlocks cls seq (natBE kind 1 ++ bytes)) }
    emit s (.braid l cls seq kind bytes)

/-- A message arrives on a link: MSG_SEQ gaps are counted, a bad message is discarded (R225); of one without a sound START nothing is
known. Answers whether it is delivered; nothing arrives on a link that is not ACTIVE. (DEDUCED, log entry 44.) -/
def receive (s : State) (f : BraidFrame) : State × Bool :=
  let l := f.link.val
  if !linkActive s l || !takesWork s (19 + l) then (s, false)
  else if !startOk f then (bumpO s (Obj.link.msgErrors l), false)
  else
    let v := linkOf s l
    let gap := match v.rxSeq.getD f.cls none with
      | none => 0
      | some q => (f.msgSeq + 131072 - q - 1) % 65536
    let s := setLink s l { v with rxSeq := perClass v.rxSeq f.cls (some (f.msgSeq % 65536)) }
    let s := if gap = 0 then s else addO s (Obj.link.msgLost l) gap
    if blocksOk f then (s, true) else (bumpO s (Obj.link.msgErrors l), false)

/-- KIND of a message: its byte 0. -/
def frameKind (f : BraidFrame) : Nat := ((frameBytes f).getD 0 0).toNat

/-- A big-endian field of message bytes at an offset. -/
def bytesField (b : List Byte) (off n : Nat) : Nat := beNat ((b.drop off).take n)

/-- A big-endian field of a message at a byte offset. -/
def msgField (f : BraidFrame) (off n : Nat) : Nat := bytesField (frameBytes f) off n

/-- Do `act` with a delivered message of a kind; a message of another kind is none of this protocol. -/
def onMessage (s : State) (f : BraidFrame) (kind : Nat) (act : State → State) : State :=
  let r := receive s f
  if r.2 && frameKind f == kind then act r.1 else r.1

/-! ## Leaving ACTIVE, failing, starting (R226, R229, R232) -/

/-- Some link has left ACTIVE and not returned. -/
def anyLinkDown (s : State) : Bool := (List.range 6).any (fun l => (linkOf s l).down)

/-- The link leaves its state: sparing is abandoned, messages in flight are discarded, widths read 0 (R226, R234). -/
def dropLink (s : State) (l state : Nat) : State :=
  let was := linkActive s l
  let v := linkOf s l
  let s := setLink s l { v with
    count := none, backlog := [[], [], []], handed := [], rxSpare := none, txSpare := none, rxSeq := [none, none, none]
    width := 0, spareLane := none, partnerWidth := 0
    partnerSpare := none, deskewed := false, partnerDeskew := false, down := v.down || was }
  let s := setMany s [(Obj.link.state l, state), (Obj.link.txWidth l, 0), (Obj.link.rxWidth l, 0),
    (Obj.link.txSpareFor l, 255), (Obj.link.rxSpareFor l, 255)]
  let s := dataLanes.foldl
    (fun s i => setMany s [(Obj.lane.role (laneNo l i), 5), (Obj.lane.logical (laneNo l i), 255)]) s
  if was then raiseLasting s 96 l else s

/-- An attempt begins: CLOCK_LOCK is entered, with WIDTH and MIN_WIDTH as they stand (R229, R232, R238). -/
def startAttempt (s : State) (l : Nat) : State :=
  let s := setLink s l { linkOf s l with latched := (natO s (Obj.link.width l), natO s (Obj.link.minWidth l)) }
  let s := dataLanes.foldl
    (fun s i =>
      let v := laneOf s l i
      let s := setLane s l i { v with
        lastCount := none, agreed := false, tuned := false, partnerReady := false, bipArmed := false
        lastReq := none, reqId := 0, asked := (0, 0), waiting := false, status := 0, echoed := 0, training := false }
      setO s (Obj.lane.locked (laneNo l i)) 0) s
  setMany (bumpO s (Obj.link.attempts l)) [(Obj.link.state l, 2), (Obj.link.backoffMs l, 0)]

/-- Back-off after the n-th failure in a row, n from 4: 100, 200, 400, 800, then 1,000 ms (R232). -/
def backoffMs (n : Nat) : Nat := min (100 * 2 ^ (n - 4)) 1000

/-- An attempt fails in a state (or 8 for the 50 ms limit): three immediate retries, then back-offs with event 97 (R232). -/
def failAttempt (s : State) (l code : Nat) : State :=
  let s := setO (bumpO s (Obj.link.fails l)) (Obj.link.lastFail l) code
  let n := (linkOf s l).fails + 1
  let s := dropLink s l 1
  let s := setLink s l { linkOf s l with fails := n }
  if n ≤ 3 then startAttempt s l
  else raiseLasting (setMany s [(Obj.link.state l, 7), (Obj.link.backoffMs l, (backoffMs n : Nat))]) 97 l

/-- A link whose ENABLE is 1 enters DETECT, from Rising on and outside a block reset (R229). -/
def enterDetect (s : State) (l : Nat) : State :=
  if getO s (Obj.link.enable l) = 1 ∧ 2 ≤ stageOf s ∧ !inReset s (19 + l) then dropLink s l 1 else dropLink s l 0

/-- ENABLE of a link is written (R238). -/
def applyLinkEnable (s : State) (l : Nat) (v : Int) : State :=
  let s := setO s (Obj.link.enable l) v
  if v = 0 then setO (dropLink s l 0) (Obj.link.backoffMs l) 0
  else if linkState s l = 0 then enterDetect (setLink s l { linkOf s l with fails := 0 }) l
  else s

/-- RETRAIN 1: out of ACTIVE into DETECT at once (R238). -/
def retrainLink (s : State) (l : Nat) : State := if linkActive s l then enterDetect s l else s

/-! ## Width (R231) -/

/-- A lane serves: locked, and tuned where that is asked. -/
def laneGood (s : State) (l lane : Nat) (tuned : Bool) : Bool := laneLocked s l lane && (!tuned || (laneOf s l lane).tuned)

/-- The widths from the configured one downward, not below MIN_WIDTH. -/
def widths (s : State) (l : Nat) : List Nat :=
  let v := (linkOf s l).latched
  [8, 4, 2, 1].filter (fun w => decide (w ≤ v.1) && decide (v.2 ≤ w))

/-- The first width for which at most one data lane is bad, SP being good whenever one is; and the lane SP then carries. -/
def chooseWidth (s : State) (l : Nat) (tuned : Bool) : Option (Nat × Option Nat) :=
  (widths s l).findSome? fun w =>
    match (List.range w).filter (fun i => !laneGood s l i tuned) with
    | [] => some (w, none)
    | [i] => if laneGood s l 8 tuned then some (w, some i) else none
    | _ => none

/-- Physical lanes that carry a width. -/
def usedLanes (w : Nat) (spare : Option Nat) : List Nat :=
  match spare with
  | none => List.range w
  | some i => (List.range w).filter (· != i) ++ [8]

/-! ## Training (R229 to R231) -/

/-- ACTIVE is entered: widths, roles and trained values; the back-off is reset (R228, R231, R232). -/
def enterActive (s : State) (l : Nat) : State :=
  let v := linkOf s l
  let s := setLink s l { v with fails := 0, down := false, since := some s.rst.upFrames, rxSeq := [none, none, none] }
  let s := setMany s [(Obj.link.state l, 6), (Obj.link.rxWidth l, v.width), (Obj.link.txWidth l, v.partnerWidth),
    (Obj.link.rxSpareFor l, ((v.spareLane.getD 255 : Nat) : Int)), (Obj.link.txSpareFor l, ((v.partnerSpare.getD 255 : Nat) : Int)),
    (Obj.link.backoffMs l, 0)]
  let s := dataLanes.foldl
    (fun s i =>
      let a := laneOf s l i
      let s := setLane s l i { a with trained := a.eq, atBound := false, training := false }
      let (role, logical) :=
        if i = 8 then
          match v.spareLane with
          | some k => (0, k)
          | none => (if laneLocked s l 8 then 1 else 4, 255)
        else if v.spareLane = some i then (4, 255)
        else if i < v.width then (0, i)
        else (5, 255)
      setMany s [(Obj.lane.role (laneNo l i), (role : Nat)), (Obj.lane.logical (laneNo l i), (logical : Nat))]) s
  let s := settle s 96 (anyLinkDown s)
  let s := settle s 97 ((List.range 6).any (fun k => decide (4 ≤ (linkOf s k).fails)))
  settle s 98 ((List.range 54).any (fun i => (laneOf s (i / 9) (i % 9)).atBound))

/-- DESKEW is left when it has passed here and the partner shows it complete. -/
def deskewStep (s : State) (l : Nat) : State :=
  let v := linkOf s l
  if linkState s l = 5 ∧ v.deskewed ∧ v.partnerDeskew then enterActive s l else s

/-- DESKEW is entered with a width and the lane SP carries. -/
def enterDeskew (s : State) (l w : Nat) (spare : Option Nat) : State :=
  let s := setLink s l { linkOf s l with width := w, spareLane := spare, deskewed := false }
  let s := dataLanes.foldl (fun s i => setLane s l i { laneOf s l i with lastCount := none, agreed := false }) s
  setO s (Obj.link.state l) 5

/-- The partner shows RX_READY on the lanes of the width it chose, SP included. -/
def partnerTuned (s : State) (l : Nat) (needSpare : Bool) : Bool :=
  let v := linkOf s l
  v.partnerWidth != 0 && (usedLanes v.partnerWidth v.partnerSpare).all (fun i => (laneOf s l i).partnerReady)
    && (!needSpare || (laneOf s l 8).partnerReady)

/-- The width chosen for the receive direction is shown from now on, while TX_TUNE lasts (Table 10.7). -/
def showWidth (s : State) (l w : Nat) (spare : Option Nat) : State := setLink s l { linkOf s l with width := w, spareLane := spare }

/-- TX_TUNE is left when every lane of the chosen width, and SP, shows RX_READY in both directions. -/
def tuneStep (s : State) (l : Nat) : State :=
  if linkState s l != 4 then s
  else
    match chooseWidth s l false with
    | none => s
    | some (w, sp) =>
      if (usedLanes w sp).all (fun i => (laneOf s l i).tuned) && (laneOf s l 8).tuned then
        if partnerTuned s l true then enterDeskew s l w sp else showWidth s l w sp
      else s

/-- BLOCK_LOCK is left when D0 to D7 and SP are locked. -/
def lockStep (s : State) (l : Nat) : State :=
  if linkState s l = 3 ∧ dataLanes.all (laneLocked s l) then tuneStep (setO s (Obj.link.state l) 4) l else s

def execDetectPoll (link : Fin 6) (sensed : Bool) (s : State) : Ans :=
  done (if linkState s link = 1 ∧ sensed then startAttempt s link else s)

/-- The partner's FC is received, and the receive clock locks on it (R226, R229). -/
def execFcReceived (link : Fin 6) (s : State) : Ans :=
  let l := link.val
  if linkState s l = 0 then .next s
  else
    let s := setO s (Obj.lane.locked (laneNo l 9)) 1
    let s := setLink s l { linkOf s l with fcLost := false }
    let s := settle s 103 ((List.range 6).any (fun k => (linkOf s k).fcLost))
    done (match linkState s l with
      | 1 => startAttempt s l
      | 2 => lockStep (setO s (Obj.link.state l) 3) l
      | _ => s)

/-- FC is lost: counters, event 103 in any state after DETECT, and DETECT at once with three fresh retries (R226, R232). -/
def loseFc (s : State) (l : Nat) : State :=
  let st := linkState s l
  let s := if getO s (Obj.lane.locked (laneNo l 9)) = 1 then
      bumpO (bumpO (setO s (Obj.lane.locked (laneNo l 9)) 0) (Obj.link.fcLosses l)) (Obj.lane.lockLosses (laneNo l 9))
    else s
  if 2 ≤ st ∧ st ≤ 6 then
    let s := setLink s l { linkOf s l with fcLost := true, fails := 0 }
    dropLink (raiseLasting s 103 (laneNo l 9)) l 1
  else s

def execBlockLockAcquired (link : Fin 6) (lane : Fin 9) (s : State) : Ans :=
  let l := link.val
  let st := linkState s l
  if st < 2 ∨ 6 < st then .next s
  else
    let s := setO s (Obj.lane.locked (laneNo l lane)) 1
    let s := setLane s l lane { laneOf s l lane with lastCount := none, agreed := false, bipArmed := false, lockLost := false }
    let s := settle s 101 ((List.range 54).any (fun i => (laneOf s (i / 9) (i % 9)).lockLost))
    done (lockStep s l)

/-! ## Sparing at the receiver (R233, R234) -/

/-- SP is locked, idle and carries nothing. -/
def spareFree (s : State) (l : Nat) : Bool :=
  laneLocked s l 8 && laneRole s l 8 == 1 && (linkOf s l).rxSpare.isNone && natO s (Obj.link.rxSpareFor l) == 255

/-- Bytes of a sparing message behind KIND. -/
def spareBytes (logical : Nat) : List Byte := natBE logical 1 ++ [0x00, 0x00]

/-- Ask the transmitter to spare a logical lane; a second request while SP is taken is not made (R234). -/
def requestSpare (s : State) (l logical : Nat) (checks : Bool) : State :=
  if linkActive s l && spareFree s l then
    let s := setLink s l { linkOf s l with rxSpare := some ⟨logical, false, checks, true⟩ }
    sendBraid s l 1 0xF0 (spareBytes logical)
  else s

/-- A lane retrains in the background (R235). -/
def retrainLane (s : State) (l lane : Nat) : State :=
  let a := laneOf s l lane
  let s := setLane s l lane { a with tuned := false, waiting := false, lastCount := none, agreed := false, bipArmed := false }
  setMany s [(Obj.lane.role (laneNo l lane), 3), (Obj.lane.logical (laneNo l lane), 255), (Obj.lane.locked (laneNo l lane), 0)]

/-- The sparing is given up: the lane stays where it is, event 104, and SP retrains in the background (R233). -/
def cancelSpare (s : State) (l logical : Nat) : State :=
  let s := setLink s l { linkOf s l with rxSpare := none }
  let s := raise (retrainLane s l 8) 104 (laneNo l logical)
  sendBraid s l 1 0xF2 (spareBytes logical)

/-- CARRY of a marker: its logical lane, with COPY set (Table 10.3). -/
def copiesLane (m : LinkBlock) (k : Nat) : Bool := m.byte 2 == 128 + k

/-- Steps 2 to 4 of R233 at a marker of SP. -/
def spareMarker (s : State) (l : Nat) (m : LinkBlock) (clean : Bool) : State :=
  match (linkOf s l).rxSpare with
  | none => s
  | some p =>
    if !p.copying then
      if copiesLane m p.logical then
        let s := setLink s l { linkOf s l with rxSpare := some { p with copying := true, clean := true } }
        setO s (Obj.lane.role (laneNo l 8)) 2
      else sendBraid s l 1 0xF0 (spareBytes p.logical)
    else if !p.checks || (p.clean && clean && laneLocked s l 8) then
      let s := setLink s l { linkOf s l with rxSpare := none, spareLane := some p.logical }
      let s := setMany s [(Obj.link.rxSpareFor l, p.logical), (Obj.lane.role (laneNo l 8), 0), (Obj.lane.logical (laneNo l 8), p.logical)]
      let s := raise (retrainLane s l p.logical) 99 (laneNo l p.logical)
      sendBraid s l 1 0xF1 (spareBytes p.logical)
    else cancelSpare s l p.logical

/-- A data lane's logical lane, when it carries one on its own wires. -/
def carriedBy (s : State) (l lane : Nat) : Option Nat := if laneRole s l lane = 0 ∧ lane < 8 then some lane else none

/-- A lane in use has lost lock (R233 to R235): a data lane is spared without the check, or the link retrains; a sparing under way fails
with SP, and an idle spare retrains. -/
def lockLostActive (s : State) (l lane : Nat) : State :=
  match if lane = 8 then (linkOf s l).rxSpare else none with
  | some p => if p.checks then cancelSpare s l p.logical else enterDetect s l
  | none =>
    match laneRole s l lane with
    | 0 =>
      match carriedBy s l lane with
      | some k => if spareFree s l then requestSpare s l k false else enterDetect s l
      | none => enterDetect s l
    | 1 => retrainLane s l lane
    | _ => s

def loseBlockLock (s : State) (l lane invalid : Nat) : State :=
  let n := laneNo l lane
  if !laneLocked s l lane then s
  else
    let s := setO (addO (bumpO s (Obj.lane.lockLosses n)) (Obj.lane.headerErrors n) invalid) (Obj.lane.locked n) 0
    let s := setLane s l lane { laneOf s l lane with lockLost := true }
    let s := raiseLasting s 101 n
    if linkActive s l then lockLostActive s l lane else s

def execBlockLockLost (link : Fin 6) (lane : Fin 9) (invalid : Nat) (s : State) : Ans := done (loseBlockLock s link lane invalid)

/-! ## Markers: BIP, deskew, adaptation (R219, R222, R228) -/

/-- Code range of the CTLE and of DFE taps 1 to 5 (R228). -/
def eqRange (i : Nat) : Int × Int := if i = 0 then (0, 31) else if i = 1 then (-63, 63) else (-31, 31)

/-- One value after one marker interval: at most one code, within ±8 of its trained value and its range. -/
def adaptValue (i : Nat) (now trained wish : Int) : Int :=
  if now - trained = 8 ∨ now - trained = -8 then now
  else
    let r := eqRange i
    sat (max r.1 (trained - 8)) (min r.2 (trained + 8)) (now + (if 0 < wish then 1 else if wish < 0 then -1 else 0))

def adaptAll : Nat → List Int → List Int → List Int → List Int
  | _, [], _, _ => []
  | i, v :: vs, ts, ws => adaptValue i v (ts.getD 0 0) (ws.getD 0 0) :: adaptAll (i + 1) vs (ts.drop 1) (ws.drop 1)

/-- Some value stands at its ±8 bound. -/
def eqAtBound (now trained : List Int) : Bool := (now.zip trained).any (fun e => e.1 - e.2 == 8 || e.1 - e.2 == -8)

/-- Adaptation of a lane in ACTIVE over one marker interval; the first value to reach its bound raises event 98 (R228). A lane that
retrains or has failed has no trained values to keep to. -/
def adaptLane (s : State) (l lane : Nat) (m : MarkerBlock) : State :=
  if !linkActive s l || decide (qualifying m.since < 4096) || laneRole s l lane == 3 || laneRole s l lane == 4 then s
  else
    let a := laneOf s l lane
    let v := adaptAll 0 a.eq a.trained m.wish
    if eqAtBound v a.trained && !a.atBound then
      let s := setLane s l lane { a with eq := v, atBound := true }
      let s := raiseLasting (bumpO s (Obj.lane.drifts (laneNo l lane))) 98 (laneNo l lane)
      match carriedBy s l lane with
      | some k => requestSpare s l k true
      | none => s
    else setLane s l lane { a with eq := v }

/-- Two markers of lanes that arrive within half an interval belong together. -/
def together (a b : LaneSt) : Bool := decide (a.arrival ≤ b.arrival + 8192 ∧ b.arrival ≤ a.arrival + 8192)

/-- Deskew at a marker of a used lane in DESKEW (R222): two consecutive markers on every lane used, counts in agreement, skew at
most 32. -/
def deskewMarker (s : State) (l lane : Nat) : State :=
  let v := linkOf s l
  let used := usedLanes v.width v.spareLane
  if linkState s l != 5 || v.deskewed || !used.contains lane then s
  else
    let here := laneOf s l lane
    let clash := used.any fun i =>
      let a := laneOf s l i
      a.agreed && here.agreed && a.lastCount != here.lastCount && together a here
    if clash then failAttempt (raise s 102 l) l 5
    else if used.all (fun i => (laneOf s l i).agreed && (laneOf s l i).lastCount == here.lastCount) then
      let first := used.foldl (fun a i => min a (laneOf s l i).arrival) here.arrival
      let skew (i : Nat) : Nat := (laneOf s l i).arrival - first
      let most := used.foldl (fun a i => max a (skew i)) 0
      if 32 < most then failAttempt (raise s 102 l) l 5
      else
        let s := used.foldl (fun s i => setO s (Obj.lane.skew (laneNo l i)) (skew i : Nat)) s
        let s := setO s (Obj.link.maxSkew l) (most : Nat)
        deskewStep (setLink s l { v with deskewed := true }) l
    else s

/-- The block at a marker position is a MARKER with its reserved bits 0 (Table 10.3, R9). -/
def markerOk (b : LinkBlock) : Bool := b.isType 0x4B && b.byte 2 / 16 % 8 == 0

/-- A marker of a locked lane: the BIP of the interval, the partner's link, the count, deskew, adaptation, sparing. Any other block at
its place breaks the run of markers. -/
def takeMarker (s : State) (l lane : Nat) (m : MarkerBlock) : State :=
  let n := laneNo l lane
  let a := laneOf s l lane
  let bipBad := a.bipArmed && m.block.byte 3 != bip8 m.since
  let bad := badHeaders m.since
  let s := if bad = 0 then s else addO s (Obj.lane.headerErrors n) bad
  if !markerOk m.block then setLane s l lane { a with bipArmed := false, agreed := false, lastCount := none }
  else
    let count := m.block.field 4 4
    let s := if bipBad then bumpO s (Obj.lane.bipErrors n) else s
    let s := setO s (Obj.link.partnerLink l) (m.block.byte 1 / 16 : Nat)
    let s := setLane s l lane { a with
      bipArmed := true
      agreed := (match a.lastCount with
        | some c => (c + 1) % 4294967296 == count
        | none => false)
      lastCount := some count
      arrival := m.arrival }
    let s := adaptLane (deskewMarker s l lane) l lane m
    if lane = 8 then spareMarker s l m.block (!bipBad && bad == 0) else s

def execMarker (link : Fin 6) (lane : Fin 9) (m : MarkerBlock) (s : State) : Ans :=
  done (if laneLocked s link lane then takeMarker s link lane m else s)

/-! ## Pilots (R220, R236) -/

/-- A pilot as it is on the wire, behind the 58 bits received before it: descrambled and compared (R216, R220). -/
def execPilot (link : Fin 6) (lane : Fin 9) (position : Fin 16) (bits : PilotBits) (s : State) : Ans :=
  let n := laneNo link lane
  if !laneLocked s link lane || position.val == 0 then .next s
  else
    let s := addO s (Obj.lane.pilotBits n) 64
    done (addO s (Obj.lane.pilotErrors n) (popCount (descrambled bits.before bits.payload ^^^ pilotBits position)))

def execBerSecond (link : Fin 6) (lane : Fin 9) (s : State) : Ans :=
  let l := link.val
  let n := laneNo l lane
  let a := laneOf s l lane
  let now := natO s (Obj.lane.pilotErrors n)
  let s := setLane s l lane { a with pilotBase := now }
  if natO s (Obj.link.berThreshold l) < now - a.pilotBase then
    let s := raise s 100 n
    match carriedBy s l lane with
    | some k => done (requestSpare s l k true)
    | none => done s
  else done s

/-! ## Transmit requests (R227, R230) -/

/-- One tap's request: its new code, and the status reported (1 applied, 2 at limit, 0 none). -/
def tapStep (req code preset : Nat) (ok : Nat → Bool) : Nat × Nat :=
  match req with
  | 1 => if ok (code + 1) then (code + 1, 1) else (code, 2)
  | 2 => if code ≠ 0 ∧ ok (code - 1) then (code - 1, 1) else (code, 2)
  | 3 => if ok preset then (preset, 1) else (code, 2)
  | _ => (code, 0)

/-- PRE, POST and the statuses after a request (R230): PRE 0 to 15, POST 0 to 24, MAIN 24 or more. A preset of both taps is
one step. -/
def tuneTaps (reqPre reqPost pre post : Nat) : Nat × Nat × Nat × Nat :=
  if reqPre = 3 ∧ reqPost = 3 then (4, 8, 1, 1)
  else
    let a := tapStep reqPre pre 4 (fun p => decide (p ≤ 15 ∧ p + post ≤ 39))
    let b := tapStep reqPost post 8 (fun p => decide (p ≤ 24 ∧ a.1 + p ≤ 39))
    (a.1, b.1, a.2, b.2)

/-- STATE field of this end's TRAIN blocks (Table 10.7). -/
def trainState (s : State) (l : Nat) : Nat :=
  match linkState s l with
  | 6 => 6
  | 5 => if (linkOf s l).deskewed then 5 else 4
  | st => st - 1

/-- REQUEST of this receiver for a lane (Table 10.7). -/
def requestByte (a : LaneSt) : Nat := a.asked.1 * 64 + a.asked.2 * 16 + a.reqId

/-- Payload of the TRAIN blocks a lane now sends (Table 10.7). -/
def trainPayload (s : State) (l lane : Nat) : BitVec 64 :=
  let v := linkOf s l
  let a := laneOf s l lane
  (mkBlock 2 ([0x2D] ++ natBE (trainState s l * 32 + (if a.tuned then 16 else 0) + lane) 1 ++ natBE (requestByte a) 1
    ++ natBE a.status 1 ++ natBE (l * 16 + v.width) 1 ++ natBE (v.spareLane.getD 15) 1 ++ [0x00, 0x00])).payload

/-- Bytes of a TUNE message for a lane (Table 10.8). -/
def tuneBytes (s : State) (l lane : Nat) : List Byte :=
  natBE lane 1 ++ natBE (requestByte (laneOf s l lane)) 1 ++ natBE (laneOf s l lane).status 1

/-- What this end says of a lane from now on: in its TRAIN blocks, in ACTIVE in a TUNE message (R230, R235). -/
def tellLane (s : State) (l lane : Nat) : State :=
  if linkActive s l then sendBraid s l 1 0xF3 (tuneBytes s l lane) else emit s (.train l lane (trainPayload s l lane))

/-- A REQUEST for the transmit lane: applied and answered unless its REQ_ID is unchanged (R230). -/
def applyRequest (s : State) (l lane req : Nat) : State :=
  let a := laneOf s l lane
  if a.lastReq = some (req % 16) then s
  else
    let n := laneNo l lane
    let r := tuneTaps (req / 64) (req / 16 % 4) (natO s (Obj.lane.txPre n)) (natO s (Obj.lane.txPost n))
    let s := setLane s l lane { a with lastReq := some (req % 16), status := r.2.2.1 * 64 + r.2.2.2 * 16 + req % 16 }
    tellLane (setMany s [(Obj.lane.txPre n, r.1), (Obj.lane.txPost n, r.2.1)]) l lane

/-- A STATUS for this receiver's lane: the echo of its last request ends the wait (R230). -/
def takeEcho (s : State) (l lane status : Nat) : State :=
  let a := laneOf s l lane
  if a.waiting ∧ status % 16 = a.reqId then setLane s l lane { a with waiting := false, echoed := status } else s

/-- This receiver asks for a step under a new REQ_ID, unless it is satisfied or awaits an echo (R230). -/
def askStep (s : State) (l : Nat) (t : TrainBlock) : State :=
  let a := laneOf s l t.lane
  if t.satisfied ∨ a.waiting ∨ (t.ask.1 = 0 ∧ t.ask.2 = 0) then s
  else
    tellLane (setLane s l t.lane { a with reqId := (a.reqId + 1) % 16, asked := (t.ask.1.val, t.ask.2.val), waiting := true }) l t.lane

/-- A TRAIN payload with every field at a code of Table 10.7 and its reserved bytes 0 (R9). (DESIGN CHOICE, log entry 129.) -/
def trainOk (t : TrainBlock) : Bool :=
  let b := t.block
  b.isType 0x2D && decide (1 ≤ b.byte 1 / 32 ∧ b.byte 1 / 32 ≤ 6) && b.byte 1 % 16 == t.lane.val
    && b.byte 3 / 64 != 3 && b.byte 3 / 16 % 4 != 3 && [0, 1, 2, 4, 8].contains (b.byte 4 % 16)
    && (decide (b.byte 5 < 8) || b.byte 5 == 15) && b.field 6 2 == 0

/-- The lane's own side of a TRAIN block: the partner's RX_READY; in training, the values of the equaliser and the verdict on them. -/
def trainLane (s : State) (l : Nat) (t : TrainBlock) (training : Bool) : State :=
  let a := laneOf s l t.lane
  let held := t.eq.mapIdx (fun i v => sat (eqRange i).1 (eqRange i).2 v)
  setLane s l t.lane { a with
    partnerReady := t.block.byte 1 / 16 % 2 == 1
    tuned := a.tuned || (training && t.satisfied)
    eq := if training then held else a.eq }

/-- The link's side of a TRAIN block: the width the partner has chosen, the lane its SP replaces, and its DESKEW. -/
def trainLink (s : State) (l : Nat) (t : TrainBlock) : State :=
  let v := linkOf s l
  let st := linkState s l
  let w := t.block.byte 4 % 16
  setLink s l { v with
    partnerWidth := if st < 6 && w != 0 then w else v.partnerWidth
    partnerSpare := if st < 6 && w != 0 then (if t.block.byte 5 < 8 then some (t.block.byte 5) else none) else v.partnerSpare
    partnerDeskew := v.partnerDeskew || (st == 5 && t.block.byte 1 / 32 == 5) }

/-- A TRAIN block of a link that trains: the requests and statuses in it, and what this end makes of its own lane (R229, R230). In ACTIVE
only a lane in background retrain is trained, and its requests travel in TUNE messages (R235). -/
def takeTrain (s : State) (l : Nat) (t : TrainBlock) : State :=
  let st := linkState s l
  let training := st == 4 || laneRole s l t.lane == 3
  let s := if st = 6 then s else takeEcho (applyRequest s l t.lane (t.block.byte 2)) l t.lane (t.block.byte 3)
  let s := trainLink (trainLane s l t training) l t
  let s := if training then askStep s l t else s
  deskewStep (tuneStep s l) l

def execTrain (link : Fin 6) (t : TrainBlock) (s : State) : Ans :=
  let st := linkState s link
  done (if 2 ≤ st ∧ st ≤ 6 ∧ trainOk t then takeTrain s link t else s)

/-- 2 ms without progress: the state fails, but BLOCK_LOCK and TX_TUNE go on with enough good lanes; in TX_TUNE the width is first shown to
the partner (Table 10.6, R231). (DESIGN CHOICE, log entry 130.) -/
def execTrainStateTimeout (link : Fin 6) (s : State) : Ans :=
  let l := link.val
  match linkState s l with
  | 2 => done (failAttempt s l 2)
  | 3 => done (if (chooseWidth s l false).isSome then tuneStep (setO s (Obj.link.state l) 4) l else failAttempt s l 3)
  | 4 =>
    match chooseWidth s l true with
    | some (w, sp) =>
      done (if partnerTuned s l false then enterDeskew s l w sp
        else if (linkOf s l).width = 0 then showWidth s l w sp
        else failAttempt s l 4)
    | none => done (failAttempt s l 4)
  | 5 => done (failAttempt s l 5)
  | _ => .next s

def execTrainAttemptTimeout (link : Fin 6) (s : State) : Ans :=
  let st := linkState s link
  done (if 2 ≤ st ∧ st ≤ 5 then failAttempt s link 8 else s)

/-- A back-off ends and an attempt starts; on an ACTIVE link its failed lanes retrain again (R232, R235). -/
def execBackoffExpiry (link : Fin 6) (s : State) : Ans :=
  let l := link.val
  match linkState s l with
  | 7 => done (startAttempt s l)
  | 6 => done (dataLanes.foldl (fun s i => if laneRole s l i = 4 then retrainLane s l i else s) s)
  | _ => done s

/-! ## Sparing at the transmitter (R233), background retrain (R235) -/

def execSpareReq (f : BraidFrame) (s : State) : Ans :=
  done (onMessage s f 0xF0 fun s =>
    let l := f.link.val
    let k := msgField f 1 1
    if (linkOf s l).txSpare.isNone && natO s (Obj.link.txSpareFor l) == 255 && decide (k < natO s (Obj.link.txWidth l)) then
      setLink s l { linkOf s l with txSpare := some ⟨k, false, true, true⟩ }
    else s)

/-- The marker position at least 1,024 blocks after the request: SP copies the logical lane from here. -/
def execSpareCopyStart (link : Fin 6) (s : State) : Ans :=
  match (linkOf s link).txSpare with
  | some p =>
    let s := setLane s link 8 { laneOf s link 8 with training := false }
    done (setLink s link { linkOf s link with txSpare := some { p with copying := true } })
  | none => .next s

/-- The transmitter moves the old lane to the training pattern. -/
def execSpareDone (f : BraidFrame) (s : State) : Ans :=
  done (onMessage s f 0xF1 fun s =>
    let l := f.link.val
    match (linkOf s l).txSpare with
    | some p => if p.copying ∧ p.logical = msgField f 1 1 then
        let s := setLane s l p.logical { laneOf s l p.logical with training := true }
        setO (setLink s l { linkOf s l with txSpare := none }) (Obj.link.txSpareFor l) p.logical
      else s
    | none => s)

/-- The copy ends, and SP runs the training pattern. -/
def execSpareCancel (f : BraidFrame) (s : State) : Ans :=
  done (onMessage s f 0xF2 fun s =>
    let l := f.link.val
    match (linkOf s l).txSpare with
    | some p => if p.logical = msgField f 1 1 then
        setLane (setLink s l { linkOf s l with txSpare := none }) l 8 { laneOf s l 8 with training := true }
      else s
    | none => s)

/-- A TUNE message: a request for the transmit lane, answered in another, and the status of this end's own last request (R235). -/
def execTune (f : BraidFrame) (s : State) : Ans :=
  done (onMessage s f 0xF3 fun s =>
    let l := f.link.val
    let lane := msgField f 1 1
    if 8 < lane then s else takeEcho (applyRequest s l lane (msgField f 2 1)) l lane (msgField f 3 1))

/-- A lane in background retrain is locked and tuned, and its markers agree in count with those of the link's lanes (R235). -/
def retrained (s : State) (l lane : Nat) : Bool :=
  let a := laneOf s l lane
  let v := linkOf s l
  laneLocked s l lane && a.tuned && a.agreed
    && (usedLanes (natO s (Obj.link.rxWidth l)) v.spareLane).all (fun i =>
      let b := laneOf s l i
      !together a b || b.lastCount == a.lastCount)

/-- A retrained lane becomes the idle spare; traffic stays where it is (R235). -/
def execLaneRetrainDone (link : Fin 6) (lane : Fin 9) (s : State) : Ans :=
  let l := link.val
  if linkActive s l ∧ laneRole s l lane = 3 ∧ retrained s l lane then
    let a := laneOf s l lane
    let s := setLane s l lane { a with trained := a.eq, atBound := false }
    let s := setO s (Obj.lane.role (laneNo l lane)) 1
    done (settle s 98 ((List.range 54).any (fun i => (laneOf s (i / 9) (i % 9)).atBound)))
  else done s

def execLaneRetrainTimeout (link : Fin 6) (lane : Fin 9) (s : State) : Ans :=
  done (if laneRole s link lane = 3 then setO s (Obj.lane.role (laneNo link lane)) 4 else s)

/-- RX_EQ: current values, then trained values (Table 10.11). -/
def rxEqBytes (s : State) (n : Nat) : List Byte :=
  let a := Sparse.get (fun _ => LaneSt.idle) s.braid.lanes n
  (a.eq ++ a.trained).map (fun v => BitVec.ofInt 8 v)

/-- UP_SECONDS: seconds since the link last entered ACTIVE, of 6,000 frames each. -/
def upSeconds (s : State) (l : Nat) : Nat :=
  match (linkOf s l).since with
  | some f => (s.rst.upFrames - f) / 6000
  | none => 0

/-- A Braid block under block reset: its lanes rest in electrical idle; the counters of pilots stand (R347, Table 14.10). -/
def resetLink (s : State) (l : Nat) : State :=
  let s := dropLink s l 0
  let s := setMany s [(Obj.link.backoffMs l, 0), (Obj.lane.locked (laneNo l 9), 0)]
  dataLanes.foldl (fun s i =>
    let base := natO s (Obj.lane.pilotErrors (laneNo l i))
    setO (setLane s l i { LaneSt.idle with pilotBase := base }) (Obj.lane.locked (laneNo l i)) 0) s

/-! ## The transmit side at a tick (R217, R218, R224) -/

/-- The logical lane a physical lane carries in the transmit direction: its own, or on SP the one it replaces or copies. -/
def txCarried (s : State) (l lane : Nat) : Option Nat :=
  let sp := natO s (Obj.link.txSpareFor l)
  if !linkActive s l then none
  else if lane < 8 then (if lane < natO s (Obj.link.txWidth l) ∧ lane ≠ sp then some lane else none)
  else if sp < 8 then some sp
  else ((linkOf s l).txSpare.filter (·.copying)).map (·.logical)

/-- Samples by which a splice or a reframe delays the tick that comes (R285, R287). -/
def tickShift (s : State) : Int :=
  ((s.conf.splice.filter (fun e => e.1 == s.frame)).map (·.2)).getD 0
    + (((s.conf.reframe.filter (fun e => e.1 == s.frame)).map (·.2)).getD 0 : Nat)

/-- Blocks of the frame that ends: 64,000, and 8,000 or 4,000 for each sample by which a splice or a reframe at this tick delays it
(R218, R285, R287). -/
def frameBlockCount (s : State) : Nat :=
  (64000 + 64000 / (frameSamples s : Nat) * tickShift s).toNat

/-- A link's lanes over the frame that ends, from B at its position 0 (R217). (DESIGN CHOICE, log entry 127.) -/
def laneFrame (s : State) (l first : Nat) : LaneFrame × List (List LinkBlock) :=
  let v := linkOf s l
  let n := frameBlockCount s
  let w := natO s (Obj.link.txWidth l)
  let r := linkStream (w * freeBefore first n) 0 v.backlog v.handed
  (⟨first, n, dataLanes.map (txCarried s l), dataLanes.map (fun i => !linkActive s l || (laneOf s l i).training),
    dataLanes.map (trainPayload s l), v.txSpare.any (·.copying), w, r.1.filter (fun x => !x.2.isEmpty)⟩, r.2)

/-- The tick of a link whose lanes are driven: what they carried goes out, and B runs on; the tick after CLOCK_LOCK is entered is the
first (R217). -/
def linkTick (s : State) (l : Nat) : State :=
  let v := linkOf s l
  let st := linkState s l
  if st < 2 ∨ 6 < st then s
  else
    match v.count with
    | none => setLink s l { v with count := some 0 }
    | some b =>
      let r := laneFrame s l b
      emit (setLink s l { v with count := some (b + r.1.length), backlog := r.2, handed := [] }) (.lanes l r.1)

/-- The tick of every link. -/
def braidTick (s : State) : State := (List.range 6).foldl linkTick s

end Sys2Proof.Machine
end

