-- ==== Sys2Proof/Machine/Flags.lean ====
section
/-! DEFINITION. Flags of a cell: predication (R78), the comparisons of CMP (Table 3.10), and the cell status word with its
first-occurrence capture (R83, Table 3.12). -/

namespace Sys2Proof.Machine

/-- The flag selected by PSEL, inverted when PINV is 1, in a lane (R78). -/
def predFlag (p : Pred) (l : Lane) : Bool := l.f[p.psel] != p.pinv

/-- The compute operation takes effect in a lane: always when PEN is 0 (R78). -/
def predTakes (p : Pred) (l : Lane) : Bool := !p.pen || predFlag p l

/-- A condition of CMP: 0 less than, 1 less or equal, 2 equal, 3 not equal (Table 3.10). -/
def compares (cond : Fin 4) (a b : Int) : Bool :=
  match cond with
  | 0 => decide (a < b)
  | 1 => decide (a ≤ b)
  | 2 => decide (a = b)
  | 3 => !decide (a = b)

/-- The bit and FIRST_KIND of an occurrence (Table 3.12). -/
def Seen.bit : Seen → Nat
  | .none => 0
  | .wrap => 30
  | .lost => 31
  | .sat => 29

def Seen.kind : Seen → Nat
  | .none => 0
  | .wrap => 1
  | .lost => 2
  | .sat => 3

/-- Record an occurrence in a status word: its SEEN bit, and while bits 31 to 29 were all 0 the FIRST fields (R83). -/
def recordSeen (st addr lane acc : Nat) (v : Seen) : Nat :=
  match v with
  | .none => st
  | v =>
    let bit := 2 ^ v.bit
    if st / 2 ^ 29 % 8 = 0 then bit + addr * 65536 + lane * 8192 + acc * 1024 + v.kind * 256
    else if st.testBit v.bit then st else st + bit

/-- A write to a status word: 1 clears bits 31 to 29; when that leaves all three 0 the FIRST fields clear too (R83). -/
def clearSeen (st v : Nat) : Nat :=
  let top := (List.range 3).foldl
    (fun a i => if st.testBit (29 + i) && !v.testBit (29 + i) then a + 2 ^ (29 + i) else a) 0
  if top = 0 then 0 else top + st % 2 ^ 29

end Sys2Proof.Machine
end

