-- ==== Sys2Proof/Machine/Dsp.lean ====
section
/-! DEFINITION. The DSP cell (R57 to R84): every compute operation, slot operation and control operation, one command
each, at one cell. A compute operation begins an instruction; slot A, slot B and the control operation follow it. -/

namespace Sys2Proof.Machine

def cellOf (s : State) (n : Nat) : Cell := Sparse.get (fun _ => Cell.zero) s.cells n

def setCell (s : State) (n : Nat) (c : Cell) : State :=
  { s with cells := Sparse.put (fun _ => Cell.zero) s.cells n c }

/-- A cell executes instructions: its cluster is neither in reset nor out of ON (R109, R357). -/
def cellRuns (s : State) (n : Nat) : Bool := !inReset s (n / 8) && natO s (Obj.pwr.state (n / 8)) == 0

/-- A cell executes its schedule: started with the frame, FRAME_END not yet reached (R73, R86). Without a program none does (R93). -/
def cellExec (s : State) (n : Nat) : Bool := cellRuns s n && (cellOf s n).active

/-- Its first instruction has been given: nothing outside the cell touches its operand memory until FRAME_END (R69). -/
def cellBusy (s : State) (n : Nat) : Bool := cellExec s n && (cellOf s n).nextPc != 0

/-- Begin an instruction: the registers as they stand are latched, the address advances (R73, R77). (DESIGN CHOICE, log entry 11.) -/
def startInstr (c : Cell) : Cell :=
  { c with pc := c.nextPc, nextPc := (c.nextPc + 1) % 4096, latch := ⟨c.lanes, none, none, none⟩ }

/-! ## Compute operations (Table 3.10) -/

/-- What an operation does in one lane: the lane after it and what it recorded. -/
abbrev LaneOp := Vector Lane 8 → Fin 8 → Lane → Lane × Seen

/-- The lanes after an operation, and what each recorded: lanes the predicate turns off change nothing (R78). -/
def runLanes (p : Pred) (f : LaneOp) (v : Vector Lane 8) : Vector (Lane × Seen) 8 :=
  Vector.ofFn (fun i => if predTakes p v[i] then f v i v[i] else (v[i], Seen.none))

/-- The events of R84 that a cell has recorded. -/
def noteSeen (c : Cell) (v : Seen) : Cell :=
  match v with
  | .none => c
  | .wrap => { c with wrapped := true }
  | .lost => { c with lostSum := true }
  | .sat => { c with saturated := true }

/-- A compute operation at a cell: lanes, status word (lowest lane first) and events noted for R84. -/
def compute (s : State) (cell : Nat) (p : Pred) (acc : Nat) (f : LaneOp) : State :=
  if !cellExec s cell then s
  else
    let c := startInstr (cellOf s cell)
    let r := runLanes p f c.lanes
    let seen := r.toList.map (·.2)
    let key := Obj.clus.cellStatus (cell / 8) (cell % 8)
    let st := ((List.range 8).zip seen).foldl (fun st e => recordSeen st c.pc e.1 acc e.2) (natO s key)
    let c := seen.foldl noteSeen { c with lanes := r.map (·.1) }
    let s := setCell s cell c
    if st = natO s key then s else setO s key st

/-- An operation that records nothing. -/
def quiet (f : Vector Lane 8 → Fin 8 → Lane → Lane) : LaneOp := fun v i l => (f v i l, Seen.none)

def setAcc (l : Lane) (i : Fin 8) (a : Acc) : Lane := { l with a := l.a.set i a }
def setX (l : Lane) (i : Fin 4) (w : Word) : Lane := { l with x := l.x.set i w }
def setC (l : Lane) (i : Fin 4) (w : Word) : Lane := { l with c := l.c.set i w }
def setF (l : Lane) (i : Fin 4) (b : Bool) : Lane := { l with f := l.f.set i b }

/-- A register by its code: 0 to 3 X0 to X3, 4 to 7 C0 to C3 (Table 3.8). -/
def regOf (l : Lane) (r : Fin 8) : Word :=
  if h : r.val < 4 then l.x[r.val] else l.c[r.val - 4]

def setReg (l : Lane) (r : Fin 8) (w : Word) : Lane :=
  if r.val < 4 then setX l (Fin.ofNat 4 r.val) w else setC l (Fin.ofNat 4 (r.val - 4)) w

/-- The coefficient operand: C, or X when CX is 1. -/
def coefficient (l : Lane) (c : Fin 4) (cx : Bool) : Int := q23 (if cx then l.x[c] else l.c[c])

/-- The product d × c × 2^SH in accumulator LSBs (R60). -/
def product (l : Lane) (x c sh : Fin 4) (cx : Bool) : Int := q23 l.x[x] * coefficient l c cx * (2 ^ sh.val : Nat)

def laneMac (acc : Fin 8) (x c sh : Fin 4) (cx : Bool) : LaneOp :=
  quiet fun _ _ l => setAcc l acc (l.a[acc].add (product l x c sh cx))

def laneMsu (acc : Fin 8) (x c sh : Fin 4) (cx : Bool) : LaneOp :=
  quiet fun _ _ l => setAcc l acc (l.a[acc].add (-(product l x c sh cx)))

def laneMpy (acc : Fin 8) (x c sh : Fin 4) (cx neg : Bool) : LaneOp :=
  quiet fun _ _ l => setAcc l acc (Acc.load (if neg then -(product l x c sh cx) else product l x c sh cx))

def laneSqa (acc : Fin 8) (x : Fin 4) : LaneOp :=
  quiet fun _ _ l => setAcc l acc (l.a[acc].add (q23 l.x[x] * q23 l.x[x]))

/-- The low register of a pair: X0 or X2. -/
def pairLow (x : Fin 4) : Fin 4 := if x.val < 2 then 0 else 2

/-- The Q2.46 value of a register pair (R66). -/
def pairValue (l : Lane) (x : Fin 4) : Int :=
  let lo := l.x[pairLow x].toNat % 16777216
  let hi := (if x.val < 2 then l.x[1] else l.x[3]).toNat % 16777216
  signed 48 (hi * 16777216 + lo)

/-- The operand of ACC (Table 3.10). -/
def accOperand (l : Lane) (x : Fin 4) (w z : Bool) (sh : Fin 4) : Int :=
  if z then 0 else (if w then pairValue l x else q23 l.x[x] * 8388608) * (2 ^ sh.val : Nat)

def laneAcc (acc : Fin 8) (x : Fin 4) (w ld z : Bool) (sh : Fin 4) : LaneOp :=
  quiet fun _ _ l =>
    let p := accOperand l x w z sh
    setAcc l acc (if ld then Acc.load p else l.a[acc].add p)

def laneExt (acc : Fin 8) (x : Fin 4) (shift : Fin 16) : LaneOp := fun _ _ l =>
  let r := l.a[acc].ext shift.val
  (setX l x (ofQ23 r.1), r.2)

/-- EXW writes a pair: 00h in the low register's extension byte, the sign extension in the high register's (R66). -/
def laneExw (acc : Fin 8) (pair : Fin 2) (sc : Fin 4) : LaneOp := fun _ _ l =>
  let r := l.a[acc].exw sc.val
  let n := wrapTo 48 r.1
  let lo : Word := BitVec.ofNat 32 (n % 16777216)
  let hi := ofQ23 (signed 24 (n / 16777216))
  if pair = 0 then (setX (setX l 0 lo) 1 hi, r.2) else (setX (setX l 2 lo) 3 hi, r.2)

def laneMax (d xa xb : Fin 4) : LaneOp := quiet fun _ _ l => setX l d (ofQ23 (max (q23 l.x[xa]) (q23 l.x[xb])))

def laneMin (d xa xb : Fin 4) : LaneOp := quiet fun _ _ l => setX l d (ofQ23 (min (q23 l.x[xa]) (q23 l.x[xb])))

def laneAbs (d xa : Fin 4) : LaneOp := fun _ _ l =>
  let v : Int := (q23 l.x[xa]).natAbs
  (setX l d (ofQ23 (sat24 v)), if over24 v then Seen.sat else Seen.none)

def laneCmp (xa xb flag cond : Fin 4) : LaneOp :=
  quiet fun _ _ l => setF l flag (compares cond (q23 l.x[xa]) (q23 l.x[xb]))

def laneSel (d xa xb flag : Fin 4) : LaneOp := quiet fun _ _ l => setX l d (if l.f[flag] then l.x[xa] else l.x[xb])

def laneShf (d xa : Fin 4) (amount : BitVec 5) : LaneOp := fun _ _ l =>
  let v := q23 l.x[xa]
  let n := amount.toInt
  if 0 ≤ n then
    let r := v * (2 ^ n.toNat : Nat)
    (setX l d (ofQ23 (sat24 r)), if over24 r then Seen.sat else Seen.none)
  else (setX l d (ofQ23 (roundShift v (-n).toNat)), Seen.none)

/-- The lane that lane i takes under a SHUF pattern (Table 3.11). -/
def shufLane (pattern : Fin 8) (i : Fin 8) (l : Lane) : Fin 8 :=
  match pattern with
  | 0 => Fin.ofNat 8 (i.val + 1)
  | 1 => Fin.ofNat 8 (i.val + 7)
  | 2 => Fin.ofNat 8 (7 - i.val)
  | 3 => Fin.ofNat 8 (i.val ^^^ 1)
  | 4 => Fin.ofNat 8 (i.val ^^^ 2)
  | 5 => Fin.ofNat 8 (i.val ^^^ 4)
  | 6 => Fin.ofNat 8 (4 * (i.val % 2) + i.val / 2)
  | 7 => Fin.ofNat 8 (l.c[0].toNat % 8)

def laneShuf (d xa : Fin 4) (pattern : Fin 8) : LaneOp :=
  quiet fun v i l => setX l d (v[shufLane pattern i l].x[xa])

def laneBcast (d xa : Fin 4) (lane : Fin 8) : LaneOp := quiet fun v _ l => setX l d (v[lane].x[xa])

def laneLog2 (d xa : Fin 4) : LaneOp := quiet fun _ _ l => setX l d (ofQ23 (log2Level (q23 l.x[xa])))

def laneExp2 (d xa : Fin 4) : LaneOp := quiet fun _ _ l => setX l d (ofQ23 (exp2Level (q23 l.x[xa])))

/-- A zero crossing: the sample is 0, or its sign differs from the previous sample's, 0 counting as non-negative (R81, R119). -/
def crossing (prev sample : Int) : Bool := sample == 0 || decide (sample < 0) != decide (prev < 0)

/-- ZXG: step the gain at a crossing, flag it, load the accumulator with sample × gain (R81). -/
def laneZxg (acc : Fin 8) (x xp : Fin 4) (k : Bool) (sh : Fin 4) (fsel : Bool) : LaneOp :=
  quiet fun _ _ l =>
    let cur : Fin 4 := if k then 2 else 0
    let tgt : Fin 4 := if k then 3 else 1
    let steps := crossing (q23 l.x[xp]) (q23 l.x[x]) && q23 l.c[cur] != q23 l.c[tgt]
    let l1 := if steps then setC l cur l.c[tgt] else l
    let l2 := setF l1 (if fsel then 3 else 2) steps
    setAcc l2 acc (Acc.load (q23 l.x[x] * q23 l2.c[cur] * (2 ^ sh.val : Nat)))

def laneMov (d src : Fin 8) : LaneOp := quiet fun _ _ l => setReg l d (regOf l src)

/-! ## The compute commands -/

def execNop (cell : Fin 128) (p : Pred) (s : State) : Ans := .next (compute s cell p 0 (quiet fun _ _ l => l))
def execMac (cell : Fin 128) (p : Pred) (acc : Fin 8) (x c sh : Fin 4) (cx : Bool) (s : State) : Ans :=
  .next (compute s cell p acc (laneMac acc x c sh cx))
def execMsu (cell : Fin 128) (p : Pred) (acc : Fin 8) (x c sh : Fin 4) (cx : Bool) (s : State) : Ans :=
  .next (compute s cell p acc (laneMsu acc x c sh cx))
def execMpy (cell : Fin 128) (p : Pred) (acc : Fin 8) (x c sh : Fin 4) (cx neg : Bool) (s : State) : Ans :=
  .next (compute s cell p acc (laneMpy acc x c sh cx neg))
def execSqa (cell : Fin 128) (p : Pred) (acc : Fin 8) (x : Fin 4) (s : State) : Ans :=
  .next (compute s cell p acc (laneSqa acc x))
def execAcc (cell : Fin 128) (p : Pred) (acc : Fin 8) (x : Fin 4) (w ld z : Bool) (sh : Fin 4) (s : State) : Ans :=
  .next (compute s cell p acc (laneAcc acc x w ld z sh))
def execExt (cell : Fin 128) (p : Pred) (acc : Fin 8) (x : Fin 4) (shift : Fin 16) (s : State) : Ans :=
  .next (compute s cell p acc (laneExt acc x shift))
def execExw (cell : Fin 128) (p : Pred) (acc : Fin 8) (pair : Fin 2) (sc : Fin 4) (s : State) : Ans :=
  .next (compute s cell p acc (laneExw acc pair sc))
def execMax (cell : Fin 128) (p : Pred) (d xa xb : Fin 4) (s : State) : Ans := .next (compute s cell p 0 (laneMax d xa xb))
def execMin (cell : Fin 128) (p : Pred) (d xa xb : Fin 4) (s : State) : Ans := .next (compute s cell p 0 (laneMin d xa xb))
def execAbs (cell : Fin 128) (p : Pred) (d xa : Fin 4) (s : State) : Ans := .next (compute s cell p 0 (laneAbs d xa))
def execCmp (cell : Fin 128) (p : Pred) (xa xb flag cond : Fin 4) (s : State) : Ans :=
  .next (compute s cell p 0 (laneCmp xa xb flag cond))
def execSel (cell : Fin 128) (p : Pred) (d xa xb flag : Fin 4) (s : State) : Ans :=
  .next (compute s cell p 0 (laneSel d xa xb flag))
def execShf (cell : Fin 128) (p : Pred) (d xa : Fin 4) (amount : BitVec 5) (s : State) : Ans :=
  .next (compute s cell p 0 (laneShf d xa amount))
def execShuf (cell : Fin 128) (p : Pred) (d xa : Fin 4) (pattern : Fin 8) (s : State) : Ans :=
  .next (compute s cell p 0 (laneShuf d xa pattern))
def execBcast (cell : Fin 128) (p : Pred) (d xa : Fin 4) (lane : Fin 8) (s : State) : Ans :=
  .next (compute s cell p 0 (laneBcast d xa lane))
def execLog2 (cell : Fin 128) (p : Pred) (d xa : Fin 4) (s : State) : Ans := .next (compute s cell p 0 (laneLog2 d xa))
def execExp2 (cell : Fin 128) (p : Pred) (d xa : Fin 4) (s : State) : Ans := .next (compute s cell p 0 (laneExp2 d xa))
def execZxg (cell : Fin 128) (p : Pred) (acc : Fin 8) (x xp : Fin 4) (k : Bool) (sh : Fin 4) (fsel : Bool) (s : State) : Ans :=
  .next (compute s cell p acc (laneZxg acc x xp k sh fsel))
def execMov (cell : Fin 128) (p : Pred) (d src : Fin 8) (s : State) : Ans := .next (compute s cell p 0 (laneMov d src))

/-! ## Slot operations (R68, R70 to R72, R75) -/

/-- A word of operand memory; nothing written reads 0 (R336, R359). -/
def memGet (c : Cell) (a : Nat) : Word := Sparse.get (fun _ => 0) c.mem (a % 32768)

def memPut (c : Cell) (a : Nat) (w : Word) : Cell := { c with mem := Sparse.put (fun _ => 0) c.mem (a % 32768) w }

/-- The address with its low three bits cleared (R68). -/
def vecBase (a : Nat) : Nat := a / 8 * 8

/-- Write an LDP's value to its address register (R75). -/
def ldpWrite (a : Addrs) (kind : LdpKind) (idx : Fin 8) (w : Word) : Addrs :=
  match kind with
  | .p => { a with p := a.p.set idx (w.truncate 15) }
  | .m => { a with m := a.m.set idx w }
  | .n => { a with n := a.n.set idx (w.truncate 16) }

/-- The address a slot uses and the cell with its P register stepped. Slot B starts from the registers as slot A left
them; an LDP of slot A still overrides any step (R72). -/
def slotStep (c : Cell) (slot : SlotId) (ap : Fin 8) (am : Fin 4) (unit : Int) : Nat × Cell :=
  match slot with
  | .a =>
    let r := slotAddress c.addrs ap am unit
    (r.1, { c with addrs := r.2, latch := { c.latch with afterA := some r.2 } })
  | .b =>
    let r := slotAddress (c.latch.afterA.getD c.addrs) ap am unit
    let a := match c.latch.ldpA with
      | some (k, i, w) => ldpWrite r.2 k i w
      | none => r.2
    (r.1, { c with addrs := a })

/-- Load a register of a lane, unless slot B of this instruction has already loaded it (R77). -/
def loadReg (c : Cell) (slot : SlotId) (reg : Fin 8) (f : Fin 8 → Word) : Cell :=
  match slot with
  | .a =>
    if c.latch.loadB = some reg then c
    else { c with lanes := Vector.ofFn fun i => setReg c.lanes[i] reg (f i) }
  | .b =>
    { c with lanes := Vector.ofFn fun i => setReg c.lanes[i] reg (f i), latch := { c.latch with loadB := some reg } }

/-- A slot operation at a cell that executes. -/
def slotOp (s : State) (cell : Nat) (f : Cell → Cell) : State :=
  if !cellExec s cell then s else setCell s cell (f (cellOf s cell))

def cellLdv (slot : SlotId) (ap : Fin 8) (am : Fin 4) (reg : Fin 8) (c : Cell) : Cell :=
  let r := slotStep c slot ap am 8
  loadReg r.2 slot reg (fun i => memGet r.2 (vecBase r.1 + i.val))

def cellLdb (slot : SlotId) (ap : Fin 8) (am : Fin 4) (reg : Fin 8) (c : Cell) : Cell :=
  let r := slotStep c slot ap am 1
  loadReg r.2 slot reg (fun _ => memGet r.2 r.1)

/-- STV stores the registers as they stood before the instruction, with PM only in lanes whose flag is set (R77, R78). -/
def cellStv (slot : SlotId) (ap : Fin 8) (am : Fin 4) (reg : Fin 8) (pm : Bool) (p : Pred) (c : Cell) : Cell :=
  let r := slotStep c slot ap am 8
  (List.finRange 8).foldl
    (fun c i =>
      let l := r.2.latch.lanes[i]
      if pm && !predFlag p l then c else memPut c (vecBase r.1 + i.val) (regOf l reg))
    r.2

def cellStl (slot : SlotId) (ap : Fin 8) (am : Fin 4) (reg lane : Fin 8) (c : Cell) : Cell :=
  let r := slotStep c slot ap am 1
  memPut r.2 r.1 (regOf r.2.latch.lanes[lane] reg)

def cellLdp (slot : SlotId) (ap : Fin 8) (am : Fin 4) (kind : LdpKind) (idx : Fin 8) (c : Cell) : Cell :=
  let r := slotStep c slot ap am 1
  let w := memGet r.2 r.1
  let c := r.2
  let c := { c with addrs := ldpWrite c.addrs kind idx w }
  match slot with
  | .a => { c with latch := { c.latch with ldpA := some (kind, idx, w) } }
  | .b => c

def execStv (cell : Fin 128) (slot : SlotId) (ap : Fin 8) (am : Fin 4) (reg : Fin 8) (pm : Bool) (p : Pred) (s : State) : Ans :=
  .next (slotOp s cell (cellStv slot ap am reg pm p))
def execStl (cell : Fin 128) (slot : SlotId) (ap : Fin 8) (am : Fin 4) (reg lane : Fin 8) (s : State) : Ans :=
  .next (slotOp s cell (cellStl slot ap am reg lane))

/-! ## The exchange crossbar (R69, R87) -/

/-- A word of cluster memory; nothing written reads 0. -/
def clusterGet (s : State) (cluster a : Nat) : Word := Sparse.get (fun _ => 0) s.bus.cluster (cluster * 262144 + a % 262144)

def clusterPut (s : State) (cluster a : Nat) (w : Word) : State :=
  { s with bus := { s.bus with cluster := Sparse.put (fun _ => 0) s.bus.cluster (cluster * 262144 + a % 262144) w } }

/-- Move one 8-word vector from a cell to a cell of the same cluster. -/
def moveVector (s : State) (src sa dst da : Nat) : State :=
  let from_ := cellOf s src
  setCell s dst ((List.range 8).foldl (fun c i => memPut c (vecBase da + i) (memGet from_ (vecBase sa + i))) (cellOf s dst))

/-- The exchange list of a cell in the running image. -/
def exchangeOf (s : State) (cell : Nat) : List XEntry :=
  match s.prog.running with
  | none => []
  | some im => (assocGet im.exchange cell).getD []

/-- The peer of a cell-to-cell entry has already carried the matching slot of this frame: entry k of this cell that names
that peer pairs with entry k of the peer's list that names this cell. -/
def peerDone (s : State) (cell n peer : Nat) : Bool :=
  let k := ((exchangeOf s cell).take n).countP (fun e => e.peer == peer % 8)
  let mine := ((exchangeOf s peer).zip (List.range 4096)).filter (fun e => e.1.peer == cell % 8)
  match mine[k]? with
  | some (_, m) => decide (m < (cellOf s peer).yields)
  | none => false

/-- Carry the exchange entry of a YIELD slot: the nth slot of the frame carries the nth entry (R87). -/
def carryEntry (s : State) (cell n : Nat) (e : XEntry) : State :=
  let cluster := cell / 8
  if e.peer = 8 then
    if e.direction = 0 then
      (List.range 8).foldl (fun s i => clusterPut s cluster (vecBase e.peerWord + i)
        (memGet (cellOf s cell) (vecBase e.localWord + i))) s
    else
      setCell s cell ((List.range 8).foldl (fun c i => memPut c (vecBase e.localWord + i)
        (clusterGet s cluster (vecBase e.peerWord + i))) (cellOf s cell))
  else
    let peer := cluster * 8 + e.peer
    if peerDone s cell n peer then s
    else if e.direction = 0 then moveVector s cell e.localWord peer e.peerWord
    else moveVector s peer e.peerWord cell e.localWord

def execYieldSlot (cell : Fin 128) (_slot : SlotId) (s : State) : Ans :=
  if !cellExec s cell then .next s
  else
    let n := (cellOf s cell).yields
    let s := match (exchangeOf s cell)[n]? with
      | some e => carryEntry s cell n e
      | none => s
    let c := cellOf s cell
    .next (setCell s cell { c with yields := n + 1 })

/-! ## Control operations (R73, R74) -/

/-- DO opens a loop whose body starts at the next instruction; three loops may be open at once. -/
def cellDo (arg : Nat) (c : Cell) : Cell :=
  if c.loops.length < 3 then { c with loops := ⟨c.nextPc, arg⟩ :: c.loops } else c

/-- END: the innermost loop runs again, or closes and the next one named is treated in the same way. -/
def endLoops : Nat → Nat → List Loop → Nat × List Loop
  | 0, next, ls => (next, ls)
  | _ + 1, next, [] => (next, [])
  | n + 1, next, l :: r => if l.left = 0 then endLoops n next r else (l.start, { l with left := l.left - 1 } :: r)

def cellEnd (count : Nat) (c : Cell) : Cell :=
  let r := endLoops count c.nextPc c.loops
  { c with nextPc := r.1, loops := r.2 }

def execDoLoop (cell : Fin 128) (arg : Fin 1024) (s : State) : Ans := .next (slotOp s cell (cellDo arg))
def execEndLoop (cell : Fin 128) (count : Fin 4) (s : State) : Ans := .next (slotOp s cell (cellEnd count))

/-- FRAME_END at the cell itself: the schedule stops, loop state is empty (R58, R73). -/
def cellFrameEnd (c : Cell) : Cell := { c with active := false, nextPc := 0, loops := [] }

/-- At the end of the frame's schedules each of events 161, 162, 163 is raised once if any cell recorded it (R84). -/
def scheduleEvents (s : State) : State :=
  if s.cells.any (fun e => cellExec s e.1) then s
  else
    let w := s.cells.any (fun e => e.2.wrapped)
    let l := s.cells.any (fun e => e.2.lostSum)
    let t := s.cells.any (fun e => e.2.saturated)
    let cells := s.cells.map (·.1)
    let s := cells.foldl (fun s n => setCell s n { cellOf s n with wrapped := false, lostSum := false, saturated := false }) s
    let s := if w then raise s 161 noDetail else s
    let s := if l then raise s 162 noDetail else s
    if t then raise s 163 noDetail else s

/-- A descriptor collects the samples its writing cell left at WRITE_BASE: index W + j, channel c (R100). -/
def eddyCollect (s : State) (d : Nat) (e : Eddy) : Eddy :=
  let n := frameSamples s
  let w := natO s (Obj.eddy.writeCount d)
  let ch := natO s (Obj.eddy.channels d)
  let c := cellOf s e.writeCell
  let m := (List.range n).foldl
    (fun m j => (List.range ch).foldl
      (fun m i => Sparse.put (fun _ => (0 : Word)) m ((w + j) * ch + i) (memGet c (e.writeBase + 8 * j + i))) m) e.samples
  { e with samples := m }

/-- A cell's schedule ends: its state, and what the descriptors it writes collect (R73, R100). -/
def finishSchedule (s : State) (cell : Nat) : State :=
  let s := setCell s cell (cellFrameEnd (cellOf s cell))
  scheduleEvents { s with eddy := s.eddy.map fun e =>
    if e.2.writeCell = cell ∧ getO s (Obj.eddy.state e.1) ≠ 0 then (e.1, eddyCollect s e.1 e.2) else e }

end Sys2Proof.Machine
end

