-- ==== Sys2Proof/Machine/Image.lean ====
section
/-! DEFINITION. Program images: the layout of R89, the signature of R90 and the verification checks of R82, R87, R92, R95,
R99, R100 and R428. -/

namespace Sys2Proof.Machine

/-! ## Bytes -/

/-- `n` bytes at an offset. -/
def slice (b : List Byte) (off n : Nat) : List Byte := (b.drop off).take n

/-- A big-endian field at an offset. -/
def fieldAt (b : List Byte) (off n : Nat) : Nat := beNat (slice b off n)

/-- Well-formed UTF-8 (Table 2.2, STR); `fuel` bounds the characters. -/
def utf8From : Nat → List Byte → Bool
  | 0, l => l.isEmpty
  | _ + 1, [] => true
  | fuel + 1, a :: r =>
    let x := a.toNat
    let cont (n : Nat) (lo : Nat) (first : Nat) : Bool :=
      let t := r.take n
      let v := t.foldl (fun v c => v * 64 + c.toNat % 64) first
      decide (t.length = n) && t.all (fun c => c.toNat / 64 == 2) && decide (lo ≤ v) && decide (v ≤ 0x10FFFF)
        && !(decide (0xD800 ≤ v) && decide (v ≤ 0xDFFF)) && utf8From fuel (r.drop n)
    if x < 0x80 then utf8From fuel r
    else if x / 32 = 6 then cont 1 0x80 (x % 32)
    else if x / 16 = 14 then cont 2 0x800 (x % 16)
    else if x / 8 = 30 then cont 3 0x10000 (x % 8)
    else false

def utf8Ok (b : List Byte) : Bool := utf8From b.length b

/-- Encode a numeric value on the wire, big-endian (Table 2.2). -/
def encodeNum (t : Ty) (v : Int) : List Byte :=
  match t with
  | .time => natBE (v / 1000000000).toNat 6 ++ natBE (v % 1000000000).toNat 4
  | t => natBE (wrapTo (8 * t.size) v) t.size

/-- The number that bytes of the right length hold (a TIME with nanoseconds out of range reads as −1). -/
def decodeRaw (t : Ty) (b : List Byte) : Int :=
  match t with
  | .i8 | .i16 | .i32 | .i64 | .q23 | .gain => signed (8 * t.size) (beNat b)
  | .time =>
    let ns := beNat (b.drop 6)
    if ns < 1000000000 then (beNat (b.take 6) * 1000000000 + ns : Nat) else -1
  | _ => (beNat b : Nat)

/-- Decode a numeric value of the right length; none when it is out of the type's range (Table 2.2). -/
def decodeNum (t : Ty) (b : List Byte) : Option Int :=
  if b.length ≠ t.size then none else if t.admits (decodeRaw t b) then some (decodeRaw t b) else none

/-- The type of a wire code (Table 2.2). -/
def tyOf : Nat → Option Ty
  | 1 => some .bool | 2 => some .u8 | 3 => some .u16 | 4 => some .u32 | 5 => some .u64 | 6 => some .i8 | 7 => some .i16
  | 8 => some .i32 | 9 => some .i64 | 10 => some .q23 | 11 => some .gain | 12 => some .frame | 13 => some .time
  | 14 => some .str | 15 => some .blob
  | _ => none

/-! ## Sections (Tables 4.1 to 4.3) -/

/-- A section: its entry number (from 1), type, target and body. -/
structure Section where
  no   : Nat
  typ  : Nat
  tgt  : Nat
  body : List Byte
  off  : Nat
  deriving DecidableEq, Repr

def sectionOf (b : List Byte) (i : Nat) : Section :=
  let e := 96 + 16 * i
  let off := fieldAt b (e + 4) 4
  ⟨i + 1, fieldAt b e 2, fieldAt b (e + 2) 2, slice b off (fieldAt b (e + 8) 4), off⟩

/-- A target fits its section type (Table 4.3). -/
def targetOk (typ tgt : Nat) : Bool :=
  match typ with
  | 1 | 2 | 4 => decide (tgt < 128)
  | 3 => decide (tgt < 16)
  | 5 | 6 | 7 | 8 | 9 | 255 => tgt == 0xFFFF
  | _ => false

/-- Records of address, count and words; `aw` is the width of address and count (Table 4.3). -/
def initRecords (aw : Nat) : Nat → List Byte → Option (List InitRec)
  | 0, l => if l.isEmpty then some [] else none
  | fuel + 1, l =>
    if l.isEmpty then some []
    else
      let n := fieldAt l aw aw
      if l.length < 2 * aw + 4 * n then none
      else
        match initRecords aw fuel (l.drop (2 * aw + 4 * n)) with
        | none => none
        | some r => some (⟨fieldAt l 0 aw, (chunks 4 n (slice l (2 * aw) (4 * n))).map beNat⟩ :: r)

def sectionRecords (sec : Section) : Option (List InitRec) :=
  if sec.typ = 2 then
    if sec.body.length < 64 then none
    else initRecords 2 sec.body.length (sec.body.take (sec.body.length - 64))
  else initRecords 4 sec.body.length sec.body

def pieces (n : Nat) (b : List Byte) : List (List Byte) := chunks n (b.length / n) b

/-- A body is well formed for its type: check 01h of Table 4.8. -/
def bodyOk (sec : Section) : Bool :=
  let b := sec.body
  match sec.typ with
  | 1 => b.length % 8 == 0 && decide (1 ≤ b.length / 8) && decide (b.length / 8 ≤ 4096)
  | 2 | 3 => (sectionRecords sec).isSome
  | 4 => b.length % 8 == 0 && (pieces 8 b).all (fun e => decide (fieldAt e 0 1 ≤ 1) && decide (fieldAt e 1 1 ≤ 8))
  | 5 => b.length % 32 == 0
  | 6 => b.length % 144 == 0
  | 7 => b.length % 8 == 0
  | 8 => b.length % 16 == 0 && (pieces 16 b).all (fun e =>
      let k := fieldAt e 0 1
      decide (1 ≤ k) && decide (k ≤ 5) && fieldAt e 1 1 == 0 && fieldAt e 12 4 == 0
        && (!(k == 2 || k == 4) || fieldAt e 8 4 == 1) && (k != 5 || fieldAt e 6 1 == 0))
  | 9 => b.length == 131072
  | 255 => b.length == 104 && (slice b 1 7).all (· == 0)
  | _ => false

/-- Check 01h: header, section table, section bounds and bodies; the failing entry number, 0 for the header (R92). Sections whose byte ranges overlap are not well formed.
(DESIGN CHOICE, log entry 122.) -/
def checkLayout (b : List Byte) (storeLength : Nat) : Option Nat :=
  let n := fieldAt b 6 2
  let name := slice b 32 64
  let text := name.takeWhile (· != 0)
  if b.length < 96 ∨ fieldAt b 0 4 ≠ 0x555A5049 ∨ n < 2 ∨ 1024 < n ∨ fieldAt b 8 4 ≠ storeLength ∨ b.length ≠ storeLength
      ∨ 50331648 < storeLength ∨ 1 < fieldAt b 20 1 ∨ fieldAt b 21 3 ≠ 0 ∨ fieldAt b 28 4 ≠ 0 ∨ fieldAt b 24 4 < 1
      ∨ 200000 < fieldAt b 24 4 ∨ !(name.drop text.length).all (· == 0) ∨ !utf8Ok text ∨ b.length < 96 + 16 * n then some 0
  else
    let secs := (List.range n).map (sectionOf b)
    let entry (i : Nat) : Option Nat :=
      let e := 96 + 16 * i
      let off := fieldAt b (e + 4) 4
      let len := fieldAt b (e + 8) 4
      if !targetOk (fieldAt b e 2) (fieldAt b (e + 2) 2) ∨ off % 8 ≠ 0 ∨ off < 96 + 16 * n ∨ b.length < off + len
          ∨ fieldAt b (e + 12) 4 ≠ 0 then some (i + 1) else none
    match (List.range n).findSome? entry with
    | some f => some f
    | none =>
      let clash (x : Section) : Option Nat :=
        if secs.any (fun y => decide (y.no < x.no) && (decide (y.typ ≤ 4 ∨ y.typ = 9 ∨ y.typ = 255) && y.typ == x.typ
              && y.tgt == x.tgt || decide (x.off < y.off + y.body.length) && decide (y.off < x.off + x.body.length)))
          then some x.no else none
      match secs.findSome? clash with
      | some f => some f
      | none =>
        match secs.findSome? (fun x => if bodyOk x then none else some x.no) with
        | some f => some f
        | none =>
          match secs.find? (fun x => x.typ == 255) with
          | none => some 0
          | some sg => if sg.off + 104 = b.length then none else some sg.no

/-! ## Code (R82, R86, R87) -/

/-- Bits hi to lo of an instruction word. -/
def wbits (w : IWord) (hi lo : Nat) : Nat := w.toNat / 2 ^ lo % 2 ^ (hi + 1 - lo)

/-- A slot field is legal (Table 3.8, R75). -/
def slotFieldOk (f : Nat) : Bool :=
  match f / 8192 with
  | 0 | 6 => f % 8192 == 0
  | 1 | 3 => f % 32 == 0
  | 2 => f % 16 == 0
  | 4 => f % 4 == 0
  | 5 => f / 64 % 4 != 3 && f % 8 == 0
  | _ => false

/-- The compute field is legal (Table 3.10, R82). -/
def computeFieldOk (w : IWord) : Bool :=
  let z (hi lo : Nat) : Bool := wbits w hi lo == 0
  match wbits w 63 59 with
  | 0x00 => z 58 48
  | 0x01 | 0x02 => z 48 48
  | 0x03 => true
  | 0x04 => z 53 48
  | 0x05 => z 48 48 && !(wbits w 51 51 == 1 && wbits w 52 52 == 0) && !(wbits w 53 53 == 1 && wbits w 54 54 == 1)
  | 0x06 => z 49 48
  | 0x07 => z 51 48 && z 54 54
  | 0x08 | 0x09 => z 58 58 && z 51 48
  | 0x0A => z 58 58 && z 53 48
  | 0x0B => z 58 56
  | 0x0C => z 58 58 && z 49 48
  | 0x0D => z 58 58 && z 53 53
  | 0x0E | 0x0F => z 58 58 && z 50 48
  | 0x10 | 0x11 => z 58 58 && z 53 48
  | 0x12 => true
  | 0x13 => z 52 48
  | _ => false

/-- The control field is legal (Table 3.7). -/
def controlFieldOk (w : IWord) : Bool :=
  match wbits w 15 14 with
  | 1 => true
  | 2 => wbits w 9 2 == 0 && wbits w 1 0 != 0
  | _ => wbits w 9 0 == 0

def wordOk (w : IWord) : Bool :=
  computeFieldOk w && slotFieldOk (wbits w 47 32) && slotFieldOk (wbits w 31 16) && controlFieldOk w

/-- YIELD slots of a word. -/
def yieldSlots (w : IWord) : Nat := (if wbits w 47 45 = 6 then 1 else 0) + (if wbits w 31 29 = 6 then 1 else 0)

/-- An open loop while a schedule is counted: iterations, cycles and YIELD slots of its body, address of its DO. -/
structure OpenLoop where
  count  : Nat
  cycles : Nat
  yields : Nat
  addr   : Nat
  deriving DecidableEq, Repr

/-- What counting a schedule found. -/
structure CodeCount where
  cycles : Nat
  yields : Nat
  bad    : Option Nat
  /-- Address of FRAME_END, or of the last word. -/
  last   : Nat
  /-- The loops close and FRAME_END stands outside them, so that the schedule has a length. -/
  whole  : Bool
  deriving DecidableEq, Repr

/-- Fold a closed loop into the one around it. -/
def closeLoops : Nat → List OpenLoop → List OpenLoop
  | n + 1, l :: o :: r => closeLoops n ({ o with cycles := o.cycles + l.count * l.cycles, yields := o.yields + l.count * l.yields } :: r)
  | _, st => st

/-- Count a schedule from address `a`, with the loops open (the outermost entry is the schedule itself) (R74, R82). Of several DOs without END
the innermost is reported, rather than the missing FRAME_END. (DESIGN CHOICE, log entry 119.) -/
def countCode : Nat → List IWord → List OpenLoop → Option Nat → Bool → CodeCount
  | a, [], st, bad, _ =>
    let st' := closeLoops (st.length - 1) st
    let why := match st with
      | l :: _ :: _ => l.addr
      | _ => a - 1
    match st' with
    | l :: _ => ⟨l.cycles, l.yields, some (bad.getD why), a - 1, false⟩
    | [] => ⟨0, 0, some (bad.getD why), a - 1, false⟩
  | a, w :: r, st, bad, whole =>
    let bad := match bad with
      | some x => some x
      | none => if wordOk w then none else some a
    let st := match st with
      | l :: t => { l with cycles := l.cycles + 1, yields := l.yields + yieldSlots w } :: t
      | [] => []
    match wbits w 15 14 with
    | 1 => countCode (a + 1) r (⟨wbits w 9 0 + 1, 0, 0, a⟩ :: st) (bad.or (if 3 < st.length then some a else none)) whole
    | 2 =>
      let n := wbits w 1 0
      countCode (a + 1) r (closeLoops n st) (bad.or (if st.length ≤ n then some a else none))
        (whole && decide (0 < n) && decide (n < st.length))
    | 3 =>
      let bad := bad.or (if 1 < st.length then some a else none)
      match closeLoops (st.length - 1) st with
      | l :: _ => ⟨l.cycles, l.yields, bad, a, whole && decide (st.length = 1)⟩
      | [] => ⟨0, 0, bad, a, false⟩
    | _ => countCode (a + 1) r st bad whole

def codeCount (ws : List IWord) : CodeCount := countCode 0 ws [⟨1, 0, 0, 0⟩] none true

/-- Half-cycle and address of every YIELD slot executed in a frame; `fuel` bounds the cycles. -/
def yieldTimes (ws : List IWord) : Nat → Nat → Nat → List Loop → List (Nat × Nat)
  | 0, _, _, _ => []
  | fuel + 1, cyc, pc, loops =>
    let w := ws.getD pc 0
    let here := (if wbits w 47 45 = 6 then [(2 * cyc, pc)] else []) ++ (if wbits w 31 29 = 6 then [(2 * cyc + 1, pc)] else [])
    match wbits w 15 14 with
    | 3 => here
    | 1 => here ++ yieldTimes ws fuel (cyc + 1) (pc + 1) (⟨pc + 1, wbits w 9 0⟩ :: loops)
    | 2 =>
      let e := endLoops (wbits w 1 0) (pc + 1) loops
      here ++ yieldTimes ws fuel (cyc + 1) e.1 e.2
    | _ => here ++ yieldTimes ws fuel (cyc + 1) (pc + 1) loops

/-- R82 for one cell: the address of the first failure. -/
def cellCodeBad (ws : List IWord) (listed : Nat) : Option Nat :=
  let c := codeCount ws
  match c.bad with
  | some a => some a
  | none =>
    if 200000 < c.cycles then some c.last
    else if listed < c.yields then (yieldTimes ws 200001 0 0 []).map (·.2) |>.getD listed c.last |> some
    else if c.yields < listed then some c.last
    else none

/-- R87 for one cell: the address of the first YIELD slot whose peer does not match. -/
def pairingBad (code : List (Nat × List IWord)) (ex : List (Nat × List XEntry)) (cell : Nat) (ws : List IWord) : Option Nat :=
  let mine := (assocGet ex cell).getD []
  if mine.all (fun e => e.peer == 8) then none
  else
    ((yieldTimes ws 200001 0 0 []).zip mine).findSome? fun (t, e) =>
      if e.peer = 8 then none
      else
        let peer := cell / 8 * 8 + e.peer
        if peer = cell then some t.2
        else
          let times := match assocGet code peer with
            | some pw => yieldTimes pw 200001 0 0 []
            | none => []
          let theirs := (assocGet ex peer).getD []
          let ok := (times.zip theirs).any (fun (u, f) => u.1 == t.1 && f.peer == cell % 8 && f.direction != e.direction
            && f.localWord == e.peerWord && f.peerWord == e.localWord)
          if ok then none else some t.2

/-! ## Parsing the sections -/

def parseXEntry (e : List Byte) : XEntry := ⟨fieldAt e 0 1, fieldAt e 1 1, fieldAt e 2 2, fieldAt e 4 4⟩

def parseDict (e : List Byte) : DictDecl :=
  let t := fieldAt e 5 1
  let v := match tyOf t with
    | some ty => (decodeNum ty (slice e 16 ty.size)).getD 0
    | none => 0
  ⟨fieldAt e 0 2, fieldAt e 2 2, fieldAt e 4 1, t, fieldAt e 6 1, fieldAt e 7 1, fieldAt e 8 2, fieldAt e 10 2,
    fieldAt e 12 2, v⟩

def parseEddy (e : List Byte) : EddyDecl :=
  ⟨fieldAt e 0 2, fieldAt e 2 1, fieldAt e 3 1, fieldAt e 4 2, fieldAt e 6 2, fieldAt e 8 4,
    (List.range (min (fieldAt e 12 1) 16)).map fun i =>
      ⟨fieldAt e (16 + 8 * i) 2, fieldAt e (18 + 8 * i) 2, fieldAt e (20 + 8 * i) 4⟩⟩

def parseClaim (e : List Byte) : Claim := ⟨fieldAt e 0 2, fieldAt e 2 1, fieldAt e 3 1, fieldAt e 4 2, fieldAt e 6 2⟩

def parseCarry (e : List Byte) : Carry := ⟨fieldAt e 0 1, fieldAt e 2 2, fieldAt e 4 4, fieldAt e 8 4⟩

def parseCellInit (sec : Section) : CellInit :=
  let t := sec.body.drop (sec.body.length - 64)
  ⟨sec.tgt, (sectionRecords sec).getD [], (List.range 8).map (fun i => fieldAt t (2 * i) 2),
    (List.range 8).map (fun i => fieldAt t (16 + 4 * i) 4), (List.range 8).map (fun i => fieldAt t (48 + 2 * i) 2)⟩

/-- The image of well-formed bytes. -/
def parseImage (b : List Byte) : Image :=
  let secs := (List.range (fieldAt b 6 2)).map (sectionOf b)
  let of (t : Nat) : List Section := secs.filter (·.typ == t)
  let signedEnd := ((of 255).head?.map (·.off)).getD b.length
  { hash := beNat ((sha384 (b.take signedEnd)).take 8)
    name := (slice b 32 64).takeWhile (· != 0)
    rate := fieldAt b 20 1
    schedule := fieldAt b 24 4
    code := (of 1).map fun x => (x.tgt, (pieces 8 x.body).map fun w => BitVec.ofNat 64 (beNat w))
    cells := (of 2).map parseCellInit
    clusters := (of 3).map fun x => (x.tgt, (sectionRecords x).getD [])
    exchange := (of 4).map fun x => (x.tgt, (pieces 8 x.body).map parseXEntry)
    dict := (of 5).flatMap fun x => (pieces 32 x.body).map parseDict
    eddy := (of 6).flatMap fun x => (pieces 144 x.body).map parseEddy
    claims := (of 7).flatMap fun x => (pieces 8 x.body).map parseClaim
    carry := (of 8).flatMap fun x => (pieces 16 x.body).map parseCarry
    usage := ((of 9).head?).map (·.body) }

/-- Each entry of the sections of one type with its section's number. -/
def entriesOf (b : List Byte) (typ size : Nat) : List (Nat × List Byte) :=
  (((List.range (fieldAt b 6 2)).map (sectionOf b)).filter (·.typ == typ)).flatMap fun x => (pieces size x.body).map (x.no, ·)

/-- The number of the section of a type and target. -/
def sectionNo (b : List Byte) (typ tgt : Nat) : Nat :=
  ((((List.range (fieldAt b 6 2)).map (sectionOf b)).find? (fun x => x.typ == typ && x.tgt == tgt)).map (·.no)).getD 0

/-! ## Checks 07h to 0Bh -/

/-- Check 07h: cell number and address in the form of R92. An initial M value with MODE 11b fails the cell at
address 0, before any word of its code. (DESIGN CHOICE, log entry 118.) -/
def checkCode (im : Image) : Option Nat :=
  let cells := (List.range 128).findSome? fun c =>
    let listed := ((assocGet im.exchange c).getD []).length
    let modes := (im.cells.filter (·.cell == c)).any (fun i => i.m.any (fun m => m / 2 ^ 30 == 3))
    let bad := if modes then some 0
      else match assocGet im.code c with
        | some ws => cellCodeBad ws listed
        | none => if 0 < listed then some 0 else none
    bad.map fun a => c * 131072 + a
  match cells with
  | some f => some f
  | none => im.code.findSome? fun (c, ws) => (pairingBad im.code im.exchange c ws).map fun a => c * 131072 + a

/-- Words of a declared object's value: types wider than 32 bits take consecutive words (Table 4.4). -/
def valueWords (typ : Nat) : Nat :=
  match tyOf typ with
  | some t => (t.size + 3) / 4
  | none => 0

/-- A DICT entry's own fields are valid (Table 4.4). An element outside the memory of cells 0 to 127, or
across the end of one, is not valid. (DESIGN CHOICE, log entry 123.) -/
def dictEntryOk (e : List Byte) : Bool :=
  let d := parseDict e
  match tyOf d.typ with
  | none => false
  | some t =>
    let last := d.word + d.stride * (d.elements - 1)
    decide (0x6000 ≤ d.index ∧ d.index ≤ 0x9FFF) && decide (d.typ ≤ 13) && decide (d.access ≤ 3) && decide (d.flags < 8)
      && d.flags % 4 != 3 && fieldAt e 14 2 == 0 && (decodeNum t (slice e 16 t.size)).isSome
      && (slice e (16 + t.size) (16 - t.size)).all (· == 0)
      && decide (d.cell + last / 32768 < 128) && decide (last % 32768 + valueWords d.typ ≤ 32768)

/-- Cell and word address of an element (Table 4.4). -/
def DictDecl.place (d : DictDecl) (elem : Nat) : Nat × Nat :=
  let a := d.word + d.stride * elem
  (d.cell + a / 32768, a % 32768)

/-- A carried object has the same type in both images, and its elements occupy the same words: places are linear in the element, so the
first and the last one carried tell (R95). -/
def carriedOk (old new : List DictDecl) (c : Carry) : Bool :=
  let at_ (l : List DictDecl) : Option DictDecl := l.find? (fun d => d.index == c.target && d.sub == c.first % 256)
  match at_ old, at_ new with
  | some a, some b => a.typ == b.typ && a.place (c.first / 65536) == b.place (c.first / 65536)
      && a.place (c.first / 65536 + max c.count 1 - 1) == b.place (c.first / 65536 + max c.count 1 - 1)
      && decide (c.first / 65536 + max c.count 1 ≤ max a.elements 1) && decide (c.first / 65536 + max c.count 1 ≤ max b.elements 1)
  | _, _ => false

/-- Check 08h (R35, R95). -/
def checkDict (b : List Byte) (running : Option Image) (im : Image) : Option Nat :=
  let es := entriesOf b 5 32
  let one (i : Nat) (e : Nat × List Byte) : Option Nat :=
    let key (x : List Byte) : Nat := (parseDict x).index * 256 + (parseDict x).sub
    if !dictEntryOk e.2 || (es.take i).any (fun x => key x.2 == key e.2) then some e.1 else none
  match ((List.range es.length).zip es).findSome? (fun p => one p.1 p.2) with
  | some f => some f
  | none =>
    match running with
    | none => none
    | some r => (entriesOf b 8 16).findSome? fun e =>
        let c := parseCarry e.2
        if c.kind = 5 ∧ !carriedOk r.dict im.dict c then some e.1 else none

/-- An Eddy descriptor's fields are valid (R99, R100). -/
def eddyEntryOk (n : Nat) (e : List Byte) : Bool :=
  let d := parseEddy e
  decide (d.id < 4096) && decide (d.location ≤ 1) && [1, 2, 4, 8].contains d.channels && decide (d.writeCell < 128)
    && d.writeBase % 8 == 0 && decide (64 ≤ d.length ∧ d.length * d.channels ≤ 2147483648) && decide (fieldAt e 12 1 ≤ 16)
    && fieldAt e 13 3 == 0
    && d.taps.all (fun t => t.cell / 8 == d.writeCell / 8 && decide (2 * n ≤ t.age ∧ t.age ≤ d.length - 1))

/-- Check 09h (R95, R99, R100). -/
def checkEddy (b : List Byte) (running : Option Image) (im : Image) : Option Nat :=
  let n := if im.rate = 0 then 8 else 16
  let es := entriesOf b 6 144
  let one (i : Nat) (e : Nat × List Byte) : Option Nat :=
    if !eddyEntryOk n e.2 || (es.take i).any (fun x => (parseEddy x.2).id == (parseEddy e.2).id) then some e.1 else none
  match ((List.range es.length).zip es).findSome? (fun p => one p.1 p.2) with
  | some f => some f
  | none =>
    (entriesOf b 8 16).findSome? fun e =>
      let c := parseCarry e.2
      if c.kind ≠ 4 then none
      else
        match im.eddy.find? (·.id == c.target) with
        | none => some e.1
        | some d =>
          match running.bind (fun r => r.eddy.find? (·.id == c.target)) with
          | none => none
          | some o => if o.location = d.location ∧ o.channels = d.channels then none else some e.1

/-- The words a claim names (R88). -/
def claimWords (n : Nat) (c : Claim) : List (Nat × Nat) := (List.range n).map fun j => (c.cell, c.base + 8 * j + c.lane)

/-- Check 0Ah (R88). -/
def checkClaims (b : List Byte) (im : Image) : Option Nat :=
  let n := if im.rate = 0 then 8 else 16
  let es := entriesOf b 7 8
  let clash (x y : Claim) : Bool :=
    (x.slot == y.slot && x.direction == y.direction) || (claimWords n x).any ((claimWords n y).contains ·)
  ((List.range es.length).zip es).findSome? fun (i, e) =>
    let c := parseClaim e.2
    if c.slot < 8192 ∨ 16383 < c.slot ∨ 1 < c.direction ∨ 7 < c.lane ∨ 127 < c.cell ∨ c.base % 8 ≠ 0
        ∨ (es.take i).any (fun x => clash (parseClaim x.2) c) then some e.1 else none

/-- Two ranges of words share a word. -/
def overlap (a la b lb : Nat) : Bool := decide (a < b + lb) && decide (b < a + la)

/-- Init records lie inside a memory and do not overlap. -/
def recordsOk (cap : Nat) (l : List InitRec) : Bool :=
  l.all (fun r => decide (r.addr + r.words.length ≤ cap)) &&
    ((List.range l.length).zip l).all (fun p => (l.take p.1).all (fun q => !overlap p.2.addr p.2.words.length q.addr q.words.length))

/-- Areas the engine writes outside the schedule in a cell: claimed input words and tap areas (R428). -/
def engineAreas (n cell : Nat) (im : Image) : List (List Nat) :=
  ((im.claims.filter (fun c => c.cell == cell && c.direction == 0)).map fun c => (claimWords n c).map (·.2))
    ++ (im.eddy.flatMap (·.taps)).filterMap fun t => if t.cell = cell then some ((List.range (8 * n)).map (t.base + ·)) else none

/-- Words of a cluster memory that CLUSTER_INIT records and exchange entries name. -/
def clusterTaken (cl : Nat) (im : Image) : List Nat :=
  (((assocGet im.clusters cl).getD []).flatMap fun r => (List.range r.words.length).map (r.addr + ·))
    ++ ((im.exchange.filter (fun x => x.1 / 8 == cl)).flatMap fun x =>
        (x.2.filter (·.peer == 8)).flatMap fun e => (List.range 8).map (vecBase e.peerWord + ·))

/-- Words the Eddy rings of a cluster take. -/
def ringWords (cl : Nat) (im : Image) : Nat :=
  (im.eddy.filter (fun e => e.location == 0 && e.writeCell / 8 == cl)).foldl (fun a e => a + e.length * e.channels) 0

/-- Check 0Bh (R95, R99, R428). No field places a ring in cluster memory: the rings fit when their words do. (DESIGN
CHOICE, log entry 120.) -/
def checkMemory (b : List Byte) (im : Image) : Option Nat :=
  let n := if im.rate = 0 then 8 else 16
  let inits := im.cells.findSome? fun c => if recordsOk 32768 c.recs then none else some (sectionNo b 2 c.cell)
  let clinits := im.clusters.findSome? fun c => if recordsOk 262144 c.2 then none else some (sectionNo b 3 c.1)
  let claims := (entriesOf b 7 8).findSome? fun e =>
    if (claimWords n (parseClaim e.2)).all (fun w => decide (w.2 < 32768)) then none else some e.1
  let exch := im.exchange.findSome? fun x =>
    if x.2.all (fun e => decide (e.localWord < 32768) && decide (e.peerWord < (if e.peer = 8 then 262144 else 32768))) then none
    else some (sectionNo b 4 x.1)
  let eddies := (entriesOf b 6 144).findSome? fun e =>
    let d := parseEddy e.2
    if d.writeBase + 8 * n ≤ 32768 ∧ d.taps.all (fun t => decide (t.base + 8 * n ≤ 32768)) then none else some e.1
  let areas := (List.range 128).findSome? fun cell =>
    let l := engineAreas n cell im
    if ((List.range l.length).zip l).all (fun p => (l.take p.1).all (fun q => !q.any (p.2.contains ·))) then none
    else some (sectionNo b 6 0xFFFF)
  let rings := (List.range 16).findSome? fun cl =>
    if ringWords cl im + (clusterTaken cl im).eraseDups.length ≤ 262144 then none else some (sectionNo b 6 0xFFFF)
  let hbm := if (im.eddy.filter (·.location == 1)).foldl (fun a e => a + e.length * e.channels * 4) 0 ≤ 8589934592 then none
    else some (sectionNo b 6 0xFFFF)
  let carry := (entriesOf b 8 16).findSome? fun e =>
    let c := parseCarry e.2
    let hasCode := (assocGet im.code c.target).isSome
    if (c.kind = 1 ∨ c.kind = 2) ∧ !hasCode ∨ c.kind = 1 ∧ 32768 < c.first + c.count
        ∨ c.kind = 3 ∧ (15 < c.target ∨ 262144 < c.first + c.count) then some e.1 else none
  [inits, clinits, claims, exch, eddies, areas, rings, hbm, carry].findSome? id

/-- The OTP program-key slot named by an image: 96 bytes, a P-384 point (R90); all zero when empty. -/
def keySlotEmpty (k : List Byte) : Bool := k.all (· == 0)

/-- Verification in the order of Table 4.8: VERIFY_RESULT, and the image when every check passes (R92). Check 06h compares only
when every schedule has a length: its loops close (DEDUCED, log entry 14). `key` gives the
public key of an OTP slot. -/
def verifyImage (b : List Byte) (storeLength fwVersion rate : Nat) (key : Nat → List Byte) (running : Option Image) :
    Nat × Option Image :=
  let fail (code low : Nat) : Nat × Option Image := (code * 16777216 + low, none)
  match checkLayout b storeLength with
  | some f => fail 1 f
  | none =>
    let im := parseImage b
    let sg := ((List.range (fieldAt b 6 2)).map (sectionOf b)).find? (·.typ == 255)
    let sigNo := (sg.map (·.no)).getD 0
    let sig := (sg.map (·.body)).getD []
    let end_ := (sg.map (·.off)).getD 0
    let slot := fieldAt sig 0 1
    let k := key slot
    if 3 < slot ∨ keySlotEmpty k ∨ !p384Verify (fieldAt k 0 48, fieldAt k 48 48) (fieldAt sig 8 48) (fieldAt sig 56 48) (b.take end_)
      then fail 2 sigNo
    else if fieldAt b 12 4 ≠ 2048 ∨ fieldAt b 4 2 ≠ 1 then fail 3 0
    else if fwVersion < fieldAt b 16 4 then fail 4 0
    else if im.rate ≠ rate then fail 5 0
    else if im.code.all (fun c => (codeCount c.2).whole)
        ∧ im.schedule ≠ (im.code.map (fun c => (codeCount c.2).cycles)).foldl max 0 then fail 6 0
    else
      match checkCode im with
      | some f => fail 7 f
      | none =>
        match checkDict b running im with
        | some f => fail 8 f
        | none =>
          match checkEddy b running im with
          | some f => fail 9 f
          | none =>
            match checkClaims b im with
            | some f => fail 10 f
            | none =>
              match checkMemory b im with
              | some f => fail 11 f
              | none => (0, some im)

end Sys2Proof.Machine
end

