-- ==== Sys2Proof/Machine/Program.lean ====
section
/-! DEFINITION. Programs and Eddy buffers: program objects in cell memory, the program store, the swap (R94, R95, R97,
R98), descriptors, taps, marks and fetch-ahead (R99 to R107). -/

namespace Sys2Proof.Machine

/-! ## Program objects (Table 4.4) -/

/-- The declaration of a program object in an image. -/
def imageDecl (im : Image) (index elem sub : Nat) : Option DictDecl :=
  im.dict.find? (fun d => d.index == index && d.sub == sub && decide (elem < max d.elements 1))

/-- A DICT declaration as a dictionary declaration. -/
def DictDecl.decl (d : DictDecl) : Option Decl :=
  match tyOf d.typ with
  | none => none
  | some t =>
    let acc : Access := match d.access with
      | 0 => .konst
      | 1 => .ro
      | 2 => .rw
      | _ => .wo
    let eff : Effect := match d.flags % 4 with
      | 0 => .control
      | 1 => .direct
      | _ => .sluice
    some ⟨d.sub, 0, d.elements - 1, t, acc, eff, decide (4 ≤ d.flags), -1208925819614629174706176, 1208925819614629174706176,
      d.dflt⟩

/-- Map address of an area of HBM, wholly inside it: the kind and a number of the allocation, and its bytes (R187, R389). -/
def hbmPlace (kind number bytes : Nat) : Nat := 0x800000000 + Config.hbmBase kind number % (25769803777 - min 25769803776 bytes)

/-- The words of a value: types wider than 32 bits low word first; narrower ones with their extension (DEDUCED, log entry 12). -/
def valueToWords (t : Ty) (v : Int) : List Word :=
  if t.size ≤ 4 then [BitVec.ofInt 32 v]
  else
    let raw := beNat (encodeNum t v)
    (List.range ((t.size + 3) / 4)).map (fun i => BitVec.ofNat 32 (raw / 2 ^ (32 * i)))

/-- The value in words of cell memory. -/
def wordsToValue (t : Ty) (ws : List Word) : Int :=
  let raw := ws.foldr (fun w a => a * 2 ^ 32 + w.toNat) 0
  decodeRaw t (natBE raw t.size)

def progRead (s : State) (d : DictDecl) (elem : Nat) : Int :=
  match tyOf d.typ with
  | none => 0
  | some t =>
    let (c, w) := d.place elem
    wordsToValue t ((List.range ((t.size + 3) / 4)).map (fun i => memGet (cellOf s c) (w + i)))

def progWrite (s : State) (d : DictDecl) (elem : Nat) (v : Int) : State :=
  match tyOf d.typ with
  | none => s
  | some t =>
    let (c, w) := d.place elem
    let ws := valueToWords t v
    setCell s c (((List.range ws.length).zip ws).foldl (fun m e => memPut m (w + e.1) e.2) (cellOf s c))

/-- A value of a program object that has waited for a schedule's end goes into memory (R69). -/
def lateObject (s : State) (k : Nat) (v : Int) : State :=
  match s.prog.running.bind (fun im => imageDecl im (keyIndex k) (keyElem k) (keySub k)) with
  | some d => if cellRuns s (d.place (keyElem k)).1 then progWrite s d (keyElem k) v else s
  | none => s

/-- The values that wait go in before another program takes the memory. -/
def flushObjects (s : State) : State :=
  s.bus.late.foldl (fun s e => match e.2 with
    | .object k v => lateObject s k v
    | _ => s)
    { s with bus := { s.bus with late := s.bus.late.filter (fun e => match e.2 with
        | .object _ _ => false
        | _ => true) } }

/-! ## Assigned objects (R5, R99, R111, R392) -/

/-- Access of a region register by its master (R392). -/
def regionAccess (elem sub : Nat) (a : Access) : Access :=
  if sub = 4 then a
  else
    let m := elem / 128
    if m ≤ 4 ∨ m = 16 then .konst else if 13 ≤ m then .ro else a

/-- The declaration of an object that the manual or the running program assigns. (DEDUCED, log entry 22.) -/
def declAt (s : State) (index elem sub : Nat) : Option Decl :=
  if 0x6000 ≤ index ∧ index ≤ 0x9FFF then
    s.prog.running.bind (fun im => (imageDecl im index elem sub).bind DictDecl.decl)
  else
    match fixedDecl index elem sub with
    | none => none
    | some d =>
      if index = 0x4100 then
        if sub = 1 then some d
        else if getO s (Obj.eddy.state elem) = 0 then none
        else if 10 ≤ sub ∧ sub ≤ 25 ∧ natO s (Obj.eddy.taps elem) ≤ sub - 10 then none
        else some d
      else if index = 0x4200 ∧ s.rst.rate ≠ 0 ∧ 4096 ≤ elem ∧ elem ≤ 4607 ∧ 16 ≤ elem % 32 then none
      else if index = 0x1610 then some { d with access := regionAccess elem sub d.access }
      else some d

/-! ## The program store (R91, R92) -/

/-- Flash offset of a program store slot (Table 16.8). -/
def storeBase (slot : Nat) : Nat := 0x2000000 + slot * 0x3000000

/-- A byte of the flash, of SRAM, of HBM, of backup SRAM or of the OTP; unlisted bytes read 0 (DESIGN CHOICE, log entry 5). -/
def byteGet (m : Sparse Byte) (a : Nat) : Byte := Sparse.get (fun _ => 0) m a
def bytesGet (m : Sparse Byte) (a n : Nat) : List Byte := Sparse.getMany (fun _ => 0) m a n
def bytesPut (m : Sparse Byte) (a : Nat) (b : List Byte) : Sparse Byte := Sparse.putMany (fun _ => 0) m a b

def flashPut (s : State) (a : Nat) (b : List Byte) : State := { s with bus := { s.bus with flash := bytesPut s.bus.flash a b } }

/-- Changes of a group that are not yet applied. -/
def Group.all (g : Group) : List Change := g.changes ++ g.rest.flatMap (·.1)

/-- Every committed group: waiting, coordinating, held. -/
def committed (s : State) : List Group := s.slu.waiting ++ s.slu.coord.toList ++ s.slu.heldFed.toList

/-- A committed group that waits for its frame writes SWAP_TO. -/
def swapPending (s : State) (slot : Option Nat) : Bool :=
  (committed s).any fun g => g.all.any fun c =>
    c.object == Obj.prog.swapTo && (match slot, c.value with
      | none, _ => true
      | some n, .num v => v == (n : Int)
      | some _, .bytes _ => false)

/-- A slot that holds the running image or that a pending swap names (R91). -/
def slotBusy (s : State) (slot : Nat) : Bool := natO s Obj.prog.activeSlot == slot || swapPending s (some slot)

/-- Mark a store slot unverified; its staged copy is discarded (R91). -/
def unverify (s : State) (slot : Nat) : State :=
  let s := setO s (Obj.prog.slotHash slot) 0
  if natO s Obj.prog.stagedSlot = slot then
    setO { s with prog := { s.prog with staged := none } } Obj.prog.stagedSlot 255
  else s

/-- Bytes of an OTP program-key slot (Table 16.5). -/
def programKey (s : State) (slot : Nat) : List Byte := bytesGet s.bus.otp (0x400 + 128 * slot) 96

/-- The verification ends. Should a swap have been committed since it began, the image the swap needs stays staged. (DEDUCED, log
entry 116.) -/
def execVerifyDone (s : State) : Ans :=
  match s.prog.verifying with
  | none => .next s
  | some slot =>
    let len := natO s Obj.prog.storeLength
    let b := bytesGet s.bus.flash (storeBase slot) len
    let r := verifyImage b len (natO s Obj.ident.fwVersion) s.rst.rate (programKey s) s.prog.running
    let s := setO { s with prog := { s.prog with verifying := none } } Obj.prog.verifyResult r.1
    match r.2 with
    | none => done (if r.1 / 16777216 = 7 then raise s 171 noDetail else s)
    | some im =>
      let s := setO s (Obj.prog.slotHash slot) im.hash
      done (if swapPending s none then s
        else setO { s with prog := { s.prog with staged := some im } } Obj.prog.stagedSlot slot)

/-! ## Eddy descriptors (R99 to R107) -/

def eddyOf (s : State) (d : Nat) : Eddy := Sparse.get (fun _ => Eddy.empty) s.eddy d

def setEddy (s : State) (d : Nat) (e : Eddy) : State :=
  { s with eddy := Sparse.put (fun _ => Eddy.empty) s.eddy d e }

/-- Descriptor numbers in use. -/
def eddyIds (s : State) : List Nat := s.eddy.map (·.1)

/-- OLDEST = max(VALID_FROM, W − LENGTH) (R101). -/
def eddyOldest (s : State) (d : Nat) : Nat :=
  max (natO s (Obj.eddy.validFrom d)) (natO s (Obj.eddy.writeCount d) - natO s (Obj.eddy.length d))

/-- A sample of a ring: 0 at an index that holds no data (R101). -/
def eddySample (s : State) (d : Nat) (e : Eddy) (index : Int) (ch : Nat) : Word :=
  if index < eddyOldest s d ∨ (natO s (Obj.eddy.writeCount d) : Int) ≤ index then 0
  else Sparse.get (fun _ => 0) e.samples (index.toNat * natO s (Obj.eddy.channels d) + ch)

/-- The words a tap delivers to the frame whose write count is `w` (R100): by 8 × position + channel. -/
def tapWords (s : State) (d : Nat) (e : Eddy) (tap w : Nat) : List (Nat × Word) :=
  let age := natO s (Obj.eddy.tap d tap)
  (List.range (frameSamples s)).flatMap fun j =>
    (List.range (natO s (Obj.eddy.channels d))).map fun c =>
      (8 * j + c, eddySample s d e ((w : Int) + j - age) c)

/-- Place a tap's words in its cell; a cluster under reset takes nothing, and neither does a cell in its schedule (R69, R107, R109). -/
def tapPlace (s : State) (e : Eddy) (tap : Nat) (ws : List (Nat × Word)) : State :=
  match e.taps[tap]? with
  | none => s
  | some (cell, base) =>
    if !cellRuns s cell || cellBusy s cell then s
    else setCell s cell (ws.foldl (fun c x => memPut c (base + x.1) x.2) (cellOf s cell))

/-- Deliver a tap's samples for the current frame and remember them. -/
def tapDeliver (s : State) (d tap : Nat) : State :=
  let e := eddyOf s d
  let ws := tapWords s d e tap (natO s (Obj.eddy.writeCount d))
  let e' := { e with delivered := ws.foldl (fun m x => Sparse.put (fun _ => 0) m (128 * tap + x.1) x.2) e.delivered,
                     due := e.due.filter (· != tap) }
  tapPlace (setEddy s d e') e' tap ws

/-- A missed deadline delivers the tap's last data again (R107). -/
def tapRepeat (s : State) (d tap : Nat) : State :=
  let e := eddyOf s d
  let n := frameSamples s
  let ch := natO s (Obj.eddy.channels d)
  let ws := (List.range n).flatMap fun j => (List.range ch).map fun c =>
    (8 * j + c, Sparse.get (fun _ => (0 : Word)) e.delivered (128 * tap + 8 * j + c))
  tapPlace (setEddy s d { e with due := e.due.filter (· != tap) }) e tap ws

/-- A fetch completes: in time for the running frame when it is still due there and the cell's schedule has not begun, else for the
next one (R107). -/
def execEddyFetchDone (desc : Nat) (tap : Fin 16) (s : State) : Ans :=
  let e := eddyOf s desc
  if getO s (Obj.eddy.state desc) = 0 ∨ e.taps.length ≤ tap.val then .next s
  else if e.due.contains tap.val then
    .next (if (e.taps[tap.val]?).any (fun t => cellBusy s t.1) then s else tapDeliver s desc tap)
  else if e.fetched.contains tap.val then .next s
  else done (setEddy s desc { e with fetched := e.fetched ++ [tap.val] })

def execEddyFetchDeadline (desc : Nat) (tap : Fin 16) (s : State) : Ans :=
  if (eddyOf s desc).due.contains tap.val then
    done (raise (bumpO (tapRepeat s desc tap) (Obj.eddy.overruns desc)) 160 desc)
  else .next s

/-- The background copy of a reshaped ring is complete (R103). -/
def execEddyCopyDone (desc : Nat) (s : State) : Ans :=
  if getO s (Obj.eddy.state desc) = 2 then done (setEddy s desc { eddyOf s desc with copied := true }) else .next s

/-- No mark set, and "the current index", as values of MARK (R104). -/
def noMark : Nat := 0xFFFFFFFFFFFFFFFE
def markHere : Nat := 0xFFFFFFFFFFFFFFFF

/-- A valid mark that has left the ring is lost: event 168 (R106). `w` is W at frame f. -/
def markCheck (s : State) (f d w : Nat) : State :=
  if natO s (Obj.eddy.markState d) = 1 ∧ natO s (Obj.eddy.mark d) + natO s (Obj.eddy.length d) ≤ w then
    raiseAt (setO s (Obj.eddy.markState d) 2) f 168 d
  else s

/-- W at the frame whose boundary is being prepared: n on from the running frame's, 0 for a descriptor installed there. -/
def nextW (s : State) (f d : Nat) : Nat :=
  if (eddyOf s d).born = f then natO s (Obj.eddy.writeCount d) else natO s (Obj.eddy.writeCount d) + frameSamples s

/-- Tap ages above a length become length − 1, with event 169 once (R95, R102). -/
def clampTaps (s : State) (f d len : Nat) : State :=
  let tooOld := (List.range (natO s (Obj.eddy.taps d))).filter (fun i => decide (len - 1 < natO s (Obj.eddy.tap d i)))
  if tooOld.isEmpty then s
  else raiseAt (tooOld.foldl (fun s i => setO s (Obj.eddy.tap d i) (len - 1 : Nat)) s) f 169 d

/-- A new LENGTH at frame f (R102). -/
def eddyLength (s : State) (f d len : Nat) : State :=
  let old := natO s (Obj.eddy.length d)
  let w := nextW s f d
  let s := setMany s [(Obj.eddy.validFrom d, ((max (natO s (Obj.eddy.validFrom d)) (w - old) : Nat) : Int)), (Obj.eddy.length d, len),
    (Obj.eddy.state d, 1)]
  let s := setEddy s d { eddyOf s d with copied := false }
  markCheck (clampTaps s f d len) f d w

/-- A new MARK at frame f (R104). -/
def eddyMark (s : State) (f d v : Nat) : State :=
  let w := nextW s f d
  if v = noMark then setMany s [(Obj.eddy.mark d, noMark), (Obj.eddy.markState d, 0)]
  else
    let s := setMany s [(Obj.eddy.mark d, if v = markHere then w else v), (Obj.eddy.markState d, 1)]
    markCheck s f d w

/-- Frame tick for one descriptor: W advances by n, samples out of the ring go, a mark may be lost, fetched taps deliver
their samples and the others stay due (R100, R101, R106, R107). -/
def eddyTick (s : State) (d : Nat) : State :=
  let e := eddyOf s d
  let w := nextW s s.frame d
  let s := setO s (Obj.eddy.writeCount d) w
  let ch := natO s (Obj.eddy.channels d)
  let old := eddyOldest s d
  let taps := List.range e.taps.length
  let s := setEddy s d { e with
    samples := e.samples.filter (fun x => decide (old * ch ≤ x.1))
    due := taps
    fetched := [] }
  let s := markCheck s s.frame d w
  (taps.filter (e.fetched.contains ·)).foldl (fun s t => tapDeliver s d t) s

/-! ## Swaps (R94 to R98) -/

/-- Sample at position j of a claimed DSP output as the schedule left it (R88). -/
def claimSamples (s : State) (c : Claim) : List Int :=
  (List.range (frameSamples s)).map fun j => q23 (memGet (cellOf s c.cell) (c.base + 8 * j + c.lane))

/-- Outputs under the claims in force, by source number; a cluster that does not run is silent (R88, R109). -/
def claimedOutputs (s : State) : Sparse (List Int) :=
  match s.prog.running with
  | none => []
  | some im => (im.claims.filter (fun c => c.direction == 1 && cellRuns s c.cell)).foldl
      (fun m c => Sparse.put (fun _ => []) m c.slot (claimSamples s c)) []

/-- Ranges of words of a memory that the carry map keeps: kind 1 (cells) or 3 (clusters), and carried objects (R95). -/
def carriedRanges (im : Image) (kind target : Nat) : List (Nat × Nat) :=
  (im.carry.filter (fun c => c.kind == kind && c.target == target)).map (fun c => (c.first, c.count))
    ++ (if kind = 1 then
          (im.carry.filter (·.kind == 5)).flatMap fun c =>
            match im.dict.find? (fun d => d.index == c.target && d.sub == c.first % 256) with
            | none => []
            | some d => ((List.range (max c.count 1)).map fun i => d.place (c.first / 65536 + i)).filterMap fun p =>
                if p.1 = target then some (p.2, valueWords d.typ) else none
        else [])

def inRanges (l : List (Nat × Nat)) (a : Nat) : Bool := l.any (fun r => decide (r.1 ≤ a) && decide (a < r.1 + r.2))

/-- Write the words of records that are not kept. -/
def writeRecs (m : Sparse Word) (keep : Nat → Bool) (recs : List InitRec) : Sparse Word :=
  recs.foldl
    (fun m r => ((List.range r.words.length).zip r.words).foldl
      (fun m e => if keep (r.addr + e.1) then m else Sparse.put (fun _ => 0) m (r.addr + e.1) (BitVec.ofNat 32 e.2)) m) m

/-- A memory after a swap: words kept stay, all others take initial values or 0 (R95). -/
def swapMemory (old : Sparse Word) (keep : Nat → Bool) (recs : List InitRec) : Sparse Word :=
  writeRecs (old.filter (fun e => keep e.1)) keep recs

/-- The outgoing program may use a word: its USAGE does not mark it unused; `bitmap` is the offset of the memory's bitmap (R94). -/
def outgoingUses (running : Option Image) (bitmap a : Nat) : Bool :=
  match running with
  | none => false
  | some im => match im.usage with
    | none => true
    | some u => (u.getD (bitmap + a / 64) 0).toNat.testBit (a / 8 % 8)

def cellBitmap (n : Nat) : Nat := 512 * n
def clusterBitmap (n : Nat) : Nat := 65536 + 4096 * n

def inRecs (recs : List InitRec) (a : Nat) : Bool := recs.any (fun r => decide (r.addr ≤ a) && decide (a < r.addr + r.words.length))

/-- Words of a memory that a swap leaves as they are: carried ones, and those that its preparation has written (R94, R95). -/
def swapKeep (s : State) (im : Image) (kind n bitmap : Nat) (recs : List InitRec) : Nat → Bool :=
  let carried := carriedRanges im kind n
  let uses := outgoingUses s.prog.running bitmap
  fun a => inRanges carried a || s.prog.prepared && !uses a && inRecs recs a

/-- A memory as preparation leaves it: initial values in the words the outgoing program does not use, carried ones apart (R94). -/
def backgroundInit (s : State) (m : Sparse Word) (im : Image) (kind n bitmap : Nat) (recs : List InitRec) : Sparse Word :=
  writeRecs m (fun a => inRanges (carriedRanges im kind n) a || outgoingUses s.prog.running bitmap a) recs

/-- Registers an image gives a cell: P, M, N of its CELL_INIT, all else 0 (R58, R95). -/
def initAddrs (i : Option CellInit) : Addrs :=
  match i with
  | none => Addrs.zero
  | some i => ⟨Vector.ofFn fun k => BitVec.ofNat 15 (i.p.getD k.val 0), Vector.ofFn fun k => BitVec.ofNat 32 (i.m.getD k.val 0),
      Vector.ofFn fun k => BitVec.ofNat 16 (i.n.getD k.val 0)⟩

/-- A bank with a cell's CODE section. -/
def codeBank (im : Image) (n : Nat) : Sparse IWord :=
  let words := (assocGet im.code n).getD []
  ((List.range words.length).zip words).foldl (fun m e => Sparse.put (fun _ => (0 : IWord)) m e.1 e.2) []

def loadBank (c : Cell) (bank : Sparse IWord) : Cell :=
  { c with bank0 := if c.bankSel then bank else c.bank0, bank1 := if c.bankSel then c.bank1 else bank }

/-- Init records of a cell, of a cluster memory. -/
def cellRecs (im : Image) (n : Nat) : List InitRec := ((im.cells.find? (·.cell == n)).map (·.recs)).getD []
def clusterRecs (im : Image) (n : Nat) : List InitRec := (assocGet im.clusters n).getD []

/-- One cell across a swap: the other bank with the new code runs; memory and registers under the carry map. -/
def swapCell (im : Image) (keep : Nat → Bool) (n : Nat) (c : Cell) : Cell :=
  let init := im.cells.find? (·.cell == n)
  let c := loadBank c (codeBank im n)
  let regs := im.carry.any (fun x => x.kind == 2 && x.target == n)
  { c with
    mem := swapMemory c.mem keep (cellRecs im n)
    lanes := if regs then c.lanes else .replicate 8 Lane.zero
    addrs := if regs then c.addrs else initAddrs init
    latch := Latch.zero
    loops := []
    pc := 0
    nextPc := 0
    bankSel := !c.bankSel
    active := false
    yields := 0 }

/-- The words of one cluster's memory by address, and back among those of all. -/
def clusterWords (m : Sparse Word) (n : Nat) : Sparse Word := (m.filter (fun e => e.1 / 262144 == n)).map (fun e => (e.1 % 262144, e.2))
def clusterPlace (n : Nat) (m : Sparse Word) : Sparse Word := m.map (fun e => (n * 262144 + e.1, e.2))

/-- One cluster memory across a swap. -/
def swapCluster (im : Image) (keep : Nat → Bool) (m : Sparse Word) (n : Nat) : Sparse Word :=
  clusterPlace n (swapMemory (clusterWords m n) keep (clusterRecs im n))

/-- The preparation of a swap is complete: new code is in the inactive banks, and initial values are where the outgoing program uses
nothing (R94). -/
def prepareSwap (s : State) (im : Image) : State :=
  let cell (n : Nat) : Cell :=
    let c := loadBank (cellOf s n) (codeBank im n)
    { c with mem := backgroundInit s c.mem im 1 n (cellBitmap n) (cellRecs im n) }
  let cluster := (List.range 16).flatMap (fun n =>
    clusterPlace n (backgroundInit s (clusterWords s.bus.cluster n) im 3 n (clusterBitmap n) (clusterRecs im n)))
  let t := (im.code.map (·.1)).foldl (fun t n => setCell t n (cell n)) s
  let t := ((im.cells.map (·.cell)).filter (fun n => (assocGet im.code n).isNone)).foldl (fun t n => setCell t n (cell n)) t
  { t with bus := { t.bus with cluster := cluster }, prog := { t.prog with prepared := true } }

/-- Install a descriptor of the incoming image at frame f, carrying the running one's contents when the map says so. -/
def installEddy (s : State) (f : Nat) (im : Image) (d : EddyDecl) : State :=
  let carried := im.carry.any (fun c => c.kind == 4 && c.target == d.id) && getO s (Obj.eddy.state d.id) != 0
  let e := eddyOf s d.id
  let hadTaps := if carried then natO s (Obj.eddy.taps d.id) else 0
  let taps := d.taps.map (fun t => (t.cell, t.base))
  let s := setMany s [(Obj.eddy.state d.id, 1), (Obj.eddy.location d.id, d.location), (Obj.eddy.homeCluster d.id, ((d.writeCell / 8 : Nat) : Int)),
    (Obj.eddy.channels d.id, d.channels), (Obj.eddy.taps d.id, taps.length)]
  let s := (List.range 16).foldl
    (fun s i => match d.taps[i]? with
      | none => setO s (Obj.eddy.tap d.id i) 0
      | some t => if i < hadTaps then s else setO s (Obj.eddy.tap d.id i) t.age) s
  if carried then
    let s := setEddy s d.id { e with writeCell := d.writeCell, writeBase := d.writeBase, taps := taps }
    clampTaps s f d.id (natO s (Obj.eddy.length d.id))
  else
    let s := setMany s [(Obj.eddy.length d.id, d.length), (Obj.eddy.writeCount d.id, 0), (Obj.eddy.validFrom d.id, 0),
      (Obj.eddy.mark d.id, noMark), (Obj.eddy.markState d.id, 0), (Obj.eddy.markReadOffset d.id, 0), (Obj.eddy.overruns d.id, 0)]
    setEddy s d.id { Eddy.empty with writeCell := d.writeCell, writeBase := d.writeBase, taps := taps, born := f }

/-- Remove a descriptor: only STATE stays assigned, and reads 0 (R99). -/
def removeEddy (s : State) (d : Nat) : State :=
  let s := setEddy s d Eddy.empty
  ((List.range 30).map (· + 1)).foldl (fun s i => setO s (okey 0x4100 d i) (dfltOf (okey 0x4100 d i))) s

/-- LENGTH that the group under preparation gives a descriptor, 0 while none reshapes it. -/
def reshapedLength (s : State) (d : Nat) : Nat :=
  if getO s (Obj.eddy.state d) ≠ 2 then 0
  else
    let l : List Change := (committed s).flatMap Group.changes
    match (l.filter (fun c => c.object == Obj.eddy.length d)).getLast? with
    | some ⟨_, .num v⟩ => v.toNat
    | _ => 0

/-- Words of cluster memory held by Eddy rings, by cluster (Table 4.12): rings in use, the new ring beside one being reshaped, and
old rings until they are freed (R103). -/
def eddyWordsOf (s : State) (cl : Nat) : Nat :=
  (eddyIds s).foldl
    (fun a d => if getO s (Obj.eddy.state d) ≠ 0 ∧ getO s (Obj.eddy.location d) = 0 ∧ natO s (Obj.eddy.homeCluster d) = cl
      then a + (natO s (Obj.eddy.length d) + reshapedLength s d) * natO s (Obj.eddy.channels d) else a)
    (((s.array.held.filter (fun e => e.1 == 16 + cl && decide (s.frame < e.2.2))).map (·.2.1)).foldl (· + ·) 0)

/-- Vectors the crossbar of a cluster moves in a frame: one per entry with cluster memory, one per pair of cells. -/
def exchangeCount (im : Image) (cl : Nat) : Nat :=
  let es := (im.exchange.filter (fun x => x.1 / 8 == cl)).flatMap (·.2)
  es.countP (fun e => e.peer == 8) + (es.countP (fun e => e.peer != 8)) / 2

/-- An object the carry map keeps (kind 5). -/
def objectCarried (im : Image) (index elem sub : Nat) : Bool :=
  im.carry.any (fun c => c.kind == 5 && c.target == index && c.first % 256 == sub && decide (c.first / 65536 ≤ elem)
    && decide (elem < c.first / 65536 + max c.count 1))

/-- Write the default of every declared object that is not carried; `saved` gives a saved value that replaces it (R93). It goes over
words that a region carried by kind 1 holds. (DESIGN CHOICE, log entry 121.) -/
def objectDefaults (s : State) (im : Image) (saved : Nat → Option Int) : State :=
  im.dict.foldl
    (fun s d => (List.range (max d.elements 1)).foldl
      (fun s e => if objectCarried im d.index e d.sub then s
        else progWrite s d e (if 4 ≤ d.flags then (saved (okey d.index e d.sub)).getD d.dflt else d.dflt)) s) s

/-- Writes of frames after f, and changes held for a block, to program objects the incoming image does not declare are discarded
and counted (R98). -/
def dropWrites (s : State) (f : Nat) (im : Image) : State :=
  let gone (c : Change) : Bool :=
    decide (0x6000 ≤ keyIndex c.object ∧ keyIndex c.object ≤ 0x9FFF)
      && (imageDecl im (keyIndex c.object) (keyElem c.object) (keySub c.object)).isNone
  let direct (d : Direct) : Bool := decide (f < d.frame) && gone d.change
  let later (g : Group) : Bool := decide (f < g.target) || g.phase == 3
  let groups := (committed s).filter later
  let n := s.slu.direct.countP direct + s.slu.heldBlock.countP (fun h => gone h.change)
    + groups.foldl (fun a g => a + (g.changes ++ g.rest.flatMap (·.1)).countP gone) 0
  let clean (g : Group) : Group :=
    if later g then { g with changes := g.changes.filter (fun c => !gone c),
                             rest := g.rest.map fun r => (r.1.filter (fun c => !gone c), r.2) } else g
  addO { s with slu := { s.slu with
    direct := s.slu.direct.filter (fun d => !direct d)
    heldBlock := s.slu.heldBlock.filter (fun h => !gone h.change)
    waiting := s.slu.waiting.map clean, coord := s.slu.coord.map clean, heldFed := s.slu.heldFed.map clean } } Obj.prog.swapDrops n

/-- Persistent program objects that take a saved value with the image, carried ones apart (R93). -/
def loadedValues (im : Image) (saved : Nat → Option Int) : List (Nat × Int) :=
  im.dict.flatMap (fun d => (List.range (max d.elements 1)).filterMap (fun e =>
    let k := okey d.index e d.sub
    if d.flags < 4 ∨ objectCarried im d.index e d.sub then none else (saved k).map (fun v => (k, v))))

/-- The control complex's copy of a setting of the running program: the value applied last, else its default (R55). -/
def progCopy (s : State) (d : DictDecl) (k : Nat) : Int := (assocGet s.prog.copies k).getD d.dflt

/-- Swap the staged image of a slot in at frame f (R94, R95, R97): banks, carry map, initial values, descriptors, claims. -/
def swapTo (s : State) (f slot : Nat) (im : Image) (saved : Nat → Option Int) : State :=
  let s := flushObjects s
  let s := { s with prog := { s.prog with oldOut := some (claimedOutputs s) } }
  let o := s
  let s := (List.range 128).foldl
    (fun s n => setCell s n (swapCell im (swapKeep o im 1 n (cellBitmap n) (cellRecs im n)) n (cellOf s n))) s
  let s := { s with
    bus := { s.bus with cluster := (List.range 16).flatMap (fun n =>
      swapCluster im (swapKeep o im 3 n (clusterBitmap n) (clusterRecs im n)) s.bus.cluster n) }
    prog := { s.prog with prepared := false } }
  let s := objectDefaults s im saved
  let s := ((eddyIds s).filter (fun d => im.eddy.all (·.id != d))).foldl removeEddy s
  let s := im.eddy.foldl (fun s d => installEddy s f im d) s
  let carried := s.prog.copies.filter (fun e => objectCarried im (keyIndex e.1) (keyElem e.1) (keySub e.1))
  let s := { s with prog := { s.prog with running := some im, copies := (loadedValues im saved).foldl (fun l e => assocPut l e.1 e.2) carried } }
  let s := (List.range 16).foldl (fun s c => setO s (Obj.clus.exchangeVectors c) (exchangeCount im c)) s
  let s := dropWrites s f im
  let s := setB s Obj.prog.name im.name
  let s := setMany s [(Obj.ident.programHash, im.hash), (Obj.prog.activeSlot, slot), (Obj.prog.lastSwap, f),
    (Obj.clk.scheduleCycles, im.schedule), (Obj.prog.state, 1)]
  raiseAt (bumpO s Obj.prog.swaps) f 170 noDetail

/-- Cells with a CODE section. -/
def codeCells (s : State) : List Nat :=
  match s.prog.running with
  | none => []
  | some im => im.code.map (·.1)

/-- Every cell of every running cluster starts its schedule (R86, R74). -/
def startSchedules (s : State) : State :=
  (codeCells s).foldl
    (fun s n => if cellRuns s n then
        setCell s n { cellOf s n with active := true, yields := 0, nextPc := 0, loops := [] }
      else s) s

/-- A cluster after its block reset (R58, R109): registers and status words cleared under the image, initial values again, the
control complex's copies of RW and WO objects back, rings in its memory restarted empty. Words without an initial value become 0,
and RO, CONST and never-written objects take their DICT default. (DESIGN CHOICE, log entry 113.) -/
def restartCluster (s : State) (cl : Nat) : State :=
  match s.prog.running with
  | none => (List.range 8).foldl (fun s i => setO (setCell s (8 * cl + i) { cellOf s (8 * cl + i) with
      lanes := .replicate 8 Lane.zero, addrs := Addrs.zero, loops := [], active := false, latch := Latch.zero,
      wrapped := false, lostSum := false, saturated := false }) (Obj.clus.cellStatus cl i) 0) s
  | some im =>
    let blank : Image := { im with carry := [] }
    let s := (List.range 8).foldl
      (fun s i =>
        let n := 8 * cl + i
        let c := cellOf s n
        let v := swapCell blank (fun _ => false) n c
        setCell s n { v with bank0 := c.bank0, bank1 := c.bank1, bankSel := c.bankSel, wrapped := false, lostSum := false,
                             saturated := false }) s
    let s := (List.range 8).foldl (fun s i => setO s (Obj.clus.cellStatus cl i) 0) s
    let other := s.bus.cluster.filter (fun e => decide (e.1 / 262144 < cl))
    let above := s.bus.cluster.filter (fun e => decide (cl < e.1 / 262144))
    let s := { s with bus := { s.bus with cluster := other ++ swapCluster blank (fun _ => false) s.bus.cluster cl ++ above } }
    let s := im.dict.foldl
      (fun s d => (List.range (max d.elements 1)).foldl
        (fun s e => if (d.place e).1 / 8 = cl then
            progWrite s d e (progCopy s d (okey d.index e d.sub)) else s) s) s
    (eddyIds s).foldl
      (fun s d => if natO s (Obj.eddy.homeCluster d) = cl ∧ getO s (Obj.eddy.location d) = 0 then
          setEddy (setO s (Obj.eddy.validFrom d) (nextW s (s.frame + 1) d)) d { eddyOf s d with samples := [] }
        else s) s

end Sys2Proof.Machine
end

