-- ==== Sys2Proof/Machine/Confluence.lean ====
section
/-! DEFINITION. Confluence and Rill: generators (R113), crossfades and cuts (R116 to R120), gain steps and link groups (R121
to R123), meters (R125), the TDM ports and Rill routes (R127 to R129). -/

namespace Sys2Proof.Machine

/-! ## Sines in fixed point -/

/-- 2^80, the unit of the sine computation. -/
def sineUnit : Int := 1208925819614629174706176

/-- π / 2 in units of 2^−80. -/
def halfPi : Int := 1898976236818169290393996

/-- Sum of the Taylor series of the sine from a term on; `fuel` bounds the terms. -/
def sineTerms : Nat → Nat → Int → Int → Int
  | 0, _, _, _ => 0
  | fuel + 1, k, x, t => t + sineTerms fuel (k + 2) x (-(t * x / sineUnit * x / sineUnit / ((k + 1 : Nat) * (k + 2 : Nat))))

/-- sin(π / 2 × num / den) for 0 ≤ num ≤ den, in units of 2^−80. -/
def sineQuarter (num den : Nat) : Int := sineTerms 32 1 (halfPi * num / den) (halfPi * num / den)

/-- sin(2π × num / den) in units of 2^−80. -/
def sineTurn (num den : Nat) : Int :=
  let q := 4 * (num % den)
  let r := q % den
  match q / den with
  | 0 => sineQuarter r den
  | 1 => sineQuarter (den - r) den
  | 2 => -sineQuarter r den
  | _ => -sineQuarter (den - r) den

/-- Round a × x (x in units of 2^−80) to the nearest integer, an exact half up: the error of x is far below the margin. -/
def roundSine (a x : Int) : Int := (a * x + sineUnit / 2 + 1099511627776).fdiv sineUnit

/-! ## Test generators (R113, Table 5.2) -/

/-- Frequency in Hz and level in dB of a tone source. -/
def toneOf (num : Nat) : Nat × Int :=
  if num ≤ 8 then (1000, [0, -6, -12, -18, -20, -24, -40, -60].getD (num - 1) 0)
  else ([20, 50, 100, 200, 250, 400, 500, 800, 1000, 2000, 3000, 4000, 6000, 8000, 12000, 16000].getD (num - 9) 0, -18)

/-- A tone's sample i. -/
def toneSample (num fs i : Nat) : Int :=
  let t := toneOf num
  let a : Int := min (tenPower (100 * t.2)) 8388607
  roundSine a (sineTurn (t.1 * i % fs) fs)

/-- Reduce a polynomial over two elements modulo x^23 + x^5 + 1, highest term first; `d` is its degree bound. -/
def polyReduce : Nat → Nat → Nat
  | 0, p => p
  | d + 1, p =>
    let top := d + 1 + 22
    polyReduce d (if p.testBit top then p ^^^ (2 ^ top + 2 ^ (top - 18) + 2 ^ (top - 23)) else p)

/-- Product of two polynomials over two elements, reduced. -/
def polyMul (a b : Nat) : Nat :=
  polyReduce 24 ((List.range 23).foldl (fun p k => if b.testBit k then p ^^^ (a * 2 ^ k) else p) 0)

/-- x^e reduced; `bits` bounds the length of e. -/
def polyPow : Nat → Nat → Nat
  | 0, _ => 1
  | bits + 1, e =>
    let h := polyPow bits (e / 2)
    let q := polyMul h h
    if e % 2 = 1 then polyMul q 2 else q

/-- Bit k of the generator x^23 + x^18 + 1 started with all ones: every stage contributes 1, so it is a parity (R113). -/
def prbsBits (k : Nat) : Nat → List Bool
  | 0 => []
  | n + 1 =>
    let p := polyPow 24 ((k + 23) % 8388607)
    ((List.range 23).foldl (fun b i => b != p.testBit i) false) :: prbsBits (k + 1) n

/-- PRBS word w(i): bits 24i to 24i + 23, the first most significant (R113). -/
def prbsWord (i : Nat) : Int := signed 24 ((prbsBits (24 * i) 24).foldl (fun a b => 2 * a + (if b then 1 else 0)) 0)

/-- round_half_up(v / 2^23). -/
def scale23 (v : Int) : Int := roundShift v 23

def pinkSample (level : Int) (i : Nat) : Int :=
  let p := (List.range 16).foldl (fun a r => a + (prbsWord (i / 2 ^ r * 2 ^ r)).fdiv 16) (0 : Int)
  sat24 (scale23 (p * tenPower (100 * level + 1681)))

def whiteSample (level : Int) (i : Nat) : Int := sat24 (scale23 (prbsWord i * tenPower (100 * level + 477)))

/-- Sample j of frame f from generator `num`; n samples per frame. -/
def generatorSample (num n f j : Nat) : Int :=
  let i := f * n + j
  if num ≤ 24 then toneSample num (6000 * n) i
  else if num ≤ 28 then pinkSample ([-18, -20, -24, -30].getD (num - 25) 0) i
  else if num ≤ 30 then whiteSample ([-18, -20].getD (num - 29) 0) i
  else if num = 31 then prbsWord i
  else if num = 32 then signed 24 (i % 16777216)
  else if j = 0 ∧ f % 6000 = 0 then 8388607 else 0

/-! ## Slots (R110, R111) -/

/-- A source number that Table 5.1 assigns, at the engine's rate. -/
def sourceOk (rate : Nat) (v : Nat) : Bool :=
  if v ≤ 33 then true
  else if v < 64 then false
  else if v < 4160 then true
  else if v < 4672 then rate == 0 || decide ((v - 4160) % 32 < 16)
  else if v < 6976 then true
  else if v < 8192 then false
  else decide (v < 16384)

/-- A destination that the engine's rate leaves assigned (R111). -/
def destOk (rate : Nat) (d : Nat) : Bool := !(rate == 1 && decide (4096 ≤ d ∧ d < 4608) && decide (16 ≤ (d - 4096) % 32))

/-! ## Crossfades -/

/-- q[m] = round(2^23 × sin(π m / 8,192)) (R118). -/
def equalPower (m : Nat) : Int := roundSine 8388608 (sineTurn m 16384)

/-- Weights a_out and a_in of fade sample k of N (R118). -/
def fadeWeights (equal : Bool) (n k : Nat) : Int × Int :=
  if equal then
    let m := (k + 1) * 4096 / n
    (equalPower (4096 - m), equalPower m)
  else
    let a : Int := ((k + 1) * 8388608 / n : Nat)
    (8388608 - a, a)

/-- A weighted sum in units of 2^−23, saturated, and whether it saturated (R116). -/
def mix (aOut sOld aIn sNew : Int) : Int × Bool :=
  let v := scale23 (aOut * sOld + aIn * sNew)
  (sat24 v, over24 v)

/-- T of R119: ZX_TIMEOUT × 48 samples, × 96 at 96 kHz. -/
def zxSamples (s : State) (d : Nat) : Nat := natO s (Obj.dest.zxTimeout d) * (if s.rst.rate = 0 then 48 else 96)

def destOf (s : State) (d : Nat) : Dest := Sparse.get (fun _ => Dest.idle) s.conf.dests d

def setDest (s : State) (d : Nat) (v : Dest) : State :=
  { s with conf := { s.conf with dests := Sparse.put (fun _ => Dest.idle) s.conf.dests d v } }

/-- What one sample of the source side gives: pre-gain u, saturation, the destination, and whose timeout ran out. -/
structure USample where
  u    : Int
  clip : Bool
  dest : Dest
  late : Option Nat
  deriving DecidableEq, Repr

/-- One sample: `s0` of the source in force, `old` of the outgoing source, `look` of the source searched (R118, R119). -/
def uSample (v : Dest) (s0 old look : Int) : USample :=
  match v.cut with
  | some c =>
    if c.count = c.limit then
      let w := fadeWeights false 64 0
      let r := mix w.1 old w.2 s0
      ⟨r.1, r.2, { v with cut := none, fade := some ⟨c.old, 1, 64, false⟩, lastU := r.1, lastS := s0, lastOld := old }, some c.owner⟩
    else if crossing c.prev look then ⟨s0, false, { v with cut := none, lastU := s0, lastS := s0, lastOld := old }, none⟩
    else ⟨old, false, { v with cut := some { c with prev := look, count := c.count + 1 }, lastU := old, lastS := s0, lastOld := old }, none⟩
  | none =>
    match v.fade with
    | some f =>
      let w := fadeWeights f.equal f.n f.k
      let r := mix w.1 old w.2 s0
      let nf := if f.k + 1 = f.n then none else some { f with k := f.k + 1 }
      ⟨r.1, r.2, { v with fade := nf, lastU := r.1, lastS := s0, lastOld := old }, none⟩
    | none => ⟨s0, false, { v with lastU := s0, lastS := s0, lastOld := old }, none⟩

/-- The outgoing source of a destination, 0 when none (OUTGOING). -/
def outgoing (v : Dest) : Nat :=
  match v.cut, v.fade with
  | some c, _ => c.old
  | none, some f => f.old
  | none, none => 0

/-- The source a destination's cut searches. -/
def searched (v : Dest) : Nat := (v.cut.map (·.search)).getD 0

/-- The source side over a frame: pre-gain samples, clips, the destination, and the destinations charged with a timeout. -/
def uFrame : Dest → List (Int × Int × Int) → List Int × Nat × Dest × List Nat
  | v, [] => ([], 0, v, [])
  | v, (a, b, c) :: r =>
    let x := uSample v a b c
    let y := uFrame x.dest r
    (x.u :: y.1, (if x.clip then 1 else 0) + y.2.1, y.2.2.1, x.late.toList ++ y.2.2.2)

/-! ## Gain -/

/-- One sample of the gain side: `cross` says whether the searched signal crosses there, `limit` is T (R121). Answers the
destination, whether the target was reached, and whether the search timed out. -/
def gainSample (v : Dest) (cross : Bool) (limit : Nat) : Dest × Bool × Bool :=
  let rampStep (r : Ramp) : Dest × Bool :=
    let g := r.g0 + ((r.g1 - r.g0) * (r.k + 1 : Nat)).fdiv 64
    if r.k = 63 then ({ v with g := g, ramp := none, target := none, search := none }, true)
    else ({ v with g := g, ramp := some { r with k := r.k + 1 }, search := none }, false)
  match v.ramp with
  | some r => let x := rampStep r; (x.1, x.2, false)
  | none =>
    match v.target, v.search with
    | some t, some n =>
      if limit ≤ n then let x := rampStep ⟨v.g, linearGain t, 0⟩; (x.1, x.2, true)
      else if cross then ({ v with g := linearGain t, target := none, search := none }, true, false)
      else ({ v with search := some (n + 1) }, false, false)
    | _, _ => (v, false, false)

/-- The gain side over a frame: samples delivered, clips, the destination, the GAIN value reached last, timeouts. -/
def gainFrame (limit : Nat) : Dest → Int → List (Int × Int) → List Int × Nat × Dest × Option Int × Bool
  | v, _, [] => ([], 0, v, none, false)
  | v, prev, (u, look) :: r =>
    let x := gainSample v (crossing prev look) limit
    let p := scale23 (u * x.1.g)
    let y := gainFrame limit x.1 look r
    let got := match y.2.2.2.1 with
      | some g => some g
      | none => if x.2.1 then v.target else none
    (sat24 p :: y.1, (if over24 p then 1 else 0) + y.2.1, y.2.2.1, got, x.2.2 || y.2.2.2.2)

/-! ## Link groups (R123) -/

/-- Destinations that hold a link group number. -/
def linkMembers (s : State) (g : Nat) : List Nat :=
  (s.obj.filter (fun e => keyIndex e.1 == 0x4200 && keySub e.1 == 6 && e.2 == (g : Int))).map (fun e => keyElem e.1)

/-- The lead of a destination's group, or the destination itself. -/
def leadOf (s : State) (d : Nat) : Nat :=
  let g := natO s (Obj.dest.linkGroup d)
  if g = 0 then d else ((linkMembers s g).find? (fun m => getO s (Obj.dest.linkLead m) == 1)).getD d

/-- The lead's SOURCE also changed in this frame: its held outgoing source (R123). -/
def leadSource (s : State) (d f : Nat) : Option (Nat × Nat) :=
  let l := leadOf s d
  if l = d then none
  else
    match (destOf s l).changed with
    | some (cf, old) => if cf = f then some (l, old) else none
    | none => none

/-! ## Changes at a frame (R115, R118 to R123) -/

/-- The source held when an earlier change is still in progress, and its last sample (R120). -/
def heldSource (v : Dest) : Nat × Int :=
  match v.cut, v.fade with
  | some c, _ => (c.old, v.lastOld)
  | none, some f =>
    let w := fadeWeights f.equal f.n (f.k - 1)
    if f.k ≠ 0 ∧ w.2 < w.1 ∨ f.k = 0 then (f.old, v.lastOld) else (v.src, v.lastS)
  | none, none => (v.src, v.lastS)

/-- A new SOURCE at frame f (R118 to R120). -/
def applySource (s : State) (f d new : Nat) : State :=
  let v := destOf s d
  if new = natO s (Obj.dest.source d) then s
  else
    let s := setO s (Obj.dest.source d) new
    let (held, last) := heldSource v
    let v := { v with fade := none, cut := none, src := new, lastOld := last, changed := some (f, held) }
    if new = held then setDest s d { v with lastS := last }
    else
      match natO s (Obj.dest.xfMode d) with
      | 0 => setDest s d { v with cut := some ⟨held, held, last, 0, zxSamples s d, d, f⟩ }
      | m => setDest s d { v with fade := some ⟨held, 0, natO s (Obj.dest.xfLength d), m == 2⟩ }

/-- Restart the gain search of every member of a group that has a pending target. -/
def restartSearch (s : State) (g : Nat) : State :=
  (linkMembers s g).foldl
    (fun s m =>
      let v := destOf s m
      if v.target.isSome && v.ramp.isNone then setDest s m { v with search := some 0 } else s) s

/-- A new GAIN at a frame (R121 to R123). -/
def applyGain (s : State) (d : Nat) (gain : Int) : State :=
  if gain = getO s (Obj.dest.gain d) then s
  else
    let s := setO s (Obj.dest.gain d) gain
    let v := destOf s d
    let s :=
      if linearGain gain = v.g then
        setO (setDest s d { v with target := none, search := none, ramp := none }) (Obj.dest.liveGain d) gain
      else setDest s d { v with target := some gain, search := some 0, ramp := none }
    let g := natO s (Obj.dest.linkGroup d)
    if g = 0 then s else restartSearch s g

/-- The running search of a group: the samples searched of some pending member. -/
def groupSearch (s : State) (g d : Nat) : Option Nat :=
  ((linkMembers s g).filter (· != d)).findSome? (fun m => (destOf s m).search)

/-- A new LINK_GROUP at a frame: a pending target goes along; the group held already changes nothing (R123). -/
def applyLink (s : State) (d : Nat) (g : Nat) : State :=
  if g = natO s (Obj.dest.linkGroup d) then s else
  let s := setO s (Obj.dest.linkGroup d) g
  let v := destOf s d
  if v.target.isNone || v.ramp.isSome then s
  else setDest s d { v with search := some (if g = 0 then 0 else (groupSearch s g d).getD 0) }

/-! ## The route pass (R27, R116, R123, R125) -/

/-- At the first pass of a cut, the member follows the lead when the lead's SOURCE changed in the same frame (R123). -/
def resolveCut (s : State) (f d : Nat) (v : Dest) : Dest :=
  match v.cut with
  | none => v
  | some c =>
    if c.frame ≠ f ∨ c.count ≠ 0 then v
    else
      match leadSource s d f with
      | none => v
      | some (l, old) => { v with cut := some { c with search := old, limit := zxSamples s l, owner := l, prev := (destOf s l).lastOld } }

/-- The samples of three sources side by side, n of them; missing samples are 0. -/
def sideBySide (n : Nat) (a b c : List Int) : List (Int × Int × Int) :=
  (List.range n).map fun j => (a.getD j 0, b.getD j 0, c.getD j 0)

/-- Raise a timeout once at each destination charged, and count it there (R119, R121, R123). -/
def chargeTimeouts (s : State) (l : List Nat) : State :=
  (l.eraseDups).foldl (fun s d => bumpO (raise s 167 d) (Obj.dest.zxTimeouts d)) s

/-- Meter the samples of a destination at its METER_POINT (R125). -/
def meterDest (s : State) (d : Nat) (v : Dest) (us ys : List Int) : Dest :=
  let xs := if getO s (Obj.dest.meterPoint d) = 1 then us else ys
  { v with
    peak := xs.foldl (fun m x => max m x.natAbs) v.peak
    squares := (xs.foldl (fun m x => m + x.natAbs * x.natAbs) 0 :: v.squares).take 6000 }

/-- Weight of sample j delivered by this route pass, as a fraction: it plays at index i of the next frame, inside the 12
frames of fade before B or after it (R287). (DEDUCED, log entry 41.) -/
def reframeWeight (s : State) (j : Nat) : Option (Nat × Nat) :=
  let n := frameSamples s
  let i := n * (s.frame + 1) + j
  let coming := match s.sel.pending.filter (·.reframe) with
    | some p => some p.frame
    | none => (s.sel.steps.filter (·.2.2)).map (·.1)
  match coming, s.conf.reframe with
  | some b, r =>
    if n * b ≤ i then some (i - n * b + 1, 12 * n)
    else if n * b ≤ i + 12 * n then some (n * b - i, 12 * n)
    else r.bind (fun e => if n * e.1 ≤ i ∧ i < n * e.1 + 12 * n then some (i - n * e.1 + 1, 12 * n) else none)
  | none, some e => if n * e.1 ≤ i ∧ i < n * e.1 + 12 * n then some (i - n * e.1 + 1, 12 * n) else none
  | none, none => none

/-- The samples a destination delivers under the fades of a reframe, which reach destinations 0 to 6,655 (R287). -/
def reframeFade (s : State) (d : Nat) (ys : List Int) : List Int :=
  if 6655 < d then ys
  else
    (List.range ys.length).map fun j =>
      match reframeWeight s j with
      | some (a, b) => (2 * ys.getD j 0 * (a : Nat) + (b : Nat)).fdiv (2 * (b : Nat))
      | none => ys.getD j 0

/-- The route pass of the current frame; `src` gives the samples of a source in it. -/
def routePass (s : State) (src : Nat → List Int) : State :=
  let n := frameSamples s
  let ids := s.conf.dests.map (·.1)
  let first := ids.map fun d =>
    let v := resolveCut s s.frame d (destOf s d)
    (d, v.lastU, uFrame v (sideBySide n (src v.src) (src (outgoing v)) (src (searched v))))
  let cutLate := first.flatMap (fun e => e.2.2.2.2.2)
  let uOf (d : Nat) : Int × List Int := ((first.find? (·.1 == d)).map (fun e => (e.2.1, e.2.2.1))).getD (0, [])
  let second := first.map fun e =>
    let lead := leadOf s e.1
    let look := uOf lead
    let us := e.2.2.1
    let r := gainFrame (zxSamples s lead) e.2.2.2.2.1 look.1 ((List.range n).map fun j => (us.getD j 0, look.2.getD j 0))
    (e.1, lead, us, e.2.2.2.1 + r.2.1, meterDest s e.1 { r.2.2.1 with y := reframeFade s e.1 r.1 } us r.1, r.2.2.2.1, r.2.2.2.2)
  let gainLate := second.filterMap (fun e => if e.2.2.2.2.2.2 then some e.2.1 else none)
  let s := second.foldl
    (fun s e =>
      let s := setDest s e.1 e.2.2.2.2.1
      let s := if e.2.2.2.1 = 0 then s else addO s (Obj.dest.clips e.1) e.2.2.2.1
      match e.2.2.2.2.2.1 with
      | some g => setO s (Obj.dest.liveGain e.1) g
      | none => s) s
  let s := chargeTimeouts (chargeTimeouts s cutLate) gainLate
  { s with conf := { s.conf with meterRun := s.conf.meterRun + 1, tdm := { s.conf.tdm with
      playing := s.conf.tdm.routed
      routed := (s.conf.dests.filter (fun e => e.2.y.any (· != 0))).map (fun e => (e.1, e.2.y)) } } }

/-- STATE of a destination (Table 5.3). -/
def destState (v : Dest) : Nat :=
  (if v.fade.isSome then 1 else 0) + (if v.cut.isSome then 2 else 0)
    + (if v.target.isSome && v.search.isSome && v.ramp.isNone then 4 else 0) + (if v.ramp.isSome then 8 else 0)

/-- A cut whose T samples have passed at the boundary now running starts its fade; answers the destination charged (R119, R123). -/
def zxCut (s : State) (d : Nat) : State × List Nat :=
  let v := destOf s d
  match v.cut with
  | none => (s, [])
  | some c =>
    if c.count = c.limit then (setDest s d { v with cut := none, fade := some ⟨c.old, 0, 64, false⟩ }, [c.owner]) else (s, [])

/-- A pending gain whose T samples have passed at the boundary now running starts its ramp; answers the lead charged (R121, R123). -/
def zxGain (s : State) (d : Nat) : State × List Nat :=
  let v := destOf s d
  match v.target, v.search, v.ramp with
  | some t, some n, none =>
    if zxSamples s (leadOf s d) ≤ n then
      (setDest s d { v with ramp := some ⟨v.g, linearGain t, 0⟩, search := none }, [leadOf s d])
    else (s, [])
  | _, _, _ => (s, [])

/-- The destinations a timeout at `dest` moves: those of its link group with it. -/
def zxGroup (s : State) (dest : Nat) : List Nat :=
  let g := natO s (Obj.dest.linkGroup dest)
  if g = 0 then [dest] else (dest :: linkMembers s g).eraseDups

/-- ZX_TIMEOUT as an event of its own: the searches of the destination and its group whose T samples have passed start their fades
and ramps; a timeout is charged once, also in a group. -/
def execZxTimeout (dest : Nat) (s : State) : Ans :=
  let ds := zxGroup s dest
  let cuts := ds.foldl (fun (a : State × List Nat) d => let r := zxCut a.1 d; (r.1, a.2 ++ r.2)) (s, [])
  let gains := ds.foldl (fun (a : State × List Nat) d => let r := zxGain a.1 d; (r.1, a.2 ++ r.2)) (cuts.1, [])
  done (chargeTimeouts (chargeTimeouts gains.1 cuts.2) gains.2)

/-! ## Meters (R125) -/

/-- 2,000: hundredths of a decibel per factor of ten in amplitude, twice. -/
def levelPower : Nat := 2000

/-- A level in 0.01 dBFS of a squared ratio num / den: round(1,000 × log10), within ±2 (R125, log entry 13). -/
def levelOf (num den err : Nat) : Int :=
  if num = 0 then -32768
  else
    let ok (x : Nat) : Bool :=
      let g : Int := (x : Int) - 20000
      let e := 2 * g - 1
      if 0 ≤ e then decide (10 ^ e.toNat * den ^ levelPower ≤ num ^ levelPower) else decide (den ^ levelPower ≤ num ^ levelPower * 10 ^ (-e).toNat)
    (searchMax ok 15 0 : Int) - 20000 + ((Config.meterError err % 5 : Nat) : Int) - 2

/-- The end of a meter period: PEAK and RMS of every destination (R125). -/
def meterDests (s : State) : State :=
  let win := natO s Obj.meter.rmsWindow
  let n := frameSamples s
  let s := s.conf.dests.foldl
    (fun s e =>
      let v := destOf s e.1
      let sq := (v.squares.take win).foldl (· + ·) 0
      let s := setMany s [(Obj.dest.peak e.1, levelOf (v.peak * v.peak) (2 ^ 46) s.fresh),
        (Obj.dest.rms e.1, levelOf sq (2 ^ 46 * win * n) (s.fresh + 1))]
      setDest { s with fresh := s.fresh + 2 } e.1 { v with peak := 0, clips := natO s (Obj.dest.clips e.1) }) s
  { s with conf := { s.conf with meterFrame := s.frame, meterRun := 0 } }

/-! ## TDM ports and Rill (R127, R128, R412) -/

def rillOf (s : State) (n : Nat) : Rill := Sparse.get (fun _ => Rill.idle) s.conf.rills n

def setRill (s : State) (n : Nat) (v : Rill) : State :=
  { s with conf := { s.conf with rills := Sparse.put (fun _ => Rill.idle) s.conf.rills n v } }

/-- Input and output of a route as 32 × port + slot. -/
def rillIn (s : State) (n : Nat) : Nat := 32 * natO s (Obj.rill.inPort n) + natO s (Obj.rill.inSlot n)
def rillOut (s : State) (n : Nat) : Nat := 32 * natO s (Obj.rill.outPort n) + natO s (Obj.rill.outSlot n)

/-- Clock group of a slot code: ports 4g to 4g + 3 (R404). -/
def groupOf (code : Nat) : Nat := code / 128

/-- Format of a clock group: 0 TDM with 32-bit slots, 1 left-justified, 2 delayed-frame two-slot; and whether the engine is its clock
master (R412, Table 14.5). No object holds another port configuration: the option bytes stay in force. (DESIGN CHOICE, log entry
136.) -/
def groupFormat (s : State) (g : Nat) : Nat := optionField s 122 1 / 4 ^ g % 4
def groupMaster (s : State) (g : Nat) : Bool := (optionField s 121 1).testBit g

/-- Slots that a port of a clock group carries; the two-slot formats carry slots 0 and 1 only (R111, R412). -/
def groupSlots (s : State) (g : Nat) : Nat := if groupFormat s g ≠ 0 then 2 else if s.rst.rate = 0 then 32 else 16

/-- The samples of a clock group's slots. -/
def inGroup (s : State) (g : Nat) (l : List (Nat × Int)) : List (Nat × Int) :=
  l.filter (fun e => groupOf e.1 == g && decide (e.1 % 32 < groupSlots s g))

/-- Another enabled route drives the output slot of route n (R126). -/
def rillTaken (s : State) (n : Nat) : Bool :=
  (List.range 256).any (fun m => m != n && getO s (Obj.rill.enable m) == 1 && rillOut s m == rillOut s n)

/-- A route's ENABLE changes at its boundary (R128). -/
def applyRillEnable (s : State) (n : Nat) (v : Int) : State :=
  let s := setO s (Obj.rill.enable n) v
  let r := rillOf s n
  if v = 1 then
    if r.mode = 0 ∨ r.mode = 3 then setRill s n { r with mode := 1, fade := 0, fadeLen := 64, g := linearGain (getO s (Obj.rill.gain n)), ramp := none, last := none }
    else s
  else if r.mode = 1 ∨ r.mode = 2 then setRill s n { r with mode := 3, fade := 0, fadeLen := 64 }
  else s

/-- A route's GAIN changes at its boundary: a 64-sample ramp without a search (R128). -/
def applyRillGain (s : State) (n : Nat) (v : Int) : State :=
  let s := setO s (Obj.rill.gain n) v
  let r := rillOf s n
  if r.mode = 0 then setRill s n { r with g := linearGain v, ramp := none }
  else setRill s n { r with ramp := some ⟨r.g, linearGain v, 0⟩ }

/-- The gain of a route at one sample, and its ramp one step on. -/
def rillGain (r : Rill) : Int × Rill :=
  match r.ramp with
  | none => (r.g, r)
  | some p =>
    let g := p.g0 + ((p.g1 - p.g0) * (p.k + 1 : Nat)).fdiv 64
    (g, { r with g := g, ramp := if p.k = 63 then none else some { p with k := p.k + 1 } })

/-- The sample a route puts on its slot, over what Confluence would play there (R127 to R129). -/
def rillPlay (r : Rill) (x conf : Int) : Int × Rill :=
  let (g, r) := rillGain r
  let boot := decide (64 < r.fadeLen)
  let g' := if r.mode = 1 ∧ boot then g * (r.fade + 1 : Nat) / (r.fadeLen : Nat) else g
  let v := sat24 (scale23 (x * g'))
  match r.mode with
  | 1 =>
    let w := fadeWeights false 64 r.fade
    let out := if boot then v else (mix w.1 conf w.2 v).1
    (out, if r.fade + 1 = r.fadeLen then { r with mode := 2, fade := 0, fadeLen := 64 } else { r with fade := r.fade + 1 })
  | 2 => (v, r)
  | 3 =>
    let w := fadeWeights false 64 r.fade
    ((mix w.1 v w.2 conf).1, if r.fade + 1 = 64 then { r with mode := 0, fade := 0 } else { r with fade := r.fade + 1 })
  | _ => (conf, r)

/-- A slip: counted at the route and in the health report, event 172 (R15, R127). -/
def rillSlip (s : State) (n : Nat) : State := raise (bumpO (bumpO s (Obj.rill.slips n)) Obj.health.tdmSlips) 172 n

/-- Routes in use. -/
def liveRills (s : State) : List Nat := (List.range 256).filter (fun n => (rillOf s n).mode != 0)

/-- Number of the TDM frame of a clock group that begins (R127). -/
def tdmNumber (s : State) (g : Nat) : Nat := frameSamples s * s.rst.upFrames + s.conf.tdm.position.getD g 0

/-- A group captures the samples of a TDM frame. -/
def hear (s : State) (g num : Nat) (samples : List (Nat × Int)) : State :=
  let t := s.conf.tdm
  { s with conf := { s.conf with tdm := { t with heard := t.heard.set g (((num, samples) :: t.heard.getD g []).take 4) } } }

/-- The TDM frame a route plays in frame `num` of its output group: within one group the one before, between groups the second one
before. -/
def rillSource (s : State) (n num : Nat) : Option (Nat × List (Nat × Int)) :=
  let h := s.conf.tdm.heard.getD (groupOf (rillIn s n)) []
  if groupOf (rillIn s n) = groupOf (rillOut s n) then h.head? else h.find? (fun e => decide (e.1 + 2 ≤ num))

/-- One route in a TDM frame of its output group. Between groups a frame repeated or dropped is a slip. -/
def rillOutput (s : State) (n num : Nat) (conf : Int) : Int × State :=
  let r := rillOf s n
  let c := rillSource s n num
  let p := rillPlay r ((c.bind (fun e => assocGet e.2 (rillIn s n))).getD 0) conf
  let slips := groupOf (rillIn s n) != groupOf (rillOut s n) && (match c, r.last with
    | some e, some m => e.1 != m + 1
    | _, _ => false)
  let s := setRill s n { p.2 with last := c.map (·.1) }
  (p.1, if slips then rillSlip s n else s)

/-- The samples a group plays at a position of the media frame, by slot code. -/
def confluenceSlots (s : State) (g pos : Nat) : List (Nat × Int) :=
  (List.range 128).map fun i =>
    let code := 128 * g + i
    (code, (Sparse.get (fun _ => ([] : List Int)) s.conf.tdm.playing (4096 + code)).getD pos 0)

/-- An output port is driven: in Trickle only a port that an enabled boot route names (R350, Table 14.10). -/
def portDriven (s : State) (g port : Nat) : Bool :=
  s.conf.tdm.driving.getD g false && s.jtag.ir != .extest &&
    (decide (2 ≤ stageOf s) || (liveRills s).any (fun n => natO s (Obj.rill.outPort n) == port))

/-- The tick that comes is delayed by a reframe: silence fills the gap (R287). -/
def reframeNext (s : State) : Bool :=
  s.sel.pending.any (fun p => p.reframe && p.frame == s.frame + 1) || s.sel.steps.any (fun p => p.2.2 && p.1 == s.frame + 1)
    || s.conf.reframe.any (fun r => r.1 == s.frame + 1)

/-- A sample crossfaded from the one held before a splice, over 8 samples (R285). -/
def spliceMix (k : Nat) (h x : Int) : Int :=
  let w := fadeWeights false 8 k
  scale23 (w.1 * h + w.2 * x)

def spliceOut (held : Option (Sparse Int)) (k code : Nat) (x : Int) : Int :=
  match held with
  | some m => if k < 8 then spliceMix k (Sparse.get (fun _ => 0) m code) x else x
  | none => x

/-- One TDM frame of a clock group (R15, R127): positions played and captured, Rill routes, drive changes. A slip with a
positive operand repeats an input sample and drops an output sample, a negative one the reverse; a group that the engine clocks does
not slip. -/
def execTdmFrame (group : Fin 4) (samples : List (Nat × Int)) (slip : Option Int) (s : State) : Ans :=
  let g := group.val
  let t := s.conf.tdm
  if !t.running then .next s
  else
    let samples := inGroup s g samples
    let slip := slip.filter (fun _ => !groupMaster s g)
    let s := { s with conf := { s.conf with tdm := { t with driving := t.driving.set g t.driveNext } } }
    let n := frameSamples s
    let num := tdmNumber s g
    let skip := match slip with
      | some v => if 0 < v then 1 else 0
      | none => 0
    let hold := match slip with
      | some v => decide (v ≤ 0)
      | none => false
    let place := t.position.getD g 0 + skip
    let pos := min place (n - 1)
    let mute := decide (stageOf s < 2) || (decide (n ≤ place) && reframeNext s)
    let base := if mute then (List.range 128).map (fun i => (128 * g + i, (0 : Int)))
      else (confluenceSlots s g pos).map (fun e => (e.1, spliceOut t.outFade place e.1 e.2))
    let outs := (liveRills s).filter (fun r => groupOf (rillOut s r) == g)
    let played := outs.foldl
      (fun (a : List (Nat × Int) × State) r =>
        let code := rillOut a.2 r
        let x := rillOutput a.2 r num ((assocGet a.1 code).getD 0)
        (a.1.map (fun e => if e.1 = code then (code, x.1) else e), x.2)) (base, s)
    let s := hear played.2 g num samples
    let reps := if skip = 1 then 2 else if hold then 0 else 1
    let cap := samples.foldl
      (fun m e => Sparse.put (fun _ => []) m e.1
        (List.replicate reps (signed 24 (wrapTo 24 e.2)) ++ Sparse.get (fun _ => []) m e.1)) s.conf.tdm.capture
    let next := if hold then t.position.getD g 0 else pos + 1
    let s := { s with conf := { s.conf with tdm := { s.conf.tdm with capture := cap, position := s.conf.tdm.position.set g next } } }
    let kept := base.foldl (fun m e => Sparse.put (fun _ => 0) m e.1 e.2) s.conf.tdm.lastOut
    let s := { s with conf := { s.conf with tdm := { s.conf.tdm with lastOut := kept } } }
    let s := if slip.isSome then raise (bumpO s Obj.health.tdmSlips) 172 g else s
    let clock := groupMaster s g && s.conf.tdm.driving.getD g false && s.jtag.ir != .extest
    done (emit s (.tdm g pos clock ((inGroup s g played.1).filter (fun e => portDriven s g (e.1 / 32)))))

/-- STATE of a route (Table 5.6). -/
def rillState (s : State) (n : Nat) : Nat :=
  let r := rillOf s n
  if r.mode ≠ 0 ∧ !s.conf.tdm.running then 4 else r.mode

/-- What a splice makes of a slot's capture of the frame that ends: n samples, the last one repeated (R285). -/
def spliceIn (n : Nat) (xs : List Int) : List Int :=
  match xs.getLast? with
  | some l => (xs ++ List.replicate (n - xs.length) l).take n
  | none => []

/-- Samples of a slot's capture crossfaded from the last sample delivered before a splice (R285). -/
def spliceFade (held : Option (Sparse Int)) (code : Nat) (xs : List Int) : List Int :=
  match held with
  | some m => (List.range xs.length).map (fun k =>
      if k < 8 then spliceMix k (Sparse.get (fun _ => 0) m code) (xs.getD k 0) else xs.getD k 0)
  | none => xs

/-- The frame tick for the TDM ports: the capture of the media frame that ends is complete (R17), and a splice or reframe at
this tick starts its crossfades (R285, R287). -/
def tdmTick (s : State) (ended : Nat) : State :=
  let t := s.conf.tdm
  let spliced := s.conf.splice.any (fun e => e.1 == s.frame)
  let delayed := s.conf.reframe.any (fun e => e.1 == s.frame)
  let whole (e : Nat × List Int) : Nat × List Int :=
    (e.1, spliceFade t.inFade e.1 (if spliced || delayed then spliceIn (frameSamples s) e.2.reverse else e.2.reverse))
  let cap := t.capture.map whole
  let lasts := cap.foldl (fun m e => Sparse.put (fun _ => 0) m e.1 (e.2.getLast?.getD 0)) ([] : Sparse Int)
  { s with conf := { s.conf with tdm := { t with
      capture := []
      frames := ((ended, cap) :: t.frames).take 4
      adopted := t.adopted.take 4
      position := [0, 0, 0, 0]
      outFade := if spliced then some t.lastOut else none
      inFade := if spliced || delayed then some lasts else none } } }

end Sys2Proof.Machine
end

