-- ==== Sys2Proof/Machine/Catchment.lean ====
section
/-! DEFINITION. Catchment: array ingest and merge (R148 to R159), the channeliser (R160 to R168), the correlator (R169 to
R188), beams (R189 to R204) and scan maps (R205 to R210). -/

namespace Sys2Proof.Machine

/-! ## Values in force at an earlier frame (R156) -/

/-- The value a key held at frame n: changes of later frames are undone. -/
def valAt (s : State) (n k : Nat) : Val :=
  match s.array.olds.find? (fun e => decide (n < e.1) && e.2.object == k) with
  | some e => e.2.value
  | none => .num (getO s k)

def numAt (s : State) (n k : Nat) : Int :=
  match valAt s n k with
  | .num v => v
  | .bytes _ => 0

def natAt (s : State) (n k : Nat) : Nat := (numAt s n k).toNat

def blobAt (s : State) (n k : Nat) : List Byte :=
  match s.array.olds.find? (fun e => decide (n < e.1) && e.2.object == k) with
  | some ⟨_, _, .bytes b⟩ => b
  | _ => getB s k

/-- Remember what an object held before frame f. -/
def recordOld (s : State) (f k : Nat) (v : Val) : State :=
  { s with array := { s.array with olds := s.array.olds.filter (fun e => decide (f < e.1 + 6400)) ++ [(f, ⟨k, v⟩)] } }

/-- A numeric Catchment object changes at frame f. -/
def setCatch (s : State) (f k : Nat) (v : Int) : State := setO (recordOld s f k (.num (getO s k))) k v

/-- The engine belongs to a pair: frames are consumed and made available two frames later (R154, R162). -/
def inPair (s : State) : Bool := s.rst.pairEnable

/-- Frames from the samples of a frame to their consumption (R153, R154). -/
def ingestLag (s : State) : Nat := if inPair s then 4 else 2

/-- The frame at which subband sample m becomes available (R162). -/
def availFrame (s : State) (m : Nat) : Nat := 16 * m + (if inPair s then 34 else 32)

/-- Catchment runs: its channeliser has started, it is not under block reset, and its domain is ON (R347, R357). -/
def catchRuns (s : State) : Bool := s.array.running && !inReset s 16 && getO s (Obj.pwr.state 16) == 0

/-! ## Array blocks (R151 to R153) -/

/-- The fields of an array block as it lies in a message (Table 7.3). -/
def parseBlock (link : Nat) (b : List Byte) : ArrBlock :=
  let c := beNat ((b.drop 15).take 1)
  ⟨link, beNat ((b.drop 2).take 2), beNat ((b.drop 4).take 4), beNat ((b.drop 8).take 6), beNat ((b.drop 14).take 1), c,
    beNat ((b.drop 16).take 16), (chunks 3 (8 * c) ((b.drop 32).take (24 * c))).map (fun x => signed 24 (beNat x)),
    beNat ((b.drop (36 + 24 * c)).take 4)⟩

/-- A check of R152 fails. -/
def blockBad (s : State) (b : List Byte) : Bool :=
  let v := parseBlock 0 b
  b.length != 40 + 24 * v.channels || crc32 (b.take (36 + 24 * v.channels)) != v.crc
    || beNat (b.take 1) != 1 || beNat ((b.drop 1).take 1) != 0 || beNat ((b.drop (32 + 24 * v.channels)).take 4) != 0
    || v.channels == 0 || decide (128 < v.first + v.channels) || decide (s.frame + 64 < v.frame)

/-- An array block arrives (R152, R154): counted, and held for its frame unless it is bad or late (DEDUCED, log entry 27). -/
def execArrayBlock (f : BraidFrame) (s : State) : Ans :=
  let r := receive s f
  let s := r.1
  if !r.2 || inReset s 16 || !(f.link.val == 2 || f.link.val == 3) then done s
  else if blockBad s (frameBytes f) then done (bumpO s Obj.chan.badBlocks)
  else
    let v := parseBlock f.link (frameBytes f)
    if v.frame + 2 ≤ s.frame then done (bumpO s Obj.chan.lateBlocks)
    else
      let s := bumpO s (if f.link.val = 2 then Obj.chan.blocksBl2 else Obj.chan.blocksBl3)
      done (if v.frame < s.array.base then s else { s with array := { s.array with copies := s.array.copies ++ [v] } })

/-- SEQ a comes before b in serial-number arithmetic. -/
def seqBefore (a b : Nat) : Bool := a != b && decide ((b + 4294967296 - a) % 4294967296 < 2147483648)

/-- Insert a block in SEQ order. -/
def insertBlock (b : ArrBlock) : List ArrBlock → List ArrBlock
  | [] => [b]
  | a :: r => if seqBefore b.seq a.seq then b :: a :: r else a :: insertBlock b r

/-- What selection gives: blocks in SEQ order, duplicates, mismatches (R153). -/
structure Selected where
  blocks : List ArrBlock
  dups   : Nat
  diffs  : Nat
  deriving DecidableEq, Repr

/-- One copy of each SEQ among the copies of a frame: per link with MERGE 0, the BL2 copy first with MERGE 1. -/
def selectBlocks (merge : Bool) (all : List ArrBlock) : Selected :=
  let same (a b : ArrBlock) : Bool := a.seq == b.seq && (merge || a.link == b.link)
  all.foldl
    (fun r b =>
      match r.blocks.find? (same b) with
      | none => { r with blocks := insertBlock b r.blocks }
      | some a =>
        let better := b.link == 2 && a.link != 2
        let diff := merge && a.link != b.link && { a with link := 0 } != { b with link := 0 }
        { blocks := if better then r.blocks.map (fun x => if same b x then b else x) else r.blocks
          dups := r.dups + 1
          diffs := r.diffs + (if diff then 1 else 0) })
    ⟨[], 0, 0⟩

/-- A block covers a channel of a concentrator. -/
def ArrBlock.covers (b : ArrBlock) (conc ch : Nat) : Bool :=
  b.concentrator == conc && decide (b.first ≤ ch) && decide (ch < b.first + b.channels)

/-- Channels that a later block of the list covers again. -/
def clashes (merge : Bool) : List ArrBlock → Nat
  | [] => 0
  | b :: r =>
    (List.range b.channels).countP
      (fun i => r.any (fun a => (merge || a.link == b.link) && a.covers b.concentrator (b.first + i))) + clashes merge r

/-! ## Elements (R155 to R159) -/

def elemOf (s : State) (e : Nat) : Elem := Sparse.get (fun _ => Elem.idle) s.array.elems e

def setElem (s : State) (e : Nat) (v : Elem) : State :=
  { s with array := { s.array with elems := Sparse.put (fun _ => Elem.idle) s.array.elems e v } }

/-- Groups set in a GROUP_ENABLE value, ascending. -/
def groupList (v : Nat) : List Nat := (List.range 64).filter (fun g => v.testBit g)

/-- Slots of groups. -/
def slotsOf (gs : List Nat) : List Nat := gs.flatMap (fun g => (List.range 128).map (fun i => 128 * g + i))

/-- Active slots at a frame. -/
def activeAt (s : State) (n : Nat) : List Nat := slotsOf (groupList (natAt s n Obj.chan.groupEnable))

/-- SETTLED_FROM of an element at a frame (R156, R163). -/
def settledAt (s : State) (n e : Nat) : Nat :=
  let v := natAt s n (Obj.elem.settledFrom e)
  if v = 0 then s.array.settledBase else v

def settledOf (s : State) (e : Nat) : Nat :=
  let v := natO s (Obj.elem.settledFrom e)
  if v = 0 then s.array.settledBase else v

/-- STATE of an element (Table 7.4). -/
def elemState (s : State) (e : Nat) : Nat :=
  if !(natO s Obj.chan.groupEnable).testBit (e / 128) then 0
  else if natO s (Obj.elem.concentrator e) = 65535 then 3
  else if getO s (Obj.elem.exclude e) = 1 then 2
  else 1

/-- One sample through the element gain: the gained sample, whether it saturated, the element (R158). -/
def gainStep (v : Elem) (x : Int) : Int × Bool × Elem :=
  match v.ramp with
  | none => let p := scale23 (x * v.g); (sat24 p, over24 p, v)
  | some r =>
    let g := r.g0 + ((r.g1 - r.g0) * (r.k + 1 : Nat)).fdiv 128
    let p := scale23 (x * g)
    (sat24 p, over24 p, { v with g := g, ramp := if r.k = 127 then none else some { r with k := r.k + 1 } })

/-- The samples of a frame through gain, ring and delay (R158, R159): the element and its saturated samples. -/
def ingestSamples (delay : Nat) : Elem → List Int → Elem × Nat
  | v, [] => (v, 0)
  | v, x :: r =>
    let p := gainStep v x
    let ring := (p.1 :: p.2.2.ring).take 1024
    let v := { p.2.2 with
      ring := ring
      history := (ring.getD delay 0 :: v.history).take 2560
      peak := max v.peak p.1.natAbs }
    let q := ingestSamples delay v r
    (q.1, q.2 + (if p.2.1 then 1 else 0))

/-- The gain in force: a slot just enabled takes it at once, else a new value starts a ramp of 128 samples (R156, R158). -/
def aimGain (v : Elem) (target : Int) : Elem :=
  if !v.live then { Elem.idle with live := true, g := target }
  else
    match v.ramp with
    | some r => if r.g1 = target then v else { v with ramp := some ⟨v.g, target, 0⟩ }
    | none => if v.g = target then v else { v with ramp := some ⟨v.g, target, 0⟩ }

/-- What one element did in a frame: lost, clipped. -/
structure ElemFrame where
  state : State
  lost  : Bool
  clip  : Bool
  deriving DecidableEq, Repr

/-- A frame in which an element is no longer active, but a subband sample of its still to come (R156): its history moves on. -/
def Elem.idleFrame (v : Elem) : Elem := { v with live := false, history := (List.replicate 8 0 ++ v.history).take 2560 }

/-- One active element takes its samples of frame n (R155, R157 to R159). -/
def ingestElem (s : State) (n : Nat) (merge : Bool) (blocks : List ArrBlock) (e : Nat) : ElemFrame :=
  let conc := natAt s n (Obj.elem.concentrator e)
  let ch := natAt s n (Obj.elem.channel e)
  let link := natAt s n (Obj.elem.link e)
  let v := aimGain (elemOf s e) (linearGain (numAt s n (Obj.elem.gain e)))
  let found := if conc = 65535 then none else blocks.find? (fun b => (merge || b.link == link) && b.covers conc ch)
  let xs := match found with
    | some b => (List.range 8).map (fun j => b.samples.getD (b.channels * j + (ch - b.first)) 0)
    | none => List.replicate 8 0
  let overloaded := match found with
    | some b => b.overload.testBit (ch - b.first)
    | none => false
  let lost := found.isNone && conc != 65535
  let r := ingestSamples (natAt s n (Obj.elem.delay e)) v xs
  let v := { r.1 with lostIn := if lost then (n :: r.1.lostIn).take 6400 else r.1.lostIn }
  let s := setElem s e v
  let s := if lost then bumpO s (Obj.elem.lostFrames e) else s
  let clips := r.2 + (if overloaded then 1 else 0)
  ⟨if clips = 0 then s else addO s (Obj.elem.inputClips e) clips, lost, clips != 0⟩

/-- The boundary at which a frame's blocks are selected and consumed (R153, R154, R157). -/
def ingestTick (s : State) : State :=
  let lag := ingestLag s
  if !catchRuns s || decide (s.frame < lag) || decide (s.frame - lag < s.array.base) then s
  else
    let n := s.frame - lag
    let merge := numAt s n Obj.chan.merge == 1
    let sel := selectBlocks merge (s.array.copies.filter (·.frame == n))
    let s := { s with array := { s.array with copies := s.array.copies.filter (fun b => decide (n < b.frame)), nextIn := 8 * n + 8 } }
    let s := if sel.dups = 0 then s else addO s Obj.chan.duplicates sel.dups
    let s := if sel.diffs = 0 then s else addO s Obj.chan.mismatches sel.diffs
    let c := clashes merge sel.blocks
    let s := if c = 0 then s else addO s Obj.chan.conflicts c
    let act := activeAt s n
    let on := natAt s n Obj.chan.groupEnable
    let due := natAt s (16 * s.array.nextSub) Obj.chan.groupEnable
    let kept := s.array.elems.filter (fun e => on.testBit (e.1 / 128) || due.testBit (e.1 / 128))
    let elems := kept.map (fun e => if on.testBit (e.1 / 128) then e else (e.1, e.2.idleFrame))
    let s := { s with array := { s.array with elems := elems } }
    let r := act.foldl
      (fun (a : State × Bool × Bool) e =>
        let x := ingestElem a.1 n merge sel.blocks e
        (x.state, a.2.1 || x.lost, a.2.2 || x.clip)) (s, false, false)
    let s := if r.2.1 then raise r.1 192 noDetail else r.1
    if r.2.2 then raise s 193 noDetail else s

/-! ## The channeliser (R160 to R166) -/

/-- Move numbers within bounds, the first ones first, until their sum has risen by d. -/
def fitSum (lo hi : Int) : Int → List Int → List Int
  | _, [] => []
  | d, x :: r => let y := max lo (min hi (x + d)); y :: fitSum lo hi (d - (y - x)) r

/-- Any coefficients, brought within the bounds and the sum that their rule states; those that meet it are unchanged (log entry 7). -/
def coefficients (lo hi total : Int) (raw : List Int) : List Int :=
  let c := raw.map (sat lo hi)
  fitSum lo hi (total - c.foldl (· + ·) 0) c

/-- h[n]: 18-bit two's complement, with sum 131,072 (R160, R161). -/
def protoH : List Int := coefficients (-131072) 131071 131072 ((List.range 2048).map Config.prototypeH)

/-- f[n]: 18-bit two's complement, with sum 262,144 (R196). -/
def protoF : List Int := coefficients (-131072) 131071 262144 ((List.range 2048).map Config.prototypeF)

/-- hb[t], with sum 65,536 (R198). -/
def halfBand : List Int := coefficients (-2147483648) 2147483647 65536 ((List.range 24).map Config.halfband)

/-- c[r] and s[r] of R160. -/
def subCos : Array Int := Array.ofFn fun r : Fin 256 => roundSine 131072 (sineTurn (r.val + 64) 256)
def subSin : Array Int := Array.ofFn fun r : Fin 256 => roundSine 131072 (sineTurn r.val 256)

/-- v[p] of R160 from the inputs of the window, newest first. -/
def branchSums (xs : List Int) : List Int :=
  let a := (protoH.zip xs).map (fun e => e.1 * e.2)
  (List.range 256).map fun p => (List.range 8).foldl (fun t i => t + a.getD (p + 256 * i) 0) 0

/-- (s_re, s_im) of subband k (R160). -/
def subbandValue (v : List Int) (k : Nat) : Int × Int :=
  (((List.range 256).zip v).foldl (fun a e => a + e.2 * subCos.getD (k * e.1 % 256) 0) 0,
    -(((List.range 256).zip v).foldl (fun a e => a + e.2 * subSin.getD (k * e.1 % 256) 0) 0))

def clip12 (v : Int) : Int := sat (-2048) 2047 v

/-- One part after requantisation, and whether it clipped (R164). -/
def requant (x g : Int) (rq : Nat) : Int × Bool :=
  let q := roundShift (x * g) (46 + rq)
  (clip12 q, clip12 q != q)

/-- SUBBAND_GAIN of subband k in its 256 bytes. -/
def gainOf (b : List Byte) (k : Nat) : Int := beNat ((b.drop (2 * k)).take 2)

/-- The subband samples of one element from its window, and how many complex samples clipped (R160, R164, R166). -/
def channelise (xs : List Int) (gains : List Byte) (rq : Nat) : List (Int × Int) × Nat :=
  let v := branchSums xs
  let out := (List.range 128).map fun k =>
    let z := subbandValue v k
    let g := gainOf gains k
    (requant z.1 g rq, requant z.2 g rq)
  (out.map (fun e => (e.1.1, e.2.1)), out.countP (fun e => e.1.2 || e.2.2))

/-- An element contributes zeros at a frame: unassigned or excluded. -/
def mutedAt (s : State) (n e : Nat) : Bool :=
  natAt s n (Obj.elem.concentrator e) == 65535 || numAt s n (Obj.elem.exclude e) == 1

/-- Subband sample m of every active element, counting clips (R162, R164, R166). -/
def computeSubbands (s : State) (m : Nat) : SubSet × State :=
  let n := 16 * m
  let rq := natAt s n Obj.chan.rqShift
  let back := s.array.nextIn - 1 - (128 * m + 127)
  let r := (activeAt s n).foldl
    (fun (a : Sparse (List (Int × Int)) × State × Bool) e =>
      if mutedAt a.2.1 n e then a
      else
        let x := channelise ((elemOf a.2.1 e).history.drop back) (blobAt a.2.1 n (Obj.elem.subbandGain e)) rq
        (if x.1.all (· == (0, 0)) then a.1 else a.1 ++ [(e, x.1)],
          if x.2 = 0 then a.2.1 else addO a.2.1 (Obj.elem.requantClips e) x.2, a.2.2 || x.2 != 0))
    ([], s, false)
  (⟨m, r.1⟩, if r.2.2 then raise r.2.1 194 noDetail else r.2.1)

/-- A subband sample as its 3 bytes in memory (R165). -/
def subWord (z : Int × Int) : List Byte := natLE (wrapTo 12 z.1 * 4096 + wrapTo 12 z.2) 3

/-! ## The look-back ring (R167) -/

/-- LOOKBACK_OLDEST after a change of the ring; with nothing in the ring the manual gives no value. -/
def markOldest (s : State) : State :=
  match s.array.lookback.getLast? with
  | some x => setO s Obj.chan.lookbackOldest x.m
  | none => let (v, s) := drawFree s; setO s Obj.chan.lookbackOldest (v : Int)

def lookbackStep (s : State) (x : SubSet) : State :=
  let l := natAt s (16 * x.m) Obj.chan.lookbackLength
  if l = 0 ∨ x.m < s.array.lookFrom ∨ numAt s (16 * x.m) Obj.chan.lookbackFreeze = 1 then s
  else markOldest { s with array := { s.array with lookback := (x :: s.array.lookback).take l } }

/-- The ring is emptied and writing goes on from subband sample m. -/
def emptyLookback (s : State) (m : Nat) : State := markOldest { s with array := { s.array with lookback := [], lookFrom := m } }

/-! ## The correlator: sizes and layout (R176, R181, R183) -/

def bandCount (mode : Nat) : Nat := if mode = 1 then 64 else 16

/-- NBLK for G group ranks. -/
def blockCount (g : Nat) : Nat := g * (g + 1) / 2

/-- Number of block (r, q), r ≤ q. -/
def blockNo (g r q : Nat) : Nat := r * g - r * (r - 1) / 2 + (q - r)

/-- Ranks (r, q) of block n. -/
def blockRanks (g n : Nat) : Nat × Nat :=
  ((List.range g).findSome? (fun r => if blockNo g r r ≤ n ∧ n ≤ blockNo g r (g - 1) then some (r, r + (n - blockNo g r r)) else none)).getD (0, 0)

/-- Bytes of the data of a block. -/
def blockBytes (nb r q : Nat) : Nat := nb * (if r = q then 66048 else 131072)

/-- Offset of a block in the data part (R183). -/
def blockOffset (g nb n : Nat) : Nat :=
  let (r, q) := blockRanks g n
  let d := r + (if r < q then 1 else 0)
  d * nb * 66048 + (n - d) * nb * 131072

/-- Size of a slot (R181). -/
def slotSize (mode g : Nat) : Nat :=
  4096 + blockCount g * 2064 + bandCount mode * (g * 66048 + (blockCount g - g) * 131072)

/-- Groups that take part in a generation (R170, R176). -/
def genGroups (s : State) : List Nat :=
  if getO s Obj.corr.mode = 1 then groupList (natO s Obj.corr.fineGroups) else groupList (natO s Obj.chan.groupEnable)

/-! ## Generations (R172, R173) -/

/-- The last complete period of a generation that ends at subband sample m, with its L. -/
def lastPeriod (g : Gen) (m : Nat) : Option (Nat × Nat) :=
  let k := (m - g.g0) / g.len
  if g.g0 ≤ m ∧ k ≠ 0 then some (g.g0 + k * g.len - 1, g.len) else none

/-- Frame at which the snapshot of a period that ends at m is ready (R177). -/
def readyAt (s : State) (m len : Nat) : Nat := availFrame s m + 16 * len

/-- The running generation ends at subband sample m. -/
def endGen (s : State) (m : Nat) : State :=
  match s.array.corr.gens.getLast? with
  | none => s
  | some g =>
    if g.stop.isSome then s
    else
      let gens := s.array.corr.gens.dropLast ++ [{ g with stop := some m }]
      { s with array := { s.array with corr := { s.array.corr with gens := gens, lastEnd := lastPeriod g m } } }

/-- A new HBM allocation: its map address (R187). -/
def allocate (s : State) (kind bytes : Nat) : Nat × State :=
  (hbmPlace kind s.array.allocs bytes, { s with array := { s.array with allocs := s.array.allocs + 1 } })

/-- Hold an area's bytes until a frame. -/
def holdArea (s : State) (kind bytes frame : Nat) : State :=
  if bytes = 0 then s else { s with array := { s.array with held := s.array.held ++ [(kind, bytes, frame)] } }

def setAreas (s : State) (l : List SlotArea) : State := { s with array := { s.array with corr := { s.array.corr with areas := l } } }

/-- Bytes of a slot of the newest allocation, 0 for none. -/
def newestSlot (s : State) : Nat := ((s.array.corr.areas.getLast?).map (·.bytes)).getD 0

/-- SLOT0_BASE, SLOT1_BASE and SLOT_BYTES name the oldest slots in force, which stay readable until the first snapshot in newer ones is
ready (R181). (DEDUCED, log entry 126.) -/
def showSlots (s : State) : State :=
  match s.array.corr.areas with
  | [] => s
  | a :: _ => setMany s [(Obj.corr.slotBase 0, (a.base0 : Int)), (Obj.corr.slotBase 1, (a.base1 : Int)), (Obj.corr.slotBytes, a.bytes)]

/-- The slots of a generation, and those behind them: older ones go when a snapshot of it is ready. -/
def areasFrom (gen : Nat) : List SlotArea → List SlotArea
  | a :: b :: r => if b.since ≤ gen then areasFrom gen (b :: r) else a :: b :: r
  | l => l

/-- A snapshot as it stands goes into its slot of its generation's area. -/
def placeSnapshot (s : State) (x : Snapshot) : State :=
  let l := s.array.corr.areas
  let keep := l.length - (areasFrom x.gen l).length
  setAreas s (l.take keep ++ (match areasFrom x.gen l with
    | [] => []
    | a :: r => { a with snaps := a.snaps.set (x.number % 2) x } :: r))

/-- A retune at frame f with first subband sample m (R172, R173, R178, R181). -/
def retune (s : State) (f m : Nat) : State :=
  let s := endGen s m
  let c := s.array.corr
  let len := natO s Obj.corr.l
  let busy := c.lastEnd.bind (fun e => if f < readyAt s e.1 e.2 then some e else none)
  let g0 : Nat := match busy with
    | some e => max m (e.1 + e.2 + 1 - len)
    | none => m
  let mode := natO s Obj.corr.mode
  let groups := genGroups s
  let size := slotSize mode groups.length
  let number := natO s Obj.corr.generation + 1
  let s := if size = newestSlot s then s
    else
      let (b0, s) := allocate s 1 size
      let (b1, s) := allocate s 1 size
      showSlots (setAreas s (s.array.corr.areas ++ [⟨b0, b1, size, [Snapshot.none, Snapshot.none], number⟩]))
  let s := holdArea s 0 (natO s Obj.corr.cornerBytes) (match busy with
    | some e => readyAt s e.1 e.2
    | none => f)
  let corner := 2 * len * natO s Obj.chan.activeElements * 384
  let (cb, s) := allocate s 0 corner
  let s := setMany s [(Obj.corr.cornerBase, (cb : Int)), (Obj.corr.cornerBytes, (corner : Int)),
    (Obj.corr.generation, number), (Obj.corr.genStart, g0)]
  let g : Gen := ⟨number, mode, len, natO s Obj.corr.bandEnable, groups, natO s Obj.corr.fineFirst, g0, none⟩
  { s with array := { s.array with corr := { s.array.corr with gens := s.array.corr.gens ++ [g] } } }

/-- The correlator is disabled at frame f: the generation ends without a new one (R172). -/
def stopCorr (s : State) (f m : Nat) : State :=
  let s := endGen s m
  let e := s.array.corr.lastEnd
  let s := holdArea s 0 (natO s Obj.corr.cornerBytes) (match e with
    | some e => readyAt s e.1 e.2
    | none => f)
  setMany s [(Obj.corr.cornerBytes, 0), (Obj.corr.cornerBase, 0)]

/-- STATE of the correlator (Table 8.8). -/
def corrState (s : State) : Nat :=
  match s.array.corr.gens.getLast? with
  | some g => if g.stop.isSome then 0 else if s.frame < 16 * g.g0 then 1 else 2
  | none => 0

/-! ## Integration and snapshots (R169 to R175, R179 to R183) -/

/-- Sum over the integrated subband samples and subbands lo to lo + n − 1 of z_i × conj(z_j) (R169). -/
def covariance (sets : List SubSet) (i j lo n : Nat) : Int × Int :=
  sets.foldl
    (fun a x =>
      let zi := (Sparse.get (fun _ => []) x.vals i).drop lo
      let zj := (Sparse.get (fun _ => []) x.vals j).drop lo
      ((zi.zip zj).take n).foldl
        (fun a p => (a.1 + p.1.1 * p.2.1 + p.1.2 * p.2.2, a.2 + p.1.2 * p.2.1 - p.1.1 * p.2.2)) a)
    (0, 0)

def sat32 (v : Int) : Int := sat (-2147483648) 2147483647 v

/-- Subbands of band b: first and how many (R169, R170). -/
def bandSubs (g : Gen) (b : Nat) : Nat × Nat := if g.mode = 1 then (g.fineFirst + b, 1) else (8 * b, 8)

/-- A band is summed: enabled, or fine. -/
def bandOn (g : Gen) (b : Nat) : Bool := g.mode == 1 || g.bands.testBit b

/-- Entries of a snapshot that are not 0 and the keys of those that saturated: for every pair of slots with data (R179). -/
def covEntries (g : Gen) (sets : List SubSet) (shifts : List Nat) : Sparse (Int × Int) × List Nat :=
  let rank (e : Nat) : Option Nat := g.groups.findIdx? (· == e / 128)
  let present := ((slotsOf g.groups).filter (fun e => sets.any (fun x => x.vals.any (·.1 == e))))
  let keys := present.flatMap fun i => (present.filter (fun j => decide (i ≤ j))).flatMap fun j =>
    match rank i, rank j with
    | some r, some q => ((List.range (bandCount g.mode)).filter (bandOn g)).map fun b =>
        (blockNo g.groups.length r q * 16777216 + b * 65536 + 128 * (i % 128) + j % 128, i, j, b)
    | _, _ => []
  keys.foldl
    (fun a k =>
      let w := bandSubs g k.2.2.2
      let v := covariance sets k.2.1 k.2.2.1 w.1 w.2
      let sh := shifts.getD k.2.2.2 0
      let re := roundShift v.1 sh
      let im := roundShift v.2 sh
      (Sparse.put (fun _ => (0, 0)) a.1 k.1 (sat32 re, sat32 im),
        if sat32 re != re || sat32 im != im then a.2 ++ [k.1] else a.2))
    ([], [])

/-- The first subband sample that period 0 integrates (R174). -/
def firstCounted (s : State) (g : Gen) : Nat := max (g.g0 + 16) (natAt s (16 * g.g0) Obj.chan.settledFrom)

/-- A period has ended with subband sample m: its snapshot is computed, or dropped for a locked slot (R174, R175, R180). -/
def finishPeriod (s : State) (g : Gen) (start : Nat) : State :=
  let c := s.array.corr
  let n := c.nextNo
  let slot := n % 2
  let s := { s with array := { s.array with corr := { c with nextNo := n + 1 } } }
  if (natO s Obj.corr.lock).testBit slot then bumpO s Obj.corr.dropped
  else
    let last := start + g.len - 1
    let count := c.corner.length
    let r := covEntries g c.corner c.shifts
    let act := slotsOf g.groups
    let at0 := 16 * last + 15
    let snap : Snapshot := {
      number := n, ready := false, mode := g.mode, groups := g.groups, gen := g.number, start := start, len := g.len
      fineFirst := if g.mode = 1 then g.fineFirst else 0
      counts := (List.range 64).map (fun b => if b < bandCount g.mode ∧ bandOn g b then count else 0)
      shifts := c.shifts
      excluded := c.excluded
      unsettled := act.filter (fun e => decide (start < settledAt s at0 e))
      lost := act.filter (fun e => (elemOf s e).lostIn.any (fun f => decide (16 * start ≤ f ∧ f ≤ at0)))
      isPartial := decide (count < g.len) && (List.range (bandCount g.mode)).any (bandOn g)
      readyFrame := readyAt s last g.len, entries := r.1, satur := r.2, incomplete := [] }
    let c := s.array.corr
    placeSnapshot { s with array := { s.array with corr := { c with computing := c.computing ++ [snap] } } } snap

/-- The correlator takes a subband sample. -/
def corrStep (s : State) (x : SubSet) : State :=
  let c := s.array.corr
  let gens := c.gens.filter (fun g => g.stop.all (fun e => decide (x.m < e)) || g.stop.isNone)
  let s := { s with array := { s.array with corr := { c with gens := gens } } }
  match gens.find? (fun g => decide (g.g0 ≤ x.m)) with
  | none => s
  | some g =>
    let p := (x.m - g.g0) / g.len
    let start := g.g0 + p * g.len
    let c := s.array.corr
    let c := if x.m = start then { c with
        corner := [], excluded := []
        shifts := (List.range 64).map (fun b => ((blobAt s (16 * start) Obj.corr.shift).getD b 4).toNat) } else c
    let muted := (slotsOf g.groups).filter (fun e => mutedAt s (16 * x.m) e && !c.excluded.contains e)
    let take := decide (p ≠ 0) || decide (firstCounted s g ≤ x.m)
    let c := { c with
      corner := if take then x :: c.corner else c.corner
      excluded := c.excluded ++ muted }
    let s := { s with array := { s.array with corr := c } }
    if x.m = start + g.len - 1 then finishPeriod s g start else s

/-- The ready frame of the snapshot computed first, with the blocks its tiles left unfinished (R174, R177, R179, R181); at a target of
a resync a snapshot begun before E is never ready (R317). -/
def execSnapshotReady (unfinished : List Nat) (s : State) : Ans :=
  let c := s.array.corr
  match c.computing with
  | [] => .next s
  | x :: r =>
    if s.frame < x.readyFrame then .next s
    else if 16 * x.start < s.array.exactFrom then .next { s with array := { s.array with corr := { c with computing := r } } }
    else
      let left := unfinished.filter (fun n => decide (n < blockCount x.groups.length))
      let x := { x with
        ready := true, incomplete := left
        entries := x.entries.filter (fun e => !left.contains (e.1 / 16777216))
        satur := x.satur.filter (fun k => !left.contains (k / 16777216)) }
      let s := setAreas { s with array := { s.array with corr := { c with computing := r } } } (areasFrom x.gen c.areas)
      let s := showSlots (placeSnapshot s x)
      let s := setMany s [(Obj.corr.snapshotNo, x.number), (Obj.corr.readyFrame, x.readyFrame)]
      let s := raise s 195 noDetail
      let s := if x.isPartial then raise s 196 noDetail else s
      let s := if x.satur.isEmpty then s else raise (bumpO s Obj.corr.satSnapshots) 197 noDetail
      done (if left.isEmpty then s else raise (bumpO s Obj.corr.overruns) 198 noDetail)

/-- A set of slots as a bit map of 1,024 bytes (Table 8.3). -/
def slotMap (l : List Nat) : List Byte :=
  (List.range 1024).map fun i => BitVec.ofNat 8 ((List.range 8).foldl (fun a b => if l.contains (8 * i + b) then a + 2 ^ b else a) 0)

/-- The 4,096 bytes of a header (Table 8.3); zeros in a slot that nothing has been written into. -/
def headerOf (x : Snapshot) : List Byte :=
  if x.groups.isEmpty then List.replicate 4096 0 else
  let flags := (if x.isPartial then 1 else 0) + (if x.satur.isEmpty then 0 else 2) + (if x.incomplete.isEmpty then 0 else 4)
  let body := natLE x.mode 1 ++ natLE flags 1 ++ natLE x.groups.length 1 ++ [0x00] ++ natLE x.number 8 ++ natLE x.gen 8
    ++ natLE (16 * x.start) 8 ++ natLE x.start 8 ++ natLE x.len 2 ++ natLE x.fineFirst 2 ++ natLE x.satur.length 4
    ++ (List.range 64).map (fun r => BitVec.ofNat 8 (x.groups.getD r 255))
    ++ (List.range 64).flatMap (fun b => natLE (x.counts.getD b 0) 2)
    ++ (List.range 64).map (fun b => BitVec.ofNat 8 (x.shifts.getD b 0))
    ++ slotMap x.excluded ++ slotMap x.unsettled ++ slotMap x.lost ++ natLE x.readyFrame 8 ++ List.replicate 708 0
  let full := natLE 0x434F5653 4 ++ body
  (if x.ready then natLE 0x434F5653 4 else natLE 0 4) ++ body ++ natLE (crc32 full) 4

/-- The saturation record of a block (Table 8.4). -/
def satRecord (x : Snapshot) (n : Nat) : List Byte :=
  let here := x.satur.filter (fun k => k / 16777216 == n)
  let mask := here.foldl (fun a k => a ||| 2 ^ (k / 65536 % 256)) 0
  natLE n 2 ++ natLE (if x.incomplete.contains n then 1 else 0) 2 ++ natLE here.length 4 ++ natLE mask 8
    ++ (List.range 2048).map (fun i => BitVec.ofNat 8 ((List.range 8).foldl
        (fun a b => if here.any (fun k => k % 65536 == 8 * i + b) then a + 2 ^ b else a) 0))

/-- The 8 bytes of an entry (R183). -/
def entryBytes (x : Snapshot) (n b t : Nat) : List Byte :=
  let v := Sparse.get (fun _ => ((0 : Int), (0 : Int))) x.entries (n * 16777216 + b * 65536 + t)
  natLE (wrapTo 32 v.1) 4 ++ natLE (wrapTo 32 v.2) 4

/-- Rows lo to lo + 63 of band b of block n, as they lie in memory (R183, R184). -/
def rowsBytes (x : Snapshot) (n b lo : Nat) : List Byte :=
  let (r, q) := blockRanks x.groups.length n
  (List.range 64).flatMap fun i =>
    let row := lo + i
    ((List.range 128).filter (fun j => decide (r < q) || decide (row ≤ j))).flatMap fun j => entryBytes x n b (128 * row + j)

/-- A byte of a slot at an offset (Table 8.2). -/
def slotByte (x : Snapshot) (off : Nat) : Byte :=
  let g := x.groups.length
  let nb := bandCount x.mode
  let base := 4096 + blockCount g * 2064
  if off < 4096 then (headerOf x).getD off 0
  else if off < base then (satRecord x ((off - 4096) / 2064)).getD ((off - 4096) % 2064) 0
  else
    let d := off - base
    match (List.range (blockCount g)).find? (fun n => decide (blockOffset g nb n ≤ d)
        && decide (d < blockOffset g nb n + blockBytes nb (blockRanks g n).1 (blockRanks g n).2)) with
    | none => 0
    | some n =>
      let e := d - blockOffset g nb n
      let (r, q) := blockRanks g n
      if r < q then (entryBytes x n (e / 131072) (e / 8 % 16384)).getD (e % 8) 0
      else
        let t := e / 8 % 8256
        let first (i : Nat) : Nat := 128 * i - i * (i - 1) / 2
        let i := ((List.range 128).find? (fun i => decide (first i ≤ t ∧ t < first (i + 1)))).getD 0
        (entryBytes x n (e / 66048) (128 * i + i + (t - first i))).getD (e % 8) 0

/-! ## Beams (R189 to R204) -/

def beamOf (s : State) (b : Nat) : BeamSt := Sparse.get (fun _ => BeamSt.idle) s.array.beams b

def setBeam (s : State) (b : Nat) (v : BeamSt) : State :=
  { s with array := { s.array with beams := Sparse.put (fun _ => BeamSt.idle) s.array.beams b v } }

/-- Bytes of a weight buffer: zeros from its allocation on (R193). -/
def bufferOf (s : State) (b buf : Nat) : List Byte := Sparse.get (fun _ => []) s.array.buffers (2 * b + buf)

def setBuffer (s : State) (b buf : Nat) (v : List Byte) : State :=
  { s with array := { s.array with buffers := Sparse.put (fun _ => []) s.array.buffers (2 * b + buf) v } }

/-- The beam has its two buffers. -/
def hasBuffers (s : State) (b : Nat) : Bool := natO s (Obj.beam.bufferBase b 0) != 0

/-- A side of a beam reads a buffer. -/
def BeamCfg.reads (c : BeamCfg) (buf : Nat) : Bool := c.on && c.mode == 1 && c.buffer == buf

/-- Every side of a beam, in force, in transition or waiting. -/
def BeamSt.sides (v : BeamSt) : List BeamCfg :=
  v.live :: (match v.fading with
    | some (old, new, _, _) => [old, new]
    | none => []) ++ v.next.map (·.2.1)

/-- Weights of a side that are kept once the buffers are gone. -/
def BeamCfg.keep (c : BeamCfg) : BeamCfg := if c.mode = 1 then { c with buffer := 2 } else c

/-- A beam's buffers are freed. A side that reads one goes on with the weights it held. (DESIGN CHOICE, log entry 125.) -/
def releaseBuffers (s : State) (b : Nat) : State :=
  let v := beamOf s b
  let read := (v.sides.find? (fun c => c.reads 0 || c.reads 1)).map (fun c => bufferOf s b c.buffer)
  let s := match read with
    | some w => { s with array := { s.array with kept := Sparse.put (fun _ => []) s.array.kept b w } }
    | none => s
  let s := if read.isSome then setBeam s b { v with
      live := v.live.keep
      fading := v.fading.map (fun f => (f.1.keep, f.2.1.keep, f.2.2))
      next := v.next.map (fun e => (e.1, e.2.1.keep, e.2.2)) } else s
  setMany (setBuffer (setBuffer s b 0 []) b 1 []) [(Obj.beam.bufferBase b 0, 0), (Obj.beam.bufferBase b 1, 0),
    (Obj.beam.liveBuffer b, 255), (Obj.scan.adaptiveBytes, ((natO s Obj.scan.adaptiveBytes - 1048576 : Nat) : Int))]

/-- Allocate and clear a beam's buffers (R193); an old pair that is about to be freed counts until then. -/
def allocBuffers (s : State) (b : Nat) : State :=
  let s := match s.array.bufFree.find? (fun e => e.2 == b) with
    | some e => holdArea (releaseBuffers { s with array := { s.array with bufFree := s.array.bufFree.filter (fun e => e.2 != b) } } b) 2 1048576 e.1
    | none => s
  if hasBuffers s b then s
  else
    let z := List.replicate 524288 (0 : Byte)
    let s := setBuffer (setBuffer s b 0 z) b 1 z
    let (x, s) := allocate s 2 524288
    let (y, s) := allocate s 2 524288
    setMany (addO s Obj.scan.adaptiveBytes 1048576)
      [(Obj.beam.bufferBase b 0, (x : Int)), (Obj.beam.bufferBase b 1, (y : Int))]

/-- cq[i] and sq[i] of R191. -/
def steerCos (i : Nat) : Int := roundSine 16384 (sineTurn (i + 1024) 4096)
def steerSin (i : Nat) : Int := roundSine 16384 (sineTurn i 4096)

def sat16 (v : Int) : Int := sat (-32768) 32767 v

/-- The effective weight of subband k for delay tau and gain g (R191). -/
def steerWeight (k : Nat) (tau : Int) (g : Nat) : Int × Int :=
  let theta := (((k : Int) * tau) % 16777216).toNat
  let i := (theta + 2048) / 4096 % 4096
  (sat16 (roundShift (g * steerCos i) 15), sat16 (roundShift (-(g : Int) * steerSin i) 15))

/-- Delay and gain of a slot in a STEER table (R192). -/
def steerEntry (b : List Byte) (e : Nat) : Int × Nat :=
  let r := (b.drop (6 * e)).take 6
  (signed 32 (beNat (r.take 4)), beNat (r.drop 4))

/-- The stored weight of a slot and subband (R190, R193). -/
def storedWeight (b : List Byte) (k e : Nat) : Int × Int :=
  let r := (b.drop ((k / 8 * 8192 + e) * 4)).take 4
  (signed 16 (leNat (r.take 2)), signed 16 (leNat (r.drop 2)))

/-- Sum over slots of w × z, for the 128 subbands (R190). -/
def weightedSum (w : Nat → Nat → Int × Int) (x : SubSet) : List (Int × Int) :=
  (List.range 128).map fun k =>
    x.vals.foldl
      (fun a e =>
        let z := e.2.getD k (0, 0)
        let v := w k e.1
        (a.1 + v.1 * z.1 - v.2 * z.2, a.2 + v.1 * z.2 + v.2 * z.1)) (0, 0)

/-- y_k of one side of a beam (R190); a disabled side contributes 0 (R199). -/
def sideSum (s : State) (b : Nat) (c : BeamCfg) (x : SubSet) : List (Int × Int) :=
  if !c.on then List.replicate 128 (0, 0)
  else if c.mode = 1 then
    let buf := if c.buffer = 2 then Sparse.get (fun _ => []) s.array.kept b else bufferOf s b c.buffer
    weightedSum (fun k e => storedWeight buf k e) x
  else weightedSum (fun k e => let v := steerEntry c.steer e; steerWeight k v.1 v.2) x

/-- a_in of fade index i of N (R199). -/
def fadeIn (i n : Nat) : Nat := (i + 1) * 32768 / n

/-- t_k: 2^15 × y outside a transition, the faded value during one (R196, R199). -/
def beamT (s : State) (b : Nat) (v : BeamSt) (x : SubSet) : List (Int × Int) :=
  match v.fading with
  | none => (sideSum s b v.live x).map (fun y => (32768 * y.1, 32768 * y.2))
  | some (old, new, i, n) =>
    let a : Int := fadeIn i n
    ((sideSum s b old x).zip (sideSum s b new x)).map fun p =>
      ((32768 - a) * p.1.1 + a * p.2.1, (32768 - a) * p.1.2 + a * p.2.2)

/-- D of R196. -/
def synthDelay (s : State) : Nat := if inPair s then 400 else 384

/-- u_m[p] of R196. -/
def synthU (t : List (Int × Int)) (p : Nat) : Int :=
  ((List.range 128).zip t).foldl
    (fun a e => a + (if e.1 = 0 then 1 else 2) * (e.2.1 * subCos.getD (e.1 * p % 256) 0 - e.2.2 * subSin.getD (e.1 * p % 256) 0)) 0

/-- Add a list to another from a position on, padding with zeros. -/
def addAt (acc : List Int) (off : Nat) (xs : List Int) : List Int :=
  let a := acc.take off ++ List.replicate (off - acc.length) 0
  let b := acc.drop off
  a ++ (b.zip xs).map (fun e => e.1 + e.2) ++ b.drop xs.length ++ xs.drop b.length

/-- The contribution of t_k[m] to acc[n] from n = 128 m + D on (R196). -/
def synthAdd (s : State) (v : BeamSt) (m : Nat) (t : List (Int × Int)) : BeamSt :=
  if t.all (· == (0, 0)) then v
  else
    let u := ((List.range 256).map (synthU t)).toArray
    let xs := (protoF.zip (List.range 2048)).map (fun e => e.1 * u.getD (e.2 % 256) 0)
    { v with acc := addAt v.acc (128 * m + synthDelay s - v.accAt) xs }

/-- The side a beam holds when a transition begins: that of the larger weight at the last fade sample (R200). -/
def heldSide (v : BeamSt) : BeamCfg :=
  match v.fading with
  | none => v.live
  | some (old, new, i, n) => if i = 0 then old else if fadeIn (i - 1) n < 32768 - fadeIn (i - 1) n then old else new

/-- A waiting transition takes effect at subband sample m. -/
def beginFade (v : BeamSt) (m : Nat) : BeamSt :=
  v.next.foldl
    (fun v e =>
      if m < e.1 then v
      else
        let h := heldSide v
        if h = e.2.1 then { v with live := h, fading := none, next := v.next.drop 1 }
        else { v with live := h, fading := some (h, e.2.1, 0, e.2.2), next := v.next.drop 1 }) v

/-- LIVE_BUFFER of a beam in a configuration (R193). -/
def liveBuffer (s : State) (b : Nat) (c : BeamCfg) : Int :=
  if !hasBuffers s b then 255 else if c.mode = 1 ∧ c.buffer ≠ 2 then c.buffer else getO s (Obj.beam.liveBuffer b)

/-- A beam takes subband sample x: transition, sums, synthesis; answers whether a transition ended (R196, R199, R204). -/
def beamStep (s : State) (b : Nat) (x : SubSet) : State × Bool :=
  let v0 := beamOf s b
  let v := beginFade v0 x.m
  let s := if v0.next = v.next then s else setO s (Obj.beam.liveBuffer b) (liveBuffer s b v.live)
  let t := if v.late then v.lastT else beamT s b v x
  let v := { synthAdd s v x.m t with lastT := t, late := false }
  match v.fading with
  | none => (setBeam s b v, false)
  | some (old, new, i, n) =>
    if i + 1 = n then
      let s := setBeam s b { v with live := new, fading := none }
      (setO s (Obj.beam.liveBuffer b) (liveBuffer s b new), true)
    else (setBeam s b { v with fading := some (old, new, i + 1, n) }, false)

/-- Beams that have state. -/
def beamIds (s : State) : List Nat := s.array.beams.map (·.1)

/-- Slots a beam takes in a subband sample: one when enabled, two in transition (R205). -/
def beamSlots (v : BeamSt) : Nat := if v.fading.isSome then 2 else if v.live.on then 1 else 0

/-- What a beam's objects ask for. -/
def beamWanted (s : State) (b : Nat) : BeamCfg :=
  ⟨getO s (Obj.beam.enable b) == 1, natO s (Obj.beam.mode b), natO s (Obj.beam.weightSelect b), getB s (Obj.beam.steer b)⟩

/-- What a beam is on its way to. -/
def beamAim (v : BeamSt) : BeamCfg :=
  match v.next.getLast?, v.fading with
  | some e, _ => e.2.1
  | none, some (_, new, _, _) => new
  | none, none => v.live

/-- Changes at frame f to ENABLE, MODE, STEER or WEIGHT_SELECT form one transition (R193, R199). -/
def changeBeam (s : State) (f b : Nat) : State :=
  let c := beamWanted s b
  let s := if c.mode = 1 && !hasBuffers s b then allocBuffers s b
    else if c.mode = 0 && hasBuffers s b && (beamAim (beamOf s b)).mode == 1 then
      { s with array := { s.array with bufFree := s.array.bufFree ++ [(f + 1, b)] } }
    else s
  let v := beamOf s b
  if beamAim v = c then s else setBeam s b { v with next := v.next ++ [(f / 16, c, natO s (Obj.beam.fade b))] }

/-- STATE and FADE_LEFT of a beam (Table 9.5). -/
def beamState (v : BeamSt) : Nat :=
  match v.fading, v.next with
  | some (_, new, _, _), _ => if new.on then 2 else 3
  | none, e :: _ => if e.2.1.on then 2 else if v.live.on then 3 else 2
  | none, [] => if v.live.on then 1 else 0

def fadeLeft (v : BeamSt) : Nat :=
  match v.fading, v.next with
  | some (_, _, i, n), _ => n - i
  | none, e :: _ => e.2.2
  | none, [] => 0

/-- The beam's weights for the next subband sample are late (R204). -/
def execWeightFetchLate (beam : Fin 256) (s : State) : Ans :=
  let v := beamOf s beam
  let adaptive := { beginFade v s.array.nextSub with next := [] }.sides.any (fun c => c.on && c.mode == 1)
  if catchRuns s && adaptive && !v.late then
    done (raise (bumpO (setBeam s beam { v with late := true }) (Obj.beam.overruns beam)) 160 beam)
  else .next s

/-- o[n] of R196, and whether it saturated. -/
def beamSample (s : State) (b : Nat) (v : BeamSt) (n : Nat) : Int × Bool :=
  let p := roundShift (v.acc.getD (n - v.accAt) 0) (57 - getO s (Obj.beam.outShift b)).toNat
  (sat24 p, over24 p)

/-- hb[t] (R198). -/
def halfSum (hist : List Int) (off : Nat) : Int :=
  (halfBand.zip (List.range 24)).foldl (fun a e => a + e.1 * (hist.getD (off + 24 + e.2) 0 + hist.getD (off + 23 - e.2) 0)) 0

/-- The beam samples of frame f at the engine's rate (R197, R198). -/
def beamFrame (s : State) (f b : Nat) : State :=
  let v := beamOf s b
  let os := (List.range 8).map (fun i => beamSample s b v (8 * f + i))
  let hist := ((os.map (·.1)).reverse ++ v.hist).take 64
  let wide := (List.range 8).flatMap fun i =>
    let p := roundShift (halfSum hist (7 - i)) 17
    [(hist.getD (7 - i + 24) 0, false), (sat24 p, over24 p)]
  let y := if s.rst.rate = 0 then os.map (·.1) else wide.map (·.1)
  let clips := os.countP (·.2) + (if s.rst.rate = 0 then 0 else wide.countP (·.2))
  let s := setBeam s b { v with
    y := y, hist := hist, peak := (os.map (·.1)).foldl (fun m x => max m x.natAbs) v.peak
    acc := v.acc.drop (8 * f + 8 - v.accAt), accAt := max v.accAt (8 * f + 8) }
  if clips = 0 then s else addO s (Obj.beam.clips b) clips

/-- Buffers whose frame has come are freed, and weights kept go when no side reads them. -/
def freeBuffers (s : State) : State :=
  let due := s.array.bufFree.filter (fun e => decide (e.1 ≤ s.frame))
  let s := { s with array := { s.array with bufFree := s.array.bufFree.filter (fun e => decide (s.frame < e.1)) } }
  let s := due.foldl (fun s e => releaseBuffers s e.2) s
  { s with array := { s.array with kept := s.array.kept.filter (fun e => (beamOf s e.1).sides.any (fun c => c.reads 2)) } }

/-- The frame's beam samples for the route pass; silence while Catchment does not run (R197, R201). -/
def beamTick (s : State) : State :=
  let s := freeBuffers s
  let ids := beamIds s
  if catchRuns s then ids.foldl (fun s b => beamFrame s s.frame b) s
  else ids.foldl (fun s b => setBeam s b { beamOf s b with y := [] }) s

/-! ## Scan maps (R205 to R210) -/

/-- ORIGIN, STEP_X, STEP_Y and GAIN of a slot at a frame (R206). -/
def scanEntry (lo hi : List Byte) (e : Nat) : Int × Int × Int × Nat :=
  let r := if e < 4096 then (lo.drop (14 * e)).take 14 else (hi.drop (14 * (e - 4096))).take 14
  (signed 32 (beNat (r.take 4)), signed 32 (beNat ((r.drop 4).take 4)), signed 32 (beNat ((r.drop 8).take 4)), beNat (r.drop 12))

/-- Power of one evaluation by band: the sums of |y_k|² over each enabled band (R207). -/
def scanPower (lo hi : List Byte) (bands nx g : Nat) (x : SubSet) : List (Nat × Nat) :=
  let gx : Int := (g % nx : Nat)
  let gy : Int := (g / nx : Nat)
  let w (k e : Nat) : Int × Int :=
    let v := scanEntry lo hi e
    steerWeight k (signed 32 (wrapTo 32 (v.1 + gx * v.2.1 + gy * v.2.2.1))) v.2.2.2
  let y := weightedSum w x
  ((List.range 16).filter (fun b => bands.testBit b)).map fun b =>
    (b, ((y.drop (8 * b)).take 8).foldl (fun a c => a + c.1.natAbs ^ 2 + c.2.natAbs ^ 2) 0)

/-- The scaled value of a power, and whether it saturated (R207). -/
def mapValue (p shift : Nat) : Nat × Bool :=
  let v := (p + 2 ^ (27 + shift)) / 2 ^ (28 + shift)
  (min v 4294967295, decide (4294967295 < v))

/-- A map has ended with subband sample m: its values. -/
def closeMap (s : State) (c : ScanMap) (m : Nat) : MapDone :=
  let n := 16 * m
  let v (k : Nat) : Nat := natAt s n k
  let bands := v Obj.scan.scanBands
  let pts := v Obj.scan.scanNx * v Obj.scan.scanNy
  let shift := v Obj.scan.scanShift
  let keys := ((List.range 16).filter (fun b => bands.testBit b)).flatMap (fun b => (List.range pts).map (fun g => 4096 * b + g))
  let vals := keys.map (fun k => (k, mapValue (Sparse.get (fun _ => 0) c.power k) shift))
  ⟨0, 0, c.first, m, v Obj.scan.scanNx, v Obj.scan.scanNy, v Obj.scan.scanDepth, bands, shift, c.unsettled,
    vals.foldl (fun a e => Sparse.put (fun _ => 0) a e.1 e.2.1) [], vals.countP (fun e => e.2.2)⟩

/-- Scanning takes a subband sample with the slots the beams leave (R205, R207, R208). -/
def scanStep (s : State) (x : SubSet) (used : Nat) : State :=
  let n := 16 * x.m
  let a := s.array
  let fresh := a.scanFrom.any (fun m => decide (m ≤ x.m))
  let a := { a with
    scanFrom := a.scanFrom.filter (fun m => decide (x.m < m))
    scan := if fresh then none else a.scan }
  let s := { s with array := a }
  if numAt s n Obj.scan.scanEnable = 0 then setO s Obj.scan.slotsUsed (used : Nat)
  else
    let nx := natAt s n Obj.scan.scanNx
    let pts := nx * natAt s n Obj.scan.scanNy
    let total := pts * natAt s n Obj.scan.scanDepth
    let c := a.scan.getD ⟨x.m, 0, [], false⟩
    let k := min (min (natAt s n Obj.scan.scanSlots) (576 - used)) (total - c.next)
    let lo := blobAt s n Obj.scan.scanTableLo
    let hi := blobAt s n Obj.scan.scanTableHi
    let bands := natAt s n Obj.scan.scanBands
    let power := (List.range k).foldl
      (fun p i =>
        let g := (c.next + i) % pts
        (scanPower lo hi bands nx g x).foldl
          (fun p e => Sparse.put (fun _ => 0) p (4096 * e.1 + g) (Sparse.get (fun _ => 0) p (4096 * e.1 + g) + e.2)) p) c.power
    let c := { c with
      next := c.next + k, power := power
      unsettled := c.unsettled || (k != 0 && decide (x.m < natAt s n Obj.chan.settledFrom)) }
    let s := setO s Obj.scan.slotsUsed (used + k : Nat)
    if c.next = total then { s with array := { a with scan := none, ended := a.ended ++ [closeMap s c x.m] } }
    else { s with array := { a with scan := some c } }

/-- The items of a map record (Table 9.3). -/
def mapRecord (d : MapDone) : List Nat :=
  let bands := (List.range 16).filter (fun b => d.bands.testBit b)
  let items := [d.number % 4294967296, d.first / 4294967296, d.first % 4294967296, d.bands * 65536 + d.nx * 256 + d.ny,
      d.depth * 16777216 + d.shift * 65536 + (if d.unsettled then 2 else 0) + (if d.satur ≠ 0 then 1 else 0)]
    ++ bands.flatMap (fun b => (List.range (d.nx * d.ny)).map (fun g => Sparse.get (fun _ => 0) d.values (4096 * b + g)))
  items ++ [crc32 (items.flatMap (fun i => natBE i 4))]

/-- The record of a new map waits for its queue; what an earlier record had still to push is lost, with event 229 (R378). -/
def beginMapOut (s : State) (items : List Nat) : State :=
  let q := natO s Obj.scan.scanQueue
  let start (s : State) (loss : Bool) : State := { s with array := { s.array with mapOut := some ⟨q, items, true, loss⟩ } }
  match s.array.mapOut with
  | none => start s false
  | some o =>
    let d := driftQ s o.queue
    let n := o.items.length + (d.packing.map DWord.items).getD 0
    start (raise (addO (setDriftQ s o.queue { d with packing := none }) (Obj.drift.lostItems o.queue) n) 229 o.queue) true

/-- A map is complete at frame 16 m_last + 48, or + 50 in a pair (R208, R209). -/
def execMapComplete (s : State) : Ans :=
  match s.array.ended with
  | [] => .next s
  | d :: r =>
    if s.frame < availFrame s d.last + 16 then .next s
    else
      let s := bumpO s Obj.scan.mapNo
      let d := { d with number := natO s Obj.scan.mapNo, frame := s.frame }
      let s := setO s Obj.scan.mapFrame s.frame
      let s := if d.satur = 0 then s else addO s Obj.scan.scanClips d.satur
      done (beginMapOut { s with array := { s.array with ended := r, lastMap := some d } } (mapRecord d))

/-! ## A subband sample becomes available (R162) -/

def execSubbandAvailable (s : State) : Ans :=
  let m := s.array.nextSub
  if !catchRuns s || decide (s.frame < availFrame s m) || decide (s.array.nextIn < 128 * m + 128) then .next s
  else
    let r := computeSubbands s m
    let x := r.1
    let s := { r.2 with array := { r.2.array with nextSub := m + 1 } }
    let s := corrStep (lookbackStep (setO s Obj.chan.subbandNo m) x) x
    let b := (beamIds s).foldl (fun (a : State × List Nat × Nat) b =>
      let p := beamStep a.1 b x
      (p.1, if p.2 then a.2.1 ++ [b] else a.2.1, a.2.2 + beamSlots (beginFade (beamOf a.1 b) m))) (s, [], 0)
    let s := b.2.1.foldl (fun s n => raise s 199 n) b.1
    done (scanStep s x b.2.2)

/-! ## Changes at a frame (R156, R172, R199, R208) -/

/-- SETTLED_FROM of an element after a change at frame f (R156). -/
def unsettle (s : State) (f e : Nat) : State := setCatch s f (Obj.elem.settledFrom e) (f / 16 + 16 : Nat)

/-- 5100h.6: the largest SETTLED_FROM of the active elements (R163). -/
def markSettled (s : State) (f : Nat) : State :=
  let m := (slotsOf (groupList (natO s Obj.chan.groupEnable))).foldl (fun a e => max a (settledOf s e)) 0
  if m = natO s Obj.chan.settledFrom then s else setCatch s f Obj.chan.settledFrom m

/-- The look-back ring is allocated anew, and emptied, at frame f (R167, R187). -/
def moveLookback (s : State) (f : Nat) : State :=
  let bytes := natO s Obj.chan.lookbackLength * natO s Obj.chan.activeElements * 384
  let (b, s) := allocate s 3 bytes
  emptyLookback (setO s Obj.chan.lookbackBase (if bytes = 0 then 0 else (b : Int))) (f / 16)

/-- GROUP_ENABLE changes at frame f. -/
def applyGroups (s : State) (f new : Nat) : State :=
  let old := natO s Obj.chan.groupEnable
  if old = new then s
  else
    let s := setCatch s f Obj.chan.groupEnable new
    let s := setO s Obj.chan.activeElements ((128 * (groupList new).length : Nat) : Int)
    let s := ((slotsOf (groupList new)).filter (fun e => !old.testBit (e / 128))).foldl (fun s e => unsettle s f e) s
    moveLookback s f

/-- One numeric change to 5000h to 5300h at frame f. -/
def applyCatchNum (s : State) (f k : Nat) (v : Int) : State :=
  let old := getO s k
  if k = Obj.chan.groupEnable then markSettled (applyGroups s f v.toNat) f
  else if old = v then s
  else
    let s := setCatch s f k v
    if keyIndex k = 0x5000 then (if keySub k ≤ 5 then markSettled (unsettle s f (keyElem k)) f else s)
    else if k = Obj.chan.lookbackLength then moveLookback s f
    else if k = Obj.chan.lookbackFreeze then (if v = 0 then emptyLookback s (f / 16) else s)
    else s

/-- One BLOB change to 5000h to 5300h at frame f. -/
def applyCatchBlob (s : State) (f k : Nat) (b : List Byte) : State := setB (recordOld s f k (.bytes (getB s k))) k b

/-- A change is a retune (R172). -/
def retunes (k : Nat) : Bool :=
  k == Obj.chan.groupEnable || (keyIndex k == 0x5200 && decide (keySub k ≤ 6))

/-- After the changes of a group at frame f: retune, transitions, scan. `before` are the values of the keys before. -/
def finishCatch (s : State) (f : Nat) (before : List Change) : State :=
  let now (c : Change) : Val := match c.value with
    | .num _ => .num (getO s c.object)
    | .bytes _ => .bytes (getB s c.object)
  let changed := before.filter (fun c => now c != c.value)
  let s := if changed.any (fun c => retunes c.object) && s.array.running then
      (if getO s Obj.corr.enable = 1 then retune s f (f / 16) else stopCorr s f (f / 16)) else s
  let beams := ((before.filter (fun c => keyIndex c.object == 0x5300 && [1, 2, 5, 6].contains (keySub c.object))).map
    (fun c => keyElem c.object)).eraseDups
  let s := beams.foldl (fun s b => changeBeam s f b) s
  if changed.any (fun c => keyIndex c.object == 0x5300 && decide (64 ≤ keySub c.object) && decide (keySub c.object ≤ 72)) then
    { s with array := { s.array with scanFrom := s.array.scanFrom ++ [f / 16] } }
  else s

/-! ## Start, jump and block reset (R163, R172, R185, R201) -/

/-- Beams restart from silence with a transition of length FADE at subband sample m (R201). -/
def restartBeam (s : State) (m b : Nat) : State :=
  let c := beamWanted s b
  let v := { BeamSt.idle with accAt := 128 * m, live := { c with on := false } }
  setO (setBeam s b (if c.on then { v with next := [(m, c, natO s (Obj.beam.fade b))] } else v)) (Obj.beam.liveBuffer b) (liveBuffer s b c)

/-- The correlator drops what it holds: abandoned snapshots have MAGIC 0 and their numbers are not consumed (R172). -/
def abandonSnapshots (s : State) : State :=
  let c := s.array.corr
  let n := match c.computing with
    | x :: _ => x.number
    | [] => c.nextNo
  { s with array := { s.array with corr := { c with gens := [], corner := [], excluded := [], computing := [], lastEnd := none, nextNo := n } } }

/-- Every slot is cleared to zeros. -/
def clearSlots (s : State) : State :=
  setAreas s (s.array.corr.areas.map (fun a => { a with snaps := [Snapshot.none, Snapshot.none] }))

/-- Catchment starts at frame f: histories cleared, first subband sample m0 the first whose input lies wholly at or after f.
(DEDUCED, log entry 26.) -/
def startCatch (s : State) (f : Nat) : State :=
  let m := (f + 15) / 16
  let s := { s with array := { s.array with
    running := true, elems := [], base := f, nextIn := 8 * f, nextSub := m, olds := [], scan := none, scanFrom := [], ended := []
    copies := s.array.copies.filter (fun b => decide (f ≤ b.frame)) } }
  let s := { s with
    obj := s.obj.filter (fun e => !(keyIndex e.1 == 0x5000 && keySub e.1 == keySub (Obj.elem.settledFrom 0)))
    array := { s.array with settledBase := m + 16 } }
  let s := markSettled s f
  let s := { s with array := { s.array with olds := [] } }
  let s := emptyLookback s m
  let s := abandonSnapshots s
  let s := if getO s Obj.corr.enable = 1 then retune s f m else s
  (beamIds s).foldl (fun s b => restartBeam s m b) s

/-- Catchment leaves block reset at frame f: slots cleared to zeros besides (R185). -/
def releaseCatch (s : State) (f : Nat) : State :=
  let s := clearSlots s
  if s.array.running then startCatch s f else s

/-- Catchment goes under block reset: transitions complete at once for the incoming side, and the snapshot being computed is abandoned
(R172, R201). -/
def haltCatch (s : State) : State :=
  let s := (beamIds s).foldl
    (fun s b =>
      let v := beamOf s b
      let c := beamAim v
      setO (setBeam s b { v with live := c, fading := none, next := [], y := [] }) (Obj.beam.liveBuffer b) (liveBuffer s b c)) s
  abandonSnapshots { s with array := { s.array with copies := [], elems := [] } }

/-! ## The HBM ledger (R187, Table 8.5) -/

/-- Bytes of the Eddy rings in HBM. -/
def eddyHbm (s : State) : Nat :=
  (eddyIds s).foldl (fun a d => if getO s (Obj.eddy.state d) ≠ 0 ∧ getO s (Obj.eddy.location d) = 1 then
    a + natO s (Obj.eddy.length d) * natO s (Obj.eddy.channels d) * 4 else a) 0

/-- The ledger total in force: what is allocated, what is still held, what waiting groups prepare. -/
def ledger (s : State) : Nat :=
  50331648 + 83886080 + eddyHbm s + natO s Obj.chan.lookbackLength * natO s Obj.chan.activeElements * 384
    + natO s Obj.corr.cornerBytes + s.array.corr.areas.foldl (fun a x => a + 2 * x.bytes) 0 + natO s Obj.scan.adaptiveBytes
    + (s.array.held.filter (fun e => decide (e.1 < 16) && decide (s.frame < e.2.2))).foldl (fun a e => a + e.2.1) 0
    + s.slu.waiting.foldl (fun a g => a + g.bytes) 0 + (s.slu.heldFed.toList ++ s.slu.coord.toList).foldl (fun a g => a + g.bytes) 0

def hbmTotal : Nat := 25769803776

/-! ## Meters (R125) -/

def execMeterPeriod (s : State) : Ans :=
  if s.conf.meterRun < natO s Obj.meter.period then .next s else
  let s := meterDests s
  let lvl (s : State) (k p : Nat) : State := setO { s with fresh := s.fresh + 1 } k (levelOf (p * p) (2 ^ 46) s.fresh)
  let s := s.array.elems.foldl
    (fun s e => let v := elemOf s e.1; setElem (lvl s (Obj.elem.peak e.1) v.peak.toNat) e.1 { v with peak := 0 }) s
  done ((beamIds s).foldl (fun s b => let v := beamOf s b; setBeam (lvl s (Obj.beam.peak b) v.peak) b { v with peak := 0 }) s)

end Sys2Proof.Machine
end

