-- ==== Sys2Proof/Machine/Network.lean ====
section
/-! DEFINITION. Media networking: ports and path switches (R239 to R242), interfaces (R243), transmit streams (R245 to R251)
and receive streams (R252 to R259). -/

namespace Sys2Proof.Machine

/-! ## Ports, interfaces -/

/-- Block code of a path (Table 14.6). -/
def pathBlock (p : Nat) : Nat := 17 + p

/-- Element of the interface of a path (0, 1) or of CTL0 (2) of this unit (R243). -/
def ifcElem (s : State) (i : Nat) : Nat :=
  let u := if s.pins.unitB then 1 else 0
  if i < 2 then 5 + 2 * u + i else 9 + u

/-- IPv4 address of an interface: the set one, or a link-local one, 169.254.1.0 to 169.254.254.255 (R243, RFC 3927). -/
def ifcAddress (s : State) (i : Nat) : Nat :=
  let a := natO s (Obj.ifc.ipv4Address (ifcElem s i))
  if a = 0 then 0xA9FE0100 + Config.linkLocal (ifcElem s i) % 65024 else a

/-- MAC address of an interface. -/
def ifcMac (s : State) (i : Nat) : Nat := Config.macAddress (ifcElem s i) % 2 ^ 48

/-- Port number of an external port of a path. -/
def portNo (path ext : Nat) : Nat := 2 * path + ext

def portUp (s : State) (p : Nat) : Bool := getO s (Obj.port.link p) == 1

/-- Some external port of a path has link. -/
def pathUp (s : State) (path : Nat) : Bool := portUp s (portNo path 0) || portUp s (portNo path 1)

/-- The network works from Rising on, the path outside block reset (R239, R345). -/
def pathRuns (s : State) (path : Nat) : Bool := decide (2 ≤ stageOf s) && takesWork s (pathBlock path)

def pathOf (s : State) (p : Nat) : PathSt := s.net.paths.getD p PathSt.idle

def setPath (s : State) (p : Nat) (v : PathSt) : State := { s with net := { s.net with paths := s.net.paths.set p v } }

/-- A frame the engine itself sends on a path goes into the switch at its internal port. -/
def sendPath (s : State) (path : Nat) (kind : String) (fields : List Int) (payload : List Byte) : State :=
  emit s (.eth (5 + path) kind fields payload)

/-- The frames queued for a media port are lost with its link. (DESIGN CHOICE, log entry 131.) -/
def dropQueues (s : State) (p : Nat) : State :=
  if p < 4 then setPath s (p / 2) { pathOf s (p / 2) with queues := (pathOf s (p / 2)).queues.set (p % 2) [[], [], [], []] } else s

def execPortLinkDown (port : Fin 5) (s : State) : Ans :=
  let p := port.val
  if !portUp s p then .next s
  else
    let s := dropQueues (bumpO (setO s (Obj.port.link p) 0) (Obj.port.linkDowns p)) p
    done (raiseLasting s (if p = 4 then 70 else 64) p)

/-- A port gains link while it is enabled, from Rising on and outside block reset. -/
def execPortLinkUp (port : Fin 5) (s : State) : Ans :=
  let p := port.val
  if getO s (Obj.port.enable p) = 0 ∨ stageOf s < 2 ∨ (p < 4 ∧ inReset s (pathBlock (p / 2))) then .next s
  else
    let s := setO s (Obj.port.link p) 1
    if p = 4 then done (clearCondition s 70)
    else
      let down := (List.range 4).any (fun q => getO s (Obj.port.enable q) == 1 && !portUp s q && natO s (Obj.port.linkDowns q) != 0)
      done (if down then s else clearCondition s 64)

/-- ENABLE of a port is written: 0 holds its transmitter in electrical idle, so the link goes (Table 11.3). -/
def applyPortEnable (s : State) (p : Nat) (v : Int) : State :=
  let s := setO s (Obj.port.enable p) v
  if v = 0 ∧ portUp s p then
    raiseLasting (dropQueues (bumpO (setO s (Obj.port.link p) 0) (Obj.port.linkDowns p)) p) (if p = 4 then 70 else 64) p
  else s

/-- Latency defaults of a speed, in 2^-16 ns (R263): 36.86 and 24.58 ns at 25GBASE-R, 74.24 and 52.48 ns at 10GBASE-R. -/
def latencies (speed : Int) : Int × Int := if speed = 0 then (2415657, 1610875) else (4865393, 3439329)

/-- SPEED is written: the latency defaults are loaded again (R263). -/
def applySpeed (s : State) (p : Nat) (v : Int) : State :=
  if v = getO s (Obj.port.speed p) then s
  else setMany (setO s (Obj.port.speed p) v)
    [(Obj.cal.ingressLatency p, (latencies v).1), (Obj.cal.egressLatency p, (latencies v).2)]

/-! ## The path switch (R240 to R242, R264) -/

def broadcastMac : Nat := 0xFFFFFFFFFFFF

/-- A multicast or broadcast address. -/
def groupMac (m : Nat) : Bool := m.testBit 40

/-- Probe and flush frames of the ring. -/
def ringType : Nat := 0x88B5

/-- RING_STATE of the path's interface: 1 blocking (R242). -/
def ringState (s : State) (path : Nat) : Nat := natO s (Obj.ifc.ringState (ifcElem s path))

/-- IPv4 groups the engine itself has joined on a path: enabled receive streams and PTP (R241). -/
def ownGroups (s : State) (path : Nat) : List Nat :=
  let key (n : Nat) : Nat := if path = 0 then Obj.rx.groupA n else Obj.rx.groupB n
  let rx := ((List.range 512).filter (fun n => getO s (Obj.rx.enable n) == 1)).map (fun n => natO s (key n))
  (rx.filter (fun g => decide (0xE0000000 ≤ g ∧ g < 0xF0000000)) ++ [0xE0000181, 0xE000006B]).eraseDups

/-- The Ethernet group address of an IPv4 group. -/
def groupAddr (g : Nat) : Nat := 0x01005E000000 + g % 8388608

/-- A switch learns a source address, 4,096 at most. -/
def learn (s : State) (path port mac : Nat) : State :=
  let v := pathOf s path
  if groupMac mac then s
  else
    let known := v.macs.any (·.1 == mac)
    if !known && decide (4096 ≤ v.macs.length) then s
    else
      let macs := assocPut v.macs mac port
      setO (setPath s path { v with macs := macs }) (Obj.ifc.macEntries (ifcElem s path)) macs.length

/-- External ports to which a group goes: members and queriers when registered, both when not (R241). -/
def groupPorts (s : State) (path : Nat) (f : EthFrame) : List Nat :=
  let v := pathOf s path
  let snoop := getO s (Obj.ifc.igmpSnoop (ifcElem s path)) == 1
  let localNet := decide (0xE0000000 ≤ f.ipDst ∧ f.ipDst < 0xE0000100)
  let listed := v.members.filter (·.1 == f.ipDst)
  if snoop && f.etherType == 0x0800 && !localNet && !listed.isEmpty then
    [0, 1].filter (fun p => listed.any (·.2 == p) || v.queriers.contains p)
  else [0, 1]

/-- Ports a frame leaves by: external 0, 1, internal 2. The breaker does not forward between its external ports. -/
def egressPorts (s : State) (path port : Nat) (f : EthFrame) : List Nat :=
  let v := pathOf s path
  let ext : List Nat :=
    if f.dst = ifcMac s path then []
    else if groupMac f.dst then groupPorts s path f
    else
      match assocGet v.macs f.dst with
      | some p => [p]
      | none => [0, 1]
  let ext := ext.filter (fun p => p != port && portUp s (portNo path p))
  let ext := if port < 2 ∧ ringState s path = 1 then [] else ext
  let inner := port < 2 && (f.dst == ifcMac s path || f.dst == broadcastMac
    || (groupMac f.dst && (ownGroups s path).any (fun g => groupAddr g == f.dst)))
  if inner then ext ++ [2] else ext

/-- A PTP event message (UDP port 319). -/
def ptpEvent (f : EthFrame) : Option PtpMsg := if f.udpPort = 319 then f.ptp else none

/-- The residence time between external ports, referred to the ball and scaled by the rate ratio of the path's instance (R263, R264), in
2^-16 ns. (DEDUCED, log entry 133.) -/
def residence (s : State) (path port out : Nat) (f : EthFrame) (m : PtpMsg) : Int :=
  let egress := if out = 0 then f.egress.1 else f.egress.2
  let r := (egress + getO s (Obj.cal.egressLatency (portNo path out))) - (m.ingress - getO s (Obj.cal.ingressLatency (portNo path port)))
  let q := (s.time.inst.getD path PtpInst.idle).ratio
  (r * q.1).fdiv (max 1 q.2)

/-- Peer-delay messages: Pdelay_Req, Pdelay_Resp and Pdelay_Resp_Follow_Up. -/
def peerDelay (f : EthFrame) : Bool := f.ptp.any (fun m => m.msgType == 2 || m.msgType == 3 || m.msgType == 10)

/-- The transparent clock acts on a frame that leaves from one external port to the other: what is added to its correctionField, and the
switch (R264). -/
def clockFrame (s : State) (path port out : Nat) (f : EthFrame) : Int × State :=
  let mode := natO s (Obj.ifc.tcMode (ifcElem s path))
  let v := pathOf s path
  match f.ptp with
  | none => (0, s)
  | some m =>
    if mode = 0 ∨ peerDelay f then (0, s)
    else if (ptpEvent f).isSome then
      let r := residence s path port out f m
      let key := Obj.cal.residenceMax (portNo path out)
      let s := setO s key (max (natO s key) (r.fdiv 65536).toNat : Nat)
      let add := if mode = 2 ∧ m.msgType = 0 then
          r + getO s (Obj.cal.peerDelay (portNo path port)) + getO s (Obj.cal.asymmetry (portNo path port)) else r
      if m.msgType = 0 ∧ m.twoStep then
        (0, setPath s path { v with holds := v.holds.filter (fun h => !(h.1 == m.sourcePort && h.2.1 == m.seqId))
            ++ [(m.sourcePort, m.seqId, add)] })
      else (add, s)
    else if m.msgType = 8 then
      match v.holds.find? (fun h => h.1 == m.sourcePort && h.2.1 == m.seqId) with
      | none => (0, s)
      | some h => (h.2.2, setPath s path { v with holds := v.holds.filter (fun x => x != h) })
    else (0, s)

/-- Sum of the 16-bit words of a 64-bit field. -/
def words16 (v : Int) : Nat :=
  let n := wrapTo 64 v
  n % 65536 + n / 65536 % 65536 + n / 4294967296 % 65536 + n / 281474976710656

/-- A one's-complement sum folded to 16 bits. -/
def fold16 (n : Nat) : Nat :=
  let a := n % 65536 + n / 65536
  let b := a % 65536 + a / 65536
  b % 65536 + b / 65536

/-- The UDP checksum of a frame whose correctionField changes; a zero checksum is left at zero (R264). -/
def newChecksum (c : Nat) (old new : Int) : Nat :=
  if c = 0 then 0
  else
    let r := 65535 - fold16 ((65535 - c) + (4 * 65535 - words16 old) + words16 new)
    if r = 0 then 65535 else r

/-- A frame leaves by a port of the switch: an external one counts it, the internal one delivers it to the engine. -/
def leaveFrame (s : State) (path port : Nat) (f : EthFrame) (out : Nat) : State :=
  if out = 2 then sendPath s path "in" [f.dst, f.src, f.etherType, f.length] []
  else
    let n := portNo path out
    let r := if port < 2 then clockFrame s path port out f else (0, s)
    let c := (f.ptp.map (·.correction)).getD 0
    let s := bumpO r.2 (Obj.port.txFrames n)
    let s := if port < 2 then bumpO s (Obj.ifc.forwarded (ifcElem s path)) else s
    emit s (.eth n "frame" [f.dst, f.src, ((f.vlan.getD 0 : Nat) : Int), f.etherType, f.length, r.1, (newChecksum f.checksum c (c + r.1) : Nat)] [])

/-! ### The egress queues (R240) -/

/-- The queue of a frame: PTP event messages, media, PTP general messages and Gultin, all others. -/
def queueOf (s : State) (path : Nat) (f : EthFrame) : Nat :=
  let udp := f.etherType == 0x0800 && f.proto == 17
  if udp && f.udpPort == 319 then 0
  else if f.etherType == 0x0800 && f.dscp == natO s (Obj.ifc.dscpMedia (11 + path)) then 1
  else if udp && (f.udpPort == 320 || f.udpPort == gultinPort s || f.udpSrc == gultinPort s) then 2
  else 3

/-- The four queues of a port. -/
def queuesOf (s : State) (path out : Nat) : List (List (Nat × EthFrame)) := (pathOf s path).queues.getD out []

def setQueues (s : State) (path out : Nat) (q : List (List (Nat × EthFrame))) : State :=
  setPath s path { pathOf s path with queues := (pathOf s path).queues.set out q }

/-- A frame goes into its queue of 256 KiB at a port; one that finds it full is dropped and counted. -/
def queueFrame (s : State) (path port : Nat) (f : EthFrame) (out : Nat) : State :=
  let qs := queuesOf s path out
  let c := queueOf s path f
  let q := qs.getD c []
  if 262144 < q.foldl (fun n x => n + x.2.length) 0 + f.length then
    (if out < 2 then bumpO s (Obj.port.drops (portNo path out)) else s)
  else setQueues s path out (qs.set c (q ++ [(port, f)]))

/-- A port takes n frames from its queues, strictly by priority. -/
def drainPort (s : State) (path out : Nat) : Nat → State
  | 0 => s
  | n + 1 =>
    let qs := queuesOf s path out
    match (List.range 4).find? (fun c => !(qs.getD c []).isEmpty) with
    | none => s
    | some c =>
      match qs.getD c [] with
      | [] => s
      | x :: rest => drainPort (leaveFrame (setQueues s path out (qs.set c rest)) path x.1 x.2 out) path out n

/-- A frame in a path switch: learned, queued at the ports it leaves by, and the ports send on. Peer-delay messages of a peer-to-peer
transparent clock are not forwarded (R264). -/
def switchFrame (s : State) (p port : Nat) (f : EthFrame) : State :=
  if 0x0180C2000000 ≤ f.dst ∧ f.dst ≤ 0x0180C200000F then s
  else
    let s := learn s p port f.src
    let held := decide (port < 2) && peerDelay f && natO s (Obj.ifc.tcMode (ifcElem s p)) == 2
    let outs := (egressPorts s p port f).filter (fun o => !(held && decide (o < 2)))
    let s := outs.foldl (fun s o => queueFrame s p port f o) s
    drainPort (drainPort (drainPort s p 0 f.sent.1) p 1 f.sent.2.1) p 2 f.sent.2.2

/-- What CTL0 carries: ARP, ICMP echo, Gultin and the host DMA datagrams (R239). -/
def ctlCarries (s : State) (f : EthFrame) : Bool :=
  f.etherType == 0x0806 || (f.etherType == 0x0800 && (f.proto == 1 || (f.proto == 17
    && [f.udpPort, f.udpSrc].any (fun p => p == gultinPort s || p == gultinPort s + 1))))

/-- A frame at CTL0: from outside (port 0 or 1) it goes to the engine, from the engine (port 2) it leaves. -/
def ctlFrame (s : State) (port : Nat) (f : EthFrame) : State :=
  if !ctlCarries s f then s
  else if port = 2 then
    emit (bumpO s (Obj.port.txFrames 4)) (.eth 4 "frame" [f.dst, f.src, ((f.vlan.getD 0 : Nat) : Int), f.etherType, f.length, 0, f.checksum] [])
  else emit s (.eth 7 "in" [f.dst, f.src, f.etherType, f.length] [])

/-- A frame enters a path switch at an external port (0, 1) or at the internal one (2), or path 2, CTL0: errors and frames longer than
1,522 bytes are counted and dropped (R239, R240). -/
def execSwitchFrame (path : Fin 3) (port : Fin 3) (f : EthFrame) (s : State) : Ans :=
  let p := path.val
  let n := if p = 2 then 4 else portNo p port
  let outer := decide (port.val < 2)
  let runs := if p = 2 then decide (2 ≤ stageOf s) && portUp s 4 else pathRuns s p && (!outer || portUp s n)
  if !runs then .next s
  else if !f.sound || decide (1522 < f.length) then done (if outer then bumpO s (Obj.port.rxErrors n) else s)
  else
    let s := if outer then bumpO s (Obj.port.rxFrames n) else s
    done (if p = 2 then ctlFrame s port f else switchFrame s p port f)

def execTwoStepHoldExpiry (path : Fin 2) (sourcePort seqId : Nat) (s : State) : Ans :=
  let v := pathOf s path
  done (setPath s path { v with holds := v.holds.filter (fun h => !(h.1 == sourcePort && h.2.1 == seqId)) })

def execMacAgeExpiry (path : Fin 2) (mac : Nat) (s : State) : Ans :=
  let v := pathOf s path
  let macs := v.macs.filter (·.1 != mac)
  done (setO (setPath s path { v with macs := macs }) (Obj.ifc.macEntries (ifcElem s path)) macs.length)

/-- An IGMP membership report on an external port (R241). -/
def execIgmpReport (path port : Fin 2) (group : Nat) (s : State) : Ans :=
  if !pathRuns s path || getO s (Obj.ifc.igmpSnoop (ifcElem s path)) == 0 then .next s
  else
    let v := pathOf s path
    done (setPath s path { v with members := v.members.filter (· != (group, port.val)) ++ [(group, port.val)] })

/-- A version 2 querier is heard on the path: it has sent a query within the last 260 s (R241). (PRESUMED, log entry 132.) -/
def hearsV2 (s : State) (path : Nat) : Bool :=
  let a := (pathOf s path).v2At
  a != 0 && decide (s.rst.upFrames < a - 1 + 260 * 6000)

/-- The engine reports its groups, with IGMPv2 or IGMPv3 (R241). -/
def reportGroups (s : State) (path : Nat) : State :=
  sendPath s path "igmp report" ((if hearsV2 s path then 2 else 3) :: List.map Int.ofNat (ownGroups s path)) []

/-- A query marks its port, and the engine reports its groups (R241). -/
def execIgmpQuery (path port : Fin 2) (version : Nat) (s : State) : Ans :=
  if !pathRuns s path then .next s
  else
    let v := pathOf s path
    let v := { v with
      queriers := if v.queriers.contains port.val then v.queriers else v.queriers ++ [port.val]
      v2At := if version = 2 then s.rst.upFrames + 1 else v.v2At }
    done (reportGroups (setPath s path v) path)

def execMembershipExpiry (path port : Fin 2) (group : Nat) (s : State) : Ans :=
  let v := pathOf s path
  done (setPath s path { v with members := v.members.filter (· != (group, port.val)) })

/-- The breaker of a ring on a path. -/
def breaker (s : State) (path : Nat) : Option Nat :=
  let b := natO s (Obj.ifc.ringBlock (ifcElem s path))
  if b < 2 then some b else none

/-- A path's interface is a ring breaker, blocking, or none, as its RING_BLOCK says (R242). -/
def startRing (s : State) (path : Nat) : State := setO s (Obj.ifc.ringState (ifcElem s path)) (if (breaker s path).isSome then 1 else 0)

/-- RING_BLOCK is written (Table 11.4); the elements of the other unit are unused (R243). -/
def applyRingBlock (s : State) (e : Nat) (v : Int) : State :=
  let s := setO s (Obj.ifc.ringBlock e) v
  match [0, 1].find? (fun p => ifcElem s p == e) with
  | some p => startRing s p
  | none => s

/-- Until Flowing the engine itself sends no ring frames; the switch forwards those of others (R239). -/
def ringSends (s : State) (path : Nat) : Bool := pathRuns s path && decide (3 ≤ stageOf s)

/-- A flush frame goes out of an external port. -/
def passFlush (s : State) (path ext : Nat) : State :=
  if portUp s (portNo path ext) then emit s (.eth (portNo path ext) "flush" [ringType] []) else s

/-- The breaker's own flush, out of both external ports (R242). -/
def sendFlush (s : State) (path : Nat) : State := if ringSends s path then passFlush (passFlush s path 0) path 1 else s

def execRingProbeSend (path : Fin 2) (s : State) : Ans :=
  match breaker s path with
  | some b => done (if ringSends s path then emit s (.eth (portNo path (1 - b)) "probe" [ringType] []) else s)
  | none => .next s

/-- The third probe in a row has not returned: the breaker forwards and flushes (R242). (DEDUCED, log entry 43.) -/
def execRingProbeMiss (path : Fin 2) (s : State) : Ans :=
  if (breaker s path).isSome ∧ ringState s path = 1 ∧ pathRuns s path then
    let s := setO s (Obj.ifc.ringState (ifcElem s path)) 2
    done (raiseLasting (sendFlush s path) 71 path)
  else done s

/-- Probes have returned without a miss for 1 s: the breaker blocks again and flushes. -/
def execRingRestore (path : Fin 2) (s : State) : Ans :=
  if (breaker s path).isSome ∧ ringState s path = 2 then
    let s := setO s (Obj.ifc.ringState (ifcElem s path)) 1
    let s := sendFlush s path
    done (if ringState s (1 - path.val) = 2 then s else clearCondition s 71)
  else done s

/-- A flush received clears the path's MAC table and is passed on, unless the breaker blocks (R242). -/
def execFlushFrame (path port : Fin 2) (s : State) : Ans :=
  if !pathRuns s path then .next s
  else
    let s := setO (setPath s path { pathOf s path with macs := [] }) (Obj.ifc.macEntries (ifcElem s path)) 0
    done (if ringState s path = 1 then s else passFlush s path (1 - port.val))

/-- The interface sends and receives: its path or the CTL0 port works. -/
def ifcRuns (s : State) (i : Nat) : Bool :=
  if i < 2 then pathRuns s i && pathUp s i else decide (2 ≤ stageOf s) && portUp s 4

/-- Internal port from which an interface sends: 5, 6 of the paths, 7 of CTL0. -/
def ifcPort (i : Nat) : Nat := 5 + i

def execArpRequest (ifc : Fin 3) (target senderMac senderIp : Nat) (s : State) : Ans :=
  if ifcRuns s ifc && target == ifcAddress s ifc then
    done (emit s (.eth (ifcPort ifc) "arp reply" [ifcMac s ifc, ifcAddress s ifc, senderMac, senderIp] []))
  else .next s

def execIcmpEcho (ifc : Fin 3) (dst src id seq : Nat) (data : List Byte) (s : State) : Ans :=
  if ifcRuns s ifc && dst == ifcAddress s ifc then
    done (emit s (.eth (ifcPort ifc) "icmp echo reply" [dst, src, id, seq] data))
  else .next s

/-! ## Streams: sizes (R245, Table 11.2) -/

/-- S, samples per packet, for a PACKET_TIME code at the engine rate. -/
def packetSamples (rate code : Nat) : Nat := [6, 12, 16, 48].getD code 48 * (if rate = 0 then 1 else 2)

/-- Largest channel count for an encoding (0 L24, 1 L16) and packet time: 64 or 32, and 1,460 payload bytes. -/
def maxChannels (rate enc code : Nat) : Nat :=
  min (if rate = 0 then 64 else 32) (1460 / (packetSamples rate code * (if enc = 0 then 3 else 2)))

/-! ## Transmit streams (R246 to R251) -/

/-- The path is allotted to this unit: both to a lone engine, as the pair decides otherwise (R249, R300). (DEDUCED, log entry 45.) -/
def allotted (s : State) (p : Nat) : Bool := !s.rst.pairEnable || s.pair.pathsSent.getD p false

/-- The packet whose first sample has an index is this unit's on a path: a planned hand-over divides them at Z (R300). -/
def sendsPacket (s : State) (p first : Nat) : Bool :=
  match s.pair.handovers.find? (fun h => h.1 == p) with
  | some (_, z, take) => !s.rst.pairEnable || decide (sampleIndex s z ≤ first) == take
  | none => allotted s p

/-- The transmit stream is enabled, or has packets left to send. -/
def txRunning (s : State) (n : Nat) : Bool := Sparse.get (fun _ => 0) s.net.txNext n != 0

/-- STATE of a transmit stream (Table 11.5). -/
def txState (s : State) (n : Nat) : Nat :=
  if getO s (Obj.tx.enable n) = 0 then 0
  else
    let p := natO s (Obj.tx.paths n)
    match p.testBit 0 && allotted s 0, p.testBit 1 && allotted s 1 with
    | true, true => 1
    | true, false => 2
    | false, true => 3
    | false, false => 4

/-- ENABLE of a transmit stream changes at frame f (R248). -/
def applyTxEnable (s : State) (f n : Nat) (v : Int) : State :=
  if v = getO s (Obj.tx.enable n) then s
  else
    let s := setO s (Obj.tx.enable n) v
    let i := sampleIndex s f
    let size := packetSamples s.rst.rate (natO s (Obj.tx.packetTime n))
    if v = 1 then
      { s with net := { s.net with
          txNext := Sparse.put (fun _ => 0) s.net.txNext n ((i + size - 1) / size + 1)
          txUntil := Sparse.drop s.net.txUntil n } }
    else { s with net := { s.net with txUntil := Sparse.put (fun _ => 0) s.net.txUntil n i } }

/-- Sample of a transmit channel at a sample index: 0 in a frame muted by a re-base (R269). -/
def playedSample (s : State) (ch i : Nat) : Int :=
  let n := frameSamples s
  let f := i / n
  if s.conf.muteFrame = some f then 0
  else
    match assocGet s.net.played f with
    | some m => (Sparse.get (fun _ => []) m ch).getD (i % n) 0
    | none => 0

/-- The RTP header of packet k (R247). -/
def rtpHeader (s : State) (n k : Nat) : List Byte :=
  let size := packetSamples s.rst.rate (natO s (Obj.tx.packetTime n))
  let ts : Int := ((k * size : Nat) : Int) + getO s Obj.tb.tsShift + getO s (Obj.tx.rtpOffset n)
  [0x80] ++ natBE (natO s (Obj.tx.payloadType n)) 1 ++ natBE ((k + natO s (Obj.tx.seqBase n)) % 65536) 2
    ++ natBE (ts % 4294967296).toNat 4 ++ natBE (natO s (Obj.tx.ssrc n)) 4

/-- The payload of packet k: sample by sample, 24-bit big-endian. -/
def rtpPayload (s : State) (n k : Nat) : List Byte :=
  let size := packetSamples s.rst.rate (natO s (Obj.tx.packetTime n))
  (List.range size).flatMap fun i => (List.range (natO s (Obj.tx.channels n))).flatMap fun c =>
    natBE (wrapTo 24 (playedSample s (natO s (Obj.tx.firstChannel n) + c) (k * size + i))) 3

/-- The UDP checksum of a datagram over IPv4: header, pseudo-header and data; 0 is sent as FFFFh (R247). -/
def udpChecksum (src dst sport dport : Nat) (data : List Byte) : Nat :=
  let n := data.length + 8
  let word (x : Nat) : Nat := x / 65536 + x % 65536
  let body := (chunks 2 ((data.length + 1) / 2) data).foldl (fun a b => a + beNat (b ++ List.replicate (2 - b.length) 0x00)) 0
  let sum := word src + word dst + 17 + n + sport + dport + n + body
  let r := 65535 - fold16 sum
  if r = 0 then 65535 else r

/-- One copy of a packet on a path: sent, or dropped for a full queue or a path without link (R249, R250). Its numbers: the IPv4
addresses, the UDP ports, DSCP, TTL, the DF bit, the UDP checksum, and the VLAN tag. -/
def sendMedia (s : State) (n k path : Nat) (fullQ : Bool) : State :=
  let size := packetSamples s.rst.rate (natO s (Obj.tx.packetTime n))
  if !(natO s (Obj.tx.paths n)).testBit path || !sendsPacket s path (k * size) then s
  else if fullQ || !pathUp s path then raise (bumpO s (Obj.tx.underruns n)) 68 n
  else
    let set := natO s (Obj.ifc.streamSource (11 + path))
    let src := if set = 0 then ifcAddress s path else set
    let dst := natO s (if path = 0 then Obj.tx.destA n else Obj.tx.destB n)
    let port := natO s (Obj.tx.udpPort n)
    let rtp := rtpHeader s n k ++ rtpPayload s n k
    bumpO (sendPath s path "rtp" [dst, src, port, port, getO s (Obj.ifc.dscpMedia (11 + path)), getO s (Obj.tx.ttl n), 1,
      udpChecksum src dst port port rtp, getO s (Obj.ifc.mediaVlan (11 + path)), getO s (Obj.ifc.mediaPcp (11 + path))] rtp) (Obj.tx.packets n)

/-- The next packet of a stream is built and sent once its last sample plays (R247 to R250). -/
def execRtpTx (stream : Fin 512) (fullA fullB : Bool) (s : State) : Ans :=
  let n := stream.val
  let next := Sparse.get (fun _ => 0) s.net.txNext n
  if next = 0 ∨ stageOf s < 3 then .next s
  else
    let k := next - 1
    let size := packetSamples s.rst.rate (natO s (Obj.tx.packetTime n))
    let stop := assocGet s.net.txUntil n
    if stop.any (fun i => decide (i ≤ k * size)) then
      done { s with net := { s.net with txNext := Sparse.drop s.net.txNext n, txUntil := Sparse.drop s.net.txUntil n } }
    else if s.frame < (k * size + size - 1) / frameSamples s then .next s
    else
      let s := { s with net := { s.net with txNext := Sparse.put (fun _ => 0) s.net.txNext n (next + 1) } }
      done (sendMedia (sendMedia s n k 0 fullA) n k 1 fullB)

/-- Samples played by the transmit channels in the frame that begins, kept for packets of up to 1 ms. -/
def playedTick (s : State) : State :=
  let here := s.conf.tdm.playing.filter (fun e => decide (e.1 < 4096))
  { s with net := { s.net with played := ((s.frame, here) :: s.net.played).take 8 } }

/-- Characters as bytes. -/
def ascii (t : String) : List Byte := t.toList.map (fun c => BitVec.ofNat 8 c.toNat)

/-- Dotted notation of an IPv4 address. -/
def dotted (a : Nat) : String :=
  toString (a / 16777216) ++ "." ++ toString (a / 65536 % 256) ++ "." ++ toString (a / 256 % 256) ++ "." ++ toString (a % 256)

/-- Two upper-case hexadecimal digits. -/
def hexByte (b : Nat) : String :=
  let d (n : Nat) : Char := Char.ofNat (if n < 10 then 48 + n else 55 + n)
  String.ofList [d (b / 16 % 16), d (b % 16)]

/-- A clock identity as RFC 7273 writes it. -/
def clockId (v : Nat) : String := String.intercalate "-" ((List.range 8).map (fun i => hexByte (v / 2 ^ (56 - 8 * i) % 256)))

/-- The PTP instance an SDP description names: the selected one, else A (R251). -/
def sdpInstance (s : State) : Nat := if getO s Obj.sel.selected = 1 then 1 else 0

/-- The SDP description of a transmit stream (R251). (DEDUCED, log entry 33.) -/
def sdpBytes (s : State) (n : Nat) : List Byte :=
  let onlyB := natO s (Obj.tx.paths n) == 2
  let dst := natO s (if onlyB then Obj.tx.destB n else Obj.tx.destA n)
  let path := if onlyB then 1 else 0
  let src := natO s (Obj.ifc.streamSource (11 + path))
  let origin := dotted (if src = 0 then ifcAddress s path else src)
  let inst := sdpInstance s
  let num (v : Int) : String := toString v
  let pt := num (getO s (Obj.tx.payloadType n))
  let rate := if s.rst.rate = 0 then "48000" else "96000"
  let ptime := ["0.125", "0.25", "0.333", "1"].getD (natO s (Obj.tx.packetTime n)) "1"
  let multi := decide (0xE0000000 ≤ dst ∧ dst < 0xF0000000)
  ascii ("v=0\r\no=- " ++ toString n ++ " " ++ num (getO s (Obj.tx.sdpVersion n)) ++ " IN IP4 " ++ origin
    ++ "\r\ns=" ++ toString n ++ "\r\nc=IN IP4 " ++ dotted dst ++ (if multi then "/" ++ num (getO s (Obj.tx.ttl n)) else "")
    ++ "\r\nt=0 0\r\nm=audio " ++ num (getO s (Obj.tx.udpPort n)) ++ " RTP/AVP " ++ pt
    ++ "\r\na=rtpmap:" ++ pt ++ " L24/" ++ rate ++ "/" ++ num (getO s (Obj.tx.channels n))
    ++ "\r\na=ptime:" ++ ptime
    ++ "\r\na=ts-refclk:ptp=IEEE1588-2008:" ++ clockId (natO s (Obj.ptp.gmIdentity inst)) ++ ":" ++ num (getO s (Obj.ptp.domain inst))
    ++ "\r\na=mediaclk:direct=" ++ num (getO s (Obj.tx.rtpOffset n)) ++ "\r\n")

/-- SDP_VERSION of every transmit stream rises (R251, R269). -/
def bumpSdp (s : State) : State := (List.range 512).foldl (fun s n => bumpO s (Obj.tx.sdpVersion n)) s

/-- A change of the selection that changes the selected grandmaster raises SDP_VERSION (R251). -/
def noteGrandmaster (before s : State) : State :=
  let gm (s : State) : Nat := natO s (Obj.ptp.gmIdentity (sdpInstance s))
  if gm before = gm s then s else bumpSdp s

/-! ## Receive streams (R252 to R259) -/

/-- The groups of a path have changed: the engine reports them (R241). -/
def groupsChanged (before s : State) (path : Nat) : State :=
  if pathRuns s path ∧ ownGroups before path ≠ ownGroups s path then reportGroups s path else s

/-- ENABLE of a receive stream changes at frame f (R241, R258). -/
def applyRxEnable (s : State) (f n : Nat) (v : Int) : State :=
  if v = getO s (Obj.rx.enable n) then s
  else
    let before := s
    let s := setO s (Obj.rx.enable n) v
    let s := groupsChanged before (groupsChanged before s 0) 1
    let i := sampleIndex s f
    let mine (l : List Nat) : List Nat := l.filter (fun x => x / 2 != n)
    if v = 1 then
      { s with net := { s.net with
          rxFrom := Sparse.insert s.net.rxFrom n i, rxUntil := Sparse.drop s.net.rxUntil n
          seen := s.net.seen.filter (·.1 != n), differ := s.net.differ.filter (·.1 != n), copies := s.net.copies.filter (·.stream != n)
          phase := Sparse.drop s.net.phase n, hearing := mine s.net.hearing, lossSeen := mine s.net.lossSeen } }
    else { s with net := { s.net with rxUntil := Sparse.insert s.net.rxUntil n i, hearing := mine s.net.hearing } }

def rxGroup (s : State) (n p : Nat) : Nat := natO s (if p = 0 then Obj.rx.groupA n else Obj.rx.groupB n)
def rxSource (s : State) (n p : Nat) : Nat := natO s (if p = 0 then Obj.rx.sourceA n else Obj.rx.sourceB n)

/-- Samples of a payload: L24, or L16 in the high 16 bits (Table 11.1). -/
def payloadSamples (enc : Nat) (b : List Byte) : List Int :=
  if enc = 0 then (chunks 3 (b.length / 3) b).map (fun x => signed 24 (beNat x))
  else (chunks 2 (b.length / 2) b).map (fun x => signed 16 (beNat x) * 256)

/-- n0: the index congruent to the time stamp modulo 2^32 nearest to the first sample index of the frame (R254). -/
def nearestIndex (ts now : Int) : Int :=
  let d := (ts - now) % 4294967296
  now + (if d ≤ 2147483648 then d else d - 4294967296)

/-- A packet that matches a stream's address and port but fails another condition of R253. -/
def badPacket (s : State) (n : Nat) : State :=
  let s := bumpO s (Obj.rx.bad n)
  let last := Sparse.get (fun _ => 0) s.net.badAt n
  if last = 0 ∨ last - 1 + 6000 ≤ s.rst.upFrames then
    raise { s with net := { s.net with badAt := Sparse.put (fun _ => 0) s.net.badAt n (s.rst.upFrames + 1) } } 69 n
  else s

/-- A valid packet of a stream on a path (R253 to R256). One that comes more than 10 ms after the deadline of its last sample, when
no record is kept of it, is discarded. (DEDUCED, log entry 34.) -/
def acceptPacket (s : State) (n path : Nat) (p : RtpPacket) : State :=
  let rate := s.rst.rate
  let size := packetSamples rate (natO s (Obj.rx.packetTime n))
  let fs := frameSamples s
  let n0 := nearestIndex ((p.timestamp : Int) - getO s (Obj.rx.rtpOffset n) - getO s Obj.tb.tsShift) (sampleIndex s s.frame)
  let i0 := n0 + getO s (Obj.rx.linkOffset n)
  let key := 2 * n + path
  let s := setO (bumpO s (Obj.rx.packets n path)) (Obj.rx.ssrc n) p.ssrc
  let gone := s.net.lossSeen.contains key
  let s := { s with net := { s.net with
      hearing := if s.net.hearing.contains key then s.net.hearing else s.net.hearing ++ [key]
      lossSeen := s.net.lossSeen.filter (· != key) } }
  let s := if gone ∧ s.net.lossSeen.isEmpty then clearCondition s 66 else s
  let last := i0 + size - 1
  if s.frame + 240 < last.fdiv fs then bumpO s (Obj.rx.early n)
  else
    let first : Int := max i0 (sampleIndex s s.frame : Nat)
    if last.fdiv fs + 61 < s.frame then s else
    let seen := s.net.seen.any (fun e => e.1 == n && e.2.1 == p.sequence)
    let s := if seen then bumpO s (Obj.rx.duplicates n)
      else
        let s := { s with net := { s.net with seen := s.net.seen ++ [(n, p.sequence, (last.fdiv fs).toNat)] } }
        if i0 < first then raise (bumpO s (Obj.rx.late n)) 67 n else s
    if last < first then s
    else
      let skip := (first - i0).toNat
      let ch := natO s (Obj.rx.channels n)
      let xs := payloadSamples (natO s (Obj.rx.encoding n)) p.payload
      if s.net.copies.any (fun c => c.stream == n && c.path == path && c.seq == p.sequence) then s
      else { s with net := { s.net with
          copies := s.net.copies ++ [⟨n, path, p.sequence, first.toNat, size - skip, xs.drop (skip * ch), crc32 p.payload,
            p.timestamp, p.payload⟩]
          phase := Sparse.insert s.net.phase n ((i0 % (size : Nat)).toNat) } }

/-- A media packet arrives on a path (R253). -/
def execRtpPacket (path : Fin 2) (p : RtpPacket) (s : State) : Ans :=
  if !pathRuns s path then .next s
  else
    done ((List.range 512).foldl
      (fun s n =>
        if getO s (Obj.rx.enable n) = 0 ∨ rxGroup s n path = 0 ∨ rxGroup s n path ≠ p.dst ∨ natO s (Obj.rx.udpPort n) ≠ p.port then s
        else
          let src := rxSource s n path
          let enc := natO s (Obj.rx.encoding n)
          let bytes := natO s (Obj.rx.channels n) * packetSamples s.rst.rate (natO s (Obj.rx.packetTime n)) * (if enc = 0 then 3 else 2)
          if (src = 0 ∨ src = p.src) ∧ p.version = 2 ∧ !p.extension ∧ p.csrcCount = 0
              ∧ p.payloadType = natO s (Obj.rx.payloadType n) ∧ p.payload.length = bytes then acceptPacket s n path p
          else badPacket s n) s)

/-- A path has delivered nothing for 10 packet times (R256). -/
def execRxPathLoss (stream : Fin 512) (path : Fin 2) (s : State) : Ans :=
  let n := stream.val
  let key := 2 * n + path.val
  if getO s (Obj.rx.enable n) = 1 ∧ rxGroup s n path ≠ 0 ∧ !s.net.lossSeen.contains key then
    let s := { s with net := { s.net with lossSeen := s.net.lossSeen ++ [key], hearing := s.net.hearing.filter (· != key) } }
    done (raiseLasting (bumpO s (Obj.rx.pathLosses n)) 66 n)
  else done s

/-- STATE of a receive stream (Table 11.6). -/
def rxState (s : State) (n : Nat) : Nat :=
  let bad := Sparse.get (fun _ => 0) s.net.badAt n
  (if s.net.hearing.contains (2 * n) then 1 else 0) + (if s.net.hearing.contains (2 * n + 1) then 2 else 0)
    + (if bad ≠ 0 ∧ s.rst.upFrames < bad - 1 + 6000 then 4 else 0)

/-- Frames from a source frame to the route pass that consumes it: 1, or 3 in a pair (R27, R257). -/
def inputLag (s : State) : Nat := if inPair s then 3 else 1

/-- The copy used for a sequence number: path A before path B (R255). -/
def chosenCopy (cs : List RxCopy) (seq : Nat) : Option RxCopy :=
  match cs.find? (fun c => c.seq == seq && c.path == 0) with
  | some c => some c
  | none => cs.find? (fun c => c.seq == seq)

/-- What one receive stream delivers in a source frame: samples per channel; counts; the sequence numbers found to differ (R255,
R256). -/
structure RxFrame where
  chans : List (List Int)
  lost  : Nat
  gap   : Bool
  fromB : Nat
  diffs : List Nat
  deriving DecidableEq, Repr

/-- The stream delivers samples in frame h: from the frame it was enabled at to that before it was disabled (R258). -/
def rxLive (s : State) (n h : Nat) : Bool :=
  let i := h * frameSamples s
  decide (Sparse.get (fun _ => 0) s.net.rxFrom n ≤ i) && (assocGet s.net.rxUntil n).all (fun u => decide (i < u))

/-- Source frame h of stream n. A missing sequence number is counted at its first sample that the stream would deliver. (DEDUCED, log
entry 34.) -/
def rxFrame (s : State) (n h : Nat) : RxFrame :=
  let fs := frameSamples s
  let ch := natO s (Obj.rx.channels n)
  let size := packetSamples s.rst.rate (natO s (Obj.rx.packetTime n))
  let cs := s.net.copies.filter (fun c => c.stream == n && decide (c.at0 < (h + 1) * fs) && decide (h * fs < c.at0 + c.count))
  let used := ((cs.map (·.seq)).eraseDups).filterMap (chosenCopy cs)
  let idx := (List.range fs).map (fun j => h * fs + j)
  let find (i : Nat) : Option RxCopy := used.find? (fun c => decide (c.at0 ≤ i) && decide (i < c.at0 + c.count))
  let sample (c i : Nat) : Int :=
    if s.conf.muteFrame == some h then 0
    else
      match find i with
      | some x => x.samples.getD ((i - x.at0) * ch + c) 0
      | none => 0
  let missing := idx.filter (fun i => (find i).isNone)
  let phase := Sparse.get (fun _ => natO s (Obj.rx.linkOffset n) % size) s.net.phase n
  let from0 := Sparse.get (fun _ => 0) s.net.rxFrom n
  let gone := (missing.map (fun i => (i + size - phase) / size)).eraseDups
  { chans := (List.range ch).map (fun c => idx.map (sample c))
    lost := gone.countP (fun q => decide (h * fs ≤ max (q * size + phase - size) from0))
    gap := !missing.isEmpty
    fromB := used.countP (fun c => c.path == 1 && decide (h * fs ≤ c.at0))
    diffs := (used.filter (fun c => c.path == 0 && !s.net.differ.contains (n, c.seq)
      && cs.any (fun d => d.seq == c.seq && d.path == 1 && d.payload != c.payload))).map (·.seq) }

/-- Receive streams that deliver samples in frame h. -/
def rxStreams (s : State) (h : Nat) : List Nat :=
  (List.range 512).filter (fun n => (getO s (Obj.rx.enable n) == 1 || (assocGet s.net.rxUntil n).isSome) && rxLive s n h)

/-- The counters of a stream after a frame, and event 65. -/
def rxCounts (s : State) (n : Nat) (x : RxFrame) : State :=
  let s := if x.fromB = 0 then s else addO s (Obj.rx.fromB n) x.fromB
  let s := if x.diffs.isEmpty then s else
    addO { s with net := { s.net with differ := s.net.differ ++ x.diffs.map (fun q => (n, q)) } } (Obj.rx.mismatches n) x.diffs.length
  let s := if x.lost = 0 then s else addO s (Obj.rx.lost n) x.lost
  if x.gap then raise s 65 n else s

/-- The receive channels of the source frame that the route pass of this frame consumes, by source (R255 to R257). -/
def netTick (s : State) : Sparse (List Int) × State :=
  let lag := inputLag s
  if s.frame < lag then ([], s)
  else
    let h := s.frame - lag
    let r := (rxStreams s h).foldl
      (fun (a : Sparse (List Int) × State) n =>
        let x := rxFrame a.2 n h
        let first := 64 + natO a.2 (Obj.rx.firstChannel n)
        let m := ((List.range x.chans.length).zip x.chans).foldl (fun m e => Sparse.put (fun _ => []) m (first + e.1) e.2) a.1
        (m, rxCounts a.2 n x)) ([], s)
    let s := r.2
    let fs := frameSamples s
    let seen := s.net.seen.filter (fun e => decide (s.frame ≤ e.2.2 + 1 + 60))
    (r.1, { s with net := { s.net with
        copies := s.net.copies.filter (fun c => decide ((h + 1) * fs < c.at0 + c.count))
        seen := seen
        differ := s.net.differ.filter (fun e => seen.any (fun x => x.1 == e.1 && x.2.1 == e.2)
          || s.net.copies.any (fun c => c.stream == e.1 && c.seq == e.2))
        rxUntil := s.net.rxUntil.filter (fun e => decide ((h + 1) * fs < e.2)) } })

/-- A network path goes under block reset: ports start from link-down, the MAC table is empty (R347). -/
def resetPath (s : State) (p : Nat) : State :=
  let s := setO (setPath s p PathSt.idle) (Obj.ifc.macEntries (ifcElem s p)) 0
  [0, 1].foldl (fun s e => setO s (Obj.port.link (portNo p e)) 0) s

end Sys2Proof.Machine
end

