-- ==== Sys2Proof/Machine/Journal.lean ====
section
/-! DEFINITION. Requests as bytes (Tables 2.11, 2.12), the link between the two units of a pair, and the journal's entries and
decisions (R49, R50, R306). -/

namespace Sys2Proof.Machine

/-! ## Requests (Tables 2.11 and 2.12) -/

/-- Message type of a request. -/
def reqCode : Request → Nat
  | .hello _ => 1
  | .claim _ => 2
  | .yield _ => 3
  | .heartbeat _ => 4
  | .read _ => 5
  | .write _ _ _ => 6
  | .groupBegin _ => 7
  | .groupCommit _ => 8
  | .subscribe _ => 9
  | .resume _ => 13

/-- The payload of a request as sent. -/
def reqPayload : Request → List Byte
  | .hello b => natBE b.station 8 ++ natBE b.resume 2 ++ natBE b.reserved 2
  | .claim b => natBE b.priority 1 ++ natBE b.bits.toNat 1
  | .yield st => natBE st 8
  | .heartbeat ep => natBE ep 4
  | .read b => natBE b.index 2 ++ natBE b.element 2 ++ natBE b.sub 1 ++ natBE b.typ 1 ++ natBE b.offset 4 ++ natBE b.maxLen 2
  | .write i sub w => natBE i 2 ++ natBE w.element 2 ++ natBE sub 1 ++ natBE w.typ 1 ++ natBE w.offset 4 ++ natBE w.length 2
      ++ w.value
  | .groupBegin b => natBE b.tag 4 ++ natBE b.reserved 4
  | .groupCommit b => natBE b.tag 4 ++ natBE b.target 8 ++ natBE b.options.toNat 2 ++ natBE b.reserved 2
  | .subscribe b =>
    natBE b.kind 1 ++ natBE b.mode 1 ++ natBE b.period 2
      ++ natBE b.index 2 ++ natBE b.element 2 ++ natBE b.sub 1 ++ natBE b.typ 1
  | .resume f => natBE f 4

/-- A write in the sense of R48. -/
def reqIsWrite (r : Request) : Bool := [3, 6, 7, 8].contains (reqCode r)

/-- A request that is sequenced (Table 2.11). -/
def reqSequenced (r : Request) : Bool := !(reqCode r == 1 || reqCode r == 4)

/-! ## The two units (R49, R50, R298, R306) -/

/-- STATE of this unit (Table 13.3). -/
def pairState (s : State) : Nat := natO s Obj.pair.state

/-- This unit is a standby, or has not yet a role. -/
def isStandby (s : State) : Bool := s.rst.pairEnable && !isActive s

/-- The pair link that carries control messages: BL0, else BL1. (DEDUCED, log entry 62.) -/
def pairLink (s : State) : Option Nat := if linkActive s 0 then some 0 else if linkActive s 1 then some 1 else none

/-- A journal-and-control message to the partner. -/
def sendPair (s : State) (kind : Nat) (bytes : List Byte) : State :=
  match pairLink s with
  | none => s
  | some l => sendBraid s l 1 kind bytes

/-- The standby holds each journal entry: it is in step or resynchronising (R50). -/
def confirms (s : State) : Bool := s.rst.pairEnable && (pairState s == 2 || pairState s == 3)

/-! ## The journal (R50) -/

/-- The bytes of an entry as it lies in backup SRAM, little-endian (R8, Table 2.16). -/
def journalBytes (kind state session sequence frame : Nat) (payload : List Byte) : List Byte :=
  let pad := (8 - payload.length % 8) % 8
  let head := natLE (24 + payload.length + pad) 2 ++ natLE kind 1 ++ natLE state 1 ++ natLE session 2 ++ natLE 0 2 ++ natLE sequence 4
    ++ natLE frame 6 ++ natLE 0 2
  let body := payload ++ List.replicate pad 0
  head ++ natLE (crc32 (head ++ natLE 0 4 ++ body)) 4 ++ body

/-- LENGTH of an entry: 24 bytes and the padded payload (Table 2.16). -/
def entryLength (r : Request) : Nat := 24 + ((reqPayload r).length + 7) / 8 * 8

def JEntry.bytes (e : JEntry) : List Byte := journalBytes e.kind e.state e.session e.sequence e.frame (reqPayload e.request)

/-- The entry of a request fits in the 64 KiB ring. -/
def journalFits (s : State) (r : Request) : Bool := decide (journalUsed s + entryLength r ≤ 65536)

/-- Write an entry; HIGH_WATER is the largest USED since reset. The partner holds the same entry as long as it confirms. -/
def journalAdd (s : State) (sess seq frame : Nat) (r : Request) : State :=
  let s := { s with ctl := { s.ctl with
    journal := s.ctl.journal ++ [⟨reqCode r, 0, sess, seq, frame, r, entryLength r, false, isActive s && confirms s⟩] } }
  setO s Obj.jrn.highWater (max (natO s Obj.jrn.highWater) (journalUsed s) : Nat)

/-- The effect of entries has been applied here: they retire, but one the partner has yet to write and apply is kept as
applied at this unit (STATE 1) (R50). -/
def retireIf (s : State) (p : JEntry → Bool) : State :=
  { s with ctl := { s.ctl with journal := s.ctl.journal.filterMap (fun e =>
      if !p e then some e else if e.waits then some { e with state := 1 } else none) } }

def retireEntry (s : State) (sess seq : Nat) : State := retireIf s (fun e => e.session == sess && e.sequence == seq)

/-- The partner has written entries, or no longer counts: those applied at this unit retire. -/
def settleEntries (s : State) (p : JEntry → Bool) : State :=
  { s with ctl := { s.ctl with journal := s.ctl.journal.filterMap (fun e =>
      if !p e then some e else if e.state = 1 then none else some { e with waits := false }) } }

/-- The journaled form of a decision: Table 2.16 with a KIND from 80h on. (DESIGN CHOICE, log entry 63.) -/
def decisionBytes : Decision → List Byte
  | .electing => journalBytes 0x80 0 0 0 0 []
  | .ownerLost => journalBytes 0x81 0 0 0 0 []
  | .elected none => journalBytes 0x82 0 0 0 0 []
  | .elected (some (n, prio, pre)) => journalBytes 0x82 0 n 0 0 (natBE prio 1 ++ natBE (if pre then 1 else 0) 1)
  | .groupReady n q f => journalBytes 0x83 0 n q f []
  | .groupMoved n q f => journalBytes 0x84 0 n q f []
  | .groupRejected n q => journalBytes 0x85 0 n q 0 []
  | .fedPhase own phase tag f v =>
    journalBytes 0x86 0 0 0 f (natBE (if own then 1 else 0) 1 ++ natBE phase 1 ++ [0x00, 0x00] ++ natBE tag 4 ++ natBE v 8)
  | .refStep e f step jump ahead re =>
    journalBytes 0x87 0 0 0 f (natBE e 1 ++ natBE jump 1 ++ natBE (if re then 1 else 0) 1 ++ natBE ahead 6 ++ natBE (wrapTo 64 step) 8)
  | .rebase f shift => journalBytes 0x88 0 0 0 f (natBE (wrapTo 64 shift) 8)
  | .fedVerdict m l p => journalBytes 0x89 0 0 0 0 (natBE m 1 ++ natBE l 1 ++ natBE p 1)

/-- The active unit journals a decision for its standby (R49, R306). -/
def journalDecision (s : State) (d : Decision) : State :=
  if isActive s && confirms s then sendPair s 0x13 (decisionBytes d ++ natBE 0 8) else s

/-- A JOURNAL message: an entry with its result-store update (Table 13.10). (DESIGN CHOICE, log entry 63.) -/
def sendJournal (s : State) (n q frame : Nat) (r : Request) (x : Result) : State :=
  sendPair s 0x13 ((⟨reqCode r, 0, n, q, frame, r, entryLength r, false, false⟩ : JEntry).bytes
    ++ natBE (if x.ack then 0 else x.code) 2 ++ natBE x.info 6)

end Sys2Proof.Machine
end

