-- ==== Sys2Proof/Machine/Timing.lean ====
section
/-! DEFINITION. PTP instances and the media timeline (R261 to R272), reference entries, selection, holdover and phase steps
(R274 to R290). Times of PTP are in 2^-16 ns; phases and steps of the grid in thirds of a nanosecond. -/

namespace Sys2Proof.Machine

/-! ## Units -/

/-- One frame, 500,000 / 3 ns, and one sample of the engine rate, in thirds of a nanosecond. -/
def frame3 : Int := 500000
def sample3 (s : State) : Int := if s.rst.rate = 0 then 62500 else 31250

/-- Round v / d to the nearest integer, a half up. -/
def roundDiv (v d : Int) : Int := (2 * v + d).fdiv (2 * d)

/-- Phase period P of an entry in thirds of a nanosecond; none where it is absolute or there is none (Table 12.1). -/
def period3 (s : State) (e : Nat) : Option Int :=
  let fmt := natO s (Obj.ref.format e)
  match e with
  | 2 => some ((([240, 1001, 200, 120, 1001, 100].getD fmt 240 : Nat) : Int) * frame3)
  | 3 => some (if fmt = 0 then 62500 else sample3 s)
  | 4 => some (if fmt = 0 then 62500 else sample3 s)
  | 5 => some (if fmt = 0 then 62500 else sample3 s)
  | 6 => some frame3
  | _ => none

/-- Reduce into (−P/2, P/2]. -/
def reduceStep (p x : Int) : Int := let r := x % p; if p < 2 * r then r - p else r

/-! ## Entries -/

def entryOf (s : State) (e : Nat) : RefEntry := s.sel.entries.getD e RefEntry.idle

def setEntry (s : State) (e : Nat) (v : RefEntry) : State := { s with sel := { s.sel with entries := s.sel.entries.set e v } }

def ptpOf (s : State) (i : Nat) : PtpInst := s.time.inst.getD i PtpInst.idle

def setPtp (s : State) (i : Nat) (v : PtpInst) : State := { s with time := { s.time with inst := s.time.inst.set i v } }

/-- Entry in use; none in holdover. -/
def selectedEntry (s : State) : Option Nat :=
  let e := natO s Obj.sel.selected
  if e < 8 then some e else none

/-- The step s of an entry as last measured, PHASE_TRIM included (R282). -/
def entryStep3 (s : State) (e : Nat) : Int :=
  if e = 7 then 0
  else
    let x := 3 * ((entryOf s e).raw + getO s (Obj.ref.phaseTrim e))
    match period3 s e with
    | some p => reduceStep p x
    | none => x

/-- Instance i is locked, or waits in STEP_PENDING after being locked (R275). -/
def ptpPresent (s : State) (i : Nat) : Bool :=
  natO s (Obj.ptp.state i) == 3
    || (natO s (Obj.ptp.state i) == 4 && ((ptpOf s i).pending.map (·.2)).getD 0 == 3)

/-- The receive FC of a link is present. -/
def fcPresent (s : State) (l : Nat) : Bool := getO s (Obj.lane.locked (laneNo l 9)) == 1

/-- What an entry needs beside its edges to be present (R274, R275). -/
def sourcePresent (s : State) (e : Nat) : Bool :=
  match e with
  | 0 => ptpPresent s 0
  | 1 => ptpPresent s 1
  | 6 => (linkActive s 4 || fcPresent s 5) && getO s Obj.fed.enable == 1 && getO s Obj.fed.leader != getO s Obj.fed.memberId
  | _ => true

/-- GM_CLASS within CLASS_LIMIT, for entries 0 and 1 (R276). -/
def classOk (s : State) (e : Nat) : Bool := !decide (e < 2) || decide (getO s (Obj.ptp.gmClass e) ≤ getO s (Obj.ref.classLimit e))

/-- All conditions of R276 hold. -/
def conditionsHold (s : State) (e : Nat) : Bool :=
  getO s (Obj.ref.priority e) != 0 && (entryOf s e).present && sourcePresent s e && (entryOf s e).limitsOk && classOk s e

/-- An entry loses qualification, with event 32 or 33 when it had it; every count starts again (R276, R277). -/
def loseQualified (s : State) (e ev : Nat) : State :=
  let r := entryOf s e
  let s := setEntry s e { r with qualified := false, selectable := false, requal := r.requal || r.qualified, since := s.rst.upFrames }
  if r.qualified then bumpO (raise s ev e) (Obj.ref.disqualifications e) else s

/-- An entry stops being present (R275, R276). -/
def refAbsent (s : State) (e : Nat) : State :=
  let s := if e = 7 then setO s Obj.sel.base 0 else s
  loseQualified (setEntry s e { entryOf s e with present := false }) e 32

/-- A condition other than presence failed (R276). -/
def refFails (s : State) (e : Nat) : State := loseQualified s e 33

/-- Look again at an entry whose surroundings changed. -/
def recheckEntry (s : State) (e : Nat) : State :=
  let r := entryOf s e
  if r.present && !sourcePresent s e then refAbsent s e
  else if !classOk s e then refFails s e
  else s

/-- PRIORITY is written: an entry not used is not qualified (R276, R279). -/
def applyPriority (s : State) (e : Nat) (v : Int) : State :=
  let s := setO s (Obj.ref.priority e) v
  let r := entryOf s e
  if v = 0 then setEntry s e { r with qualified := false, selectable := false, requal := r.requal || r.qualified, since := s.rst.upFrames }
  else setEntry s e { r with since := if r.qualified then r.since else s.rst.upFrames }

/-- STATE of an entry (Table 12.5). -/
def refState (s : State) (e : Nat) : Nat :=
  let r := entryOf s e
  if getO s (Obj.ref.priority e) = 0 then 0
  else if !r.present || !sourcePresent s e then 1
  else if selectedEntry s = some e then 5
  else if r.selectable then 4
  else if r.qualified then 3
  else if conditionsHold s e then 2
  else 6

/-- WAIT_LEFT in ms: what is left of QUAL_TIME and of a WTR that follows (R276, R277). (DEDUCED, log entry 37.) -/
def waitLeft (s : State) (e : Nat) : Nat :=
  let r := entryOf s e
  let gone := s.rst.upFrames - r.since
  let wtr := natO s (Obj.ref.wtr e) * 6000
  match refState s e with
  | 2 => (natO s (Obj.ref.qualTime e) * 6 + (if r.requal then wtr else 0) - gone) / 6
  | 3 => (wtr - gone) / 6
  | _ => 0

/-- AGREES: bit x when the entry agrees with entry x, both present (R279). -/
def agreesWith (s : State) (e x : Nat) : Bool :=
  e != x && decide ((getO s (Obj.ref.offsetPpb e) - getO s (Obj.ref.offsetPpb x)).natAbs ≤ natO s (Obj.ref.softLimit e))

def agreesBits (s : State) (e : Nat) : Nat :=
  (List.range 8).foldl
    (fun a x => if (entryOf s e).present && (entryOf s x).present && agreesWith s e x then a + 2 ^ x else a) 0

/-! ## The media timeline (R268, R269) -/

/-- A glide is added to what is left of one (R284). -/
def addGlide (s : State) (rem3 : Int) : State :=
  let s := { s with sel := { s.sel with glide6 := s.sel.glide6 + 2 * rem3 } }
  setO s Obj.pll.glideLeft (roundDiv s.sel.glide6 6)

/-- A slew of ns nanoseconds is added to SLEW_REMAINING (R268). -/
def addSlew (s : State) (ns : Int) : State :=
  let s := { s with sel := { s.sel with slew6 := s.sel.slew6 + 6 * ns } }
  setO s Obj.tb.slewRemaining (roundDiv s.sel.slew6 6)

/-- A grandmaster step of D ns on the selected instance, in frame f (R268). -/
def timelineStep (s : State) (f : Nat) (d : Int) : State :=
  let lim := natO s Obj.tb.slewLimit
  if d.natAbs ≤ lim then addSlew s d
  else
    let off := getO s Obj.clk.epochOffset + d
    let s := bumpO (raiseAt (setMany s [(Obj.clk.epochOffset, off), (Obj.clk.epoch, 2)]) f 44 noDetail) Obj.tb.heldSteps
    if off.natAbs ≤ lim ∧ getO s Obj.tb.tsShift = 0 then
      addSlew (setMany s [(Obj.clk.epochOffset, 0), (Obj.clk.epoch, 1)]) off
    else s

/-- A step this large is reframed (R283). -/
def isReframe (s : State) (e : Nat) (s3 : Int) : Bool :=
  let n := roundDiv s3 (sample3 s)
  n == -(frameSamples s : Int) || (decide (frame3 < s3.natAbs) && decide (2 ≤ e))

/-- A step that is no switch falls due: at B = A + 6, or A + 18 for a reframe, with others of the same B, or after the
pending one (R280, R282, R288). -/
def requestStep (s : State) (a : Nat) (s3 : Int) : State :=
  let re := isReframe s ((selectedEntry s).getD 8) s3
  let b := if re then a + 18 else a + 6
  let busy := match s.sel.steps with
    | some e => e.1 != b
    | none => match s.sel.pending with
      | some p => p.frame != b
      | none => false
  if s3 = 0 then s
  else if busy then { s with sel := { s.sel with later := s.sel.later + s3 } }
  else
    let old := (s.sel.steps.map (·.2.1)).getD 0
    { s with sel := { s.sel with steps := some (b, old + s3, re) } }

/-- A step measured by this unit is requested by the active unit alone, which journals what becomes of it (R290). -/
def activeStep (s : State) (a : Nat) (s3 : Int) : State :=
  if isStandby s then s
  else
    let t := requestStep s a s3
    match t.sel.steps with
    | some (b, x, re) => if t.sel.steps = s.sel.steps then t else journalDecision t (.refStep 8 b x 0 0 re)
    | none => t

/-- MEDIA_OFFSET changes at frame f: the grid's target moves by the difference (R282). -/
def applyMediaOffset (s : State) (f : Nat) (v : Int) : State :=
  let d := v - getO s Obj.clk.mediaOffset
  let s := setO s Obj.clk.mediaOffset v
  match selectedEntry s with
  | some e => if e < 2 then requestStep s f (3 * d) else s
  | none => s

/-- PHASE_TRIM changes at frame f (R282). -/
def applyPhaseTrim (s : State) (f e : Nat) (v : Int) : State :=
  let before := entryStep3 s e
  let s := setO s (Obj.ref.phaseTrim e) v
  let d := entryStep3 s e - before
  let d := match period3 s e with
    | some p => reduceStep p d
    | none => d
  if selectedEntry s = some e then requestStep s f d else s

/-- TS_SHIFT of a re-base made now (R269). -/
def rebaseShift (s : State) : Int := roundDiv (3 * getO s Obj.clk.epochOffset) (sample3 s)

/-- The active unit of a pair computes the TS_SHIFT of a re-base that is to apply at frame f, and journals it (R269).
(DEDUCED, log entry 115.) -/
def decideRebase (s : State) (f : Nat) : State :=
  if isActive s && confirms s then
    { journalDecision s (.rebase f (rebaseShift s)) with time := { s.time with rebase := some (f, rebaseShift s) } }
  else s

/-- A re-base at frame f (R269). -/
def applyRebase (s : State) (f : Nat) : State :=
  let off := getO s Obj.clk.epochOffset
  let shift := match s.time.rebase with
    | some (g, x) => if g = f then x else rebaseShift s
    | none => rebaseShift s
  let left3 := 3 * off - shift * sample3 s
  let off' := roundDiv (shift * sample3 s) 3
  let s := setMany s [(Obj.tb.tsShift, shift), (Obj.clk.epochOffset, off'), (Obj.clk.epoch, if shift = 0 then 1 else 2)]
  let s := bumpSdp { s with conf := { s.conf with muteFrame := some f }, time := { s.time with rebase := none } }
  activeStep s f (-left3)

/-! ## PTP instances -/

/-- Microseconds and nanoseconds in 2^-16 ns. -/
def nsUnit : Int := 65536

/-- The time counter of an instance wraps after 2^48 seconds (R262). -/
def counterSize : Int := 281474976710656 * 1000000000 * 4294967296

/-- The time counter of an instance in 2^-16 ns. -/
def ptpTime (s : State) (i : Nat) : Int := (ptpOf s i).counter.fdiv 65536

/-- ASYM_DEGRADE is cleared (R271). -/
def clearDegrade (s : State) : State := setO s Obj.tb.asymDegrade 0

/-- An instance loses lock (R265). -/
def loseLock (s : State) (i : Nat) : State :=
  if !ptpPresent s i then s
  else
    let v := ptpOf s i
    let s := setPtp s i { v with
      inside := 0, outside := 0, outliers := [], pending := none
      lostSelected := selectedEntry s == some i }
    let s := bumpO (setO s (Obj.ptp.state i) 5) (Obj.ptp.lockLosses i)
    refAbsent (raiseLasting s (42 + i) i) i

/-- An instance becomes locked (R265, R271). -/
def gainLock (s : State) (i : Nat) : State :=
  let v := ptpOf s i
  let s := clearCondition (setO s (Obj.ptp.state i) 3) (42 + i)
  if v.lostSelected then clearDegrade (setPtp s i { v with lostSelected := false }) else s

/-- The counter of an instance steps by its D, and what it was before goes on (R267, R268). -/
def stepInstance (s : State) (i : Nat) : State :=
  let v := ptpOf s i
  match v.pending with
  | none => s
  | some (d, was) =>
    let s := setPtp s i { v with
      counter := (v.counter + d * 65536) % counterSize, predict := 0, pending := none, used := none
      inside := if was = 3 then v.inside else 0 }
    setO s (Obj.ptp.state i) was

/-- A grandmaster step: both counters that found one step, and the timeline follows the selected instance (R267, R268). -/
def grandmasterStep (s : State) (i : Nat) : State :=
  let d := (ptpOf s i).pending
  let s := stepInstance s i
  match d with
  | some (d, was) =>
    if selectedEntry s = some i ∧ was = 3 then timelineStep s s.frame (roundDiv d nsUnit) else s
  | none => s

/-- The other instance is not locked, follows another grandmaster, or found an agreeing step (R267). -/
def isGrandmasterStep (s : State) (i : Nat) : Bool :=
  let o := 1 - i
  let other := (ptpOf s o).pending.map (·.1)
  let mine := (((ptpOf s i).pending).map (·.1)).getD 0
  !ptpPresent s o || getO s (Obj.ptp.gmIdentity o) != getO s (Obj.ptp.gmIdentity i)
    || match other with
      | some d => decide ((mine - d).natAbs ≤ natO s Obj.tb.asymLimit * 65536)
      | none => false

/-- A step found is classified as a grandmaster step as soon as it is one; else it waits (R267). -/
def classifyStep (s : State) (i : Nat) : State :=
  if !isGrandmasterStep s i then s
  else
    let both := (ptpOf s (1 - i)).pending.isSome && ptpPresent s (1 - i)
      && getO s (Obj.ptp.gmIdentity 0) == getO s (Obj.ptp.gmIdentity 1)
    let s := grandmasterStep s i
    if both then grandmasterStep s (1 - i) else s

/-- The lowest qualified entry from 2 to 7 (R271). -/
def thirdReference (s : State) : Option Nat := [2, 3, 4, 5, 6, 7].find? (fun e => (entryOf s e).qualified)

/-- The verdict on a shift (R270, R271); shift and phase movements in 2^-16 ns. -/
def judgeShift (s : State) (shift movedA movedB : Int) : State :=
  let ns := roundDiv shift nsUnit
  let s := raise (setO s Obj.tb.asymShift ns) 45 noDetail
  let s := { s with time := { s.time with window := [] } }
  let moved (m : Int) : Bool := decide (shift.natAbs < 2 * m.natAbs)
  if (thirdReference s).isSome ∧ moved movedA ≠ moved movedB then
    let i := if moved movedA then 0 else 1
    refFails (setO s Obj.tb.asymVerdict ((i : Nat) + 1)) i
  else setO (setO s Obj.tb.asymVerdict 3) Obj.tb.asymDegrade (min (getO s Obj.tb.asymDegrade + ((shift.natAbs / 131072 : Nat) : Int)) 4294967295)

/-- TIME_ERROR: |mean| + 3 × deviation of the last offsets + ASYM_DEGRADE + |SLEW_REMAINING| (R272). -/
def timeError (s : State) : Nat :=
  match selectedEntry s with
  | some i =>
    if 2 ≤ i then 4294967295
    else
      let xs := (ptpOf s i).offsets
      let n : Int := max 1 xs.length
      let sum := xs.foldl (· + ·) 0
      let sq := xs.foldl (fun a x => a + x * x) 0
      let var := (n * sq - sum * sum).toNat
      let root := searchMax (fun x => decide (x * x ≤ 9 * var)) 128 0
      min ((roundDiv ((sum.natAbs + root : Nat) : Int) (n * nsUnit)).toNat + natO s Obj.tb.asymDegrade
        + (getO s Obj.tb.slewRemaining).natAbs) 4294967295
  | none => 4294967295

/-- The master's time and the counter's between two Syncs used one after the other; 1 to 1 where there are none (R264). -/
def rateRatio (used now : Option (Int × Int)) : Int × Int :=
  match used, now with
  | some (a, b), some (c, d) => if a < c ∧ b < d then (c - a, d - b) else (1, 1)
  | _, _ => (1, 1)

/-- RATE_PPB of an ADDEND, nominally 2^33 (R262). -/
def addendPpb (a : Int) : Int := roundDiv ((a - 8589934592) * 1000000000) 8589934592

/-- Consecutive Syncs with an offset within LOCK_WINDOW, this one included (R265). -/
def insideWindow (s : State) (i : Nat) (offset : Int) : Nat :=
  if offset.natAbs ≤ natO s (Obj.ptp.lockWindow i) * 65536 then (ptpOf s i).inside + 1 else 0

/-- The servo takes a Sync that is no outlier, and tunes ADDEND within ±500 ppm (R262, R265). -/
def useSync (s : State) (i : Nat) (offset : Int) : State :=
  let v := ptpOf s i
  let addend := sat (8589934592 - 4294967) (8589934592 + 4294967) (Config.servoAddend offset v.addend)
  let inside := insideWindow s i offset
  let outside := if inside = 0 then v.outside + 1 else 0
  let s := setPtp s i { v with
    addend := addend, predict := Config.servoPredict offset addend, outliers := [], inside := min inside 16
    outside := min outside 8, used := v.syncT, ratio := rateRatio v.used v.syncT
    offsets := (offset :: v.offsets).take 16 }
  let s := bumpO (setO s (Obj.ptp.ratePpb i) (addendPpb addend)) (Obj.ptp.syncs i)
  let st := natO s (Obj.ptp.state i)
  if 16 ≤ inside ∧ st ≠ 3 then gainLock s i
  else if 8 ≤ outside ∧ st = 3 then loseLock s i
  else if st = 1 then setO s (Obj.ptp.state i) 2
  else s

/-- Three values lie within 1 µs of each other. -/
def agreeing (xs : List Int) : Bool := xs.all (fun a => xs.all (fun b => decide ((a - b).natAbs ≤ 65536000)))

/-- A Sync with its times t1 (corrected) and t2 at a port (R263, R265, R266). -/
def processSync (s : State) (i port : Nat) (t1 t2 : Int) : State :=
  let v := { ptpOf s i with syncT := some (t1, t2), port := port, waitSync := none }
  let s := setPtp s i v
  let offset := t2 - t1 - getO s (Obj.ptp.meanPathDelay i) - getO s (Obj.cal.asymmetry (portNo i port))
  let s := setO s (Obj.ptp.offset i) offset
  if natO s (Obj.ptp.state i) = 4 then s
  else if 655360000 < (offset - v.predict).natAbs then
    let v := { v with inside := min (insideWindow s i offset) 15 }
    let outs := offset :: v.outliers
    if outs.length = 3 then
      if agreeing outs then
        let d := -roundDiv (outs.foldl (· + ·) 0) 3
        let s := setPtp s i { v with outliers := [], pending := some (d, natO s (Obj.ptp.state i)) }
        let s := setMany (bumpO s (Obj.ptp.steps i)) [(Obj.ptp.lastStep i, roundDiv d nsUnit), (Obj.ptp.state i, 4)]
        classifyStep s i
      else setPtp s i { v with outliers := outs.take 2 }
    else setPtp s i { v with outliers := outs }
  else useSync s i offset

/-- A message of the instance's domain from its master is heard: the instance runs and listens. -/
def hears (s : State) (i : Nat) (m : PtpMsg) : Bool :=
  natO s (Obj.ptp.state i) != 0 && m.domain == natO s (Obj.ptp.domain i) && (ptpOf s i).master == some m.sourcePort

/-- Ingress stamp referred to the ball (R263). -/
def ballIngress (s : State) (i port : Nat) (t : Int) : Int := t - getO s (Obj.cal.ingressLatency (portNo i port))

def execSync (inst port : Fin 2) (m : PtpMsg) (s : State) : Ans :=
  if !hears s inst m || m.interval < -7 || 1 < m.interval then .next s
  else if m.twoStep then done (setPtp s inst { ptpOf s inst with waitSync := some (m, port.val) })
  else done (processSync s inst port (m.origin + m.correction) (ballIngress s inst port m.ingress))

def execFollowUp (inst : Fin 2) (m : PtpMsg) (s : State) : Ans :=
  match (ptpOf s inst).waitSync with
  | some (w, port) =>
    if hears s inst m ∧ w.sourcePort = m.sourcePort ∧ w.seqId = m.seqId then
      done (processSync s inst port (m.origin + m.correction + w.correction) (ballIngress s inst port w.ingress))
    else .next s
  | none => .next s

/-- What the default best-master algorithm compares, in its order, lower being better (R261, IEEE 1588): the grandmaster's data set,
then the steps removed and the sender. -/
def masterRank (m : PtpMsg) : List Nat :=
  [m.priority1, m.gmClass, m.accuracy, m.variance, m.priority2, m.gmIdentity, m.steps, m.sourcePort]

def lexLess : List Nat → List Nat → Bool
  | a :: as, b :: bs => decide (a < b) || (a == b && lexLess as bs)
  | _, _ => false

/-- The Announce with the best data set. -/
def bestMaster : List PtpMsg → Option PtpMsg
  | [] => none
  | m :: r =>
    match bestMaster r with
    | some b => if lexLess (masterRank b) (masterRank m) then some b else some m
    | none => some m

/-- Frames of an announce interval. -/
def announceFrames (m : PtpMsg) : Nat := 750 * 2 ^ (m.interval + 3).toNat

/-- A master is qualified when two of its Announces came within four of its intervals, and heard until three have passed without one
(R261, IEEE 1588). (PRESUMED, log entry 134.) -/
def Master.qualified (v : Master) : Bool := v.before.any (fun b => decide (v.heard ≤ b + 4 * announceFrames v.msg))
def Master.alive (now : Nat) (v : Master) : Bool := decide (now < v.heard + 3 * announceFrames v.msg)

/-- The masters of an instance once one of their Announces has come. -/
def hearMaster (now : Nat) (l : List Master) (m : PtpMsg) : List Master :=
  let old := (l.find? (fun x => x.msg.sourcePort == m.sourcePort)).map (·.heard)
  l.filter (fun x => x.msg.sourcePort != m.sourcePort && x.alive now) ++ [⟨m, now, old⟩]

/-- The grandmaster of an instance is m: GM_CHANGE, and the SDP of streams locked to it (R251, R265). -/
def followMaster (s : State) (i : Nat) (m : PtpMsg) : State :=
  let changed := natO s (Obj.ptp.gmIdentity i) != m.gmIdentity
  let s := setPtp s i { ptpOf s i with master := some m.sourcePort }
  let s := setMany s [(Obj.ptp.gmIdentity i, m.gmIdentity), (Obj.ptp.gmClass i, m.gmClass)]
  let s := if changed then raise s 46 i else s
  let s := if changed ∧ selectedEntry s = some i then bumpSdp s else s
  recheckEntry s i

/-- An instance follows the best of its qualified masters. -/
def followBest (s : State) (i : Nat) : State :=
  match bestMaster (((ptpOf s i).masters.filter Master.qualified).map (·.msg)) with
  | some b => followMaster s i b
  | none => s

def execAnnounce (inst : Fin 2) (m : PtpMsg) (s : State) : Ans :=
  if natO s (Obj.ptp.state inst) = 0 ∨ m.domain ≠ natO s (Obj.ptp.domain inst) ∨ m.interval < -3 ∨ 4 < m.interval then .next s
  else
    let v := ptpOf s inst
    done (followBest (setPtp s inst { v with masters := hearMaster s.rst.upFrames v.masters m }) inst)

/-- An external port of a peer-to-peer transparent clock sends its own Pdelay_Req (R264). -/
def portDelayReq (s : State) (path ext : Nat) (egress : Int) : State :=
  let n := portNo path ext
  let v := pathOf s path
  if natO s (Obj.ifc.tcMode (ifcElem s path)) ≠ 2 ∨ !pathRuns s path ∨ !portUp s n then s
  else
    let s := setPath s path { v with
      reqOut := v.reqOut.set ext (some (egress + getO s (Obj.cal.egressLatency n))), respWait := v.respWait.set ext none }
    emit s (.eth n "pdelay req" [getO s (Obj.ptp.domain path), getO s (Obj.ifc.dscpPtp (11 + path))] [])

/-- Delay_Req in end-to-end mode, Pdelay_Req in peer-to-peer mode (R261); sender 0 or 1 is an external port of the path's switch, which
sends its own (R264). -/
def execDelayReqSend (inst : Fin 2) (egress : ReqEgress) (s : State) : Ans :=
  let i := inst.val
  let v := ptpOf s i
  let p2p := getO s (Obj.ptp.delayMechanism i) == 1
  if egress.sender.val < 2 then done (portDelayReq s i egress.sender egress.stamp)
  else if natO s (Obj.ptp.state i) = 0 ∨ (!p2p ∧ v.master.isNone) ∨ !pathRuns s i then .next s
  else
    let s := setPtp s i { v with reqOut := some (egress.stamp + getO s (Obj.cal.egressLatency (portNo i v.port))), respWait := none }
    done (sendPath s i (if p2p then "pdelay req" else "delay req")
      [getO s (Obj.ptp.domain i), getO s (Obj.ifc.dscpPtp (11 + i))] [])

/-- The link delay of a peer-delay exchange, once it is complete: the request left at t1, the response came at t4; a responder of two
steps gives its own times in the response and in the Pdelay_Resp_Follow_Up (R263, IEEE 1588). -/
def peerDelayOf (t1 t4 : Int) (resp : PtpMsg) (follow : Option PtpMsg) : Int :=
  match follow with
  | none => (t4 - t1 - resp.correction).fdiv 2
  | some m => (t4 - t1 - (m.origin - resp.origin) - resp.correction - m.correction).fdiv 2

/-- A peer-delay response or its follow-up meets a request that left at t1: a delay measured, a response that waits, or neither. -/
def meetPeer (t1 : Int) (wait : Option PtpMsg) (t4 : PtpMsg → Int) (m : PtpMsg) : Option (Int ⊕ PtpMsg) :=
  if m.msgType = 3 then (if m.twoStep then some (.inr m) else some (.inl (peerDelayOf t1 (t4 m) m none)))
  else if m.msgType = 10 then
    match wait with
    | some w => if w.sourcePort = m.sourcePort ∧ w.seqId = m.seqId then some (.inl (peerDelayOf t1 (t4 w) w (some m))) else none
    | none => none
  else none

/-- A response to the instance's own request: Delay_Resp, or in peer-to-peer mode Pdelay_Resp and what follows it (R263). -/
def execDelayResp (inst : Fin 2) (m : PtpMsg) (s : State) : Ans :=
  let i := inst.val
  let v := ptpOf s i
  let p2p := getO s (Obj.ptp.delayMechanism i) == 1
  match v.reqOut with
  | none => .next s
  | some t3 =>
    if natO s (Obj.ptp.state i) = 0 ∨ m.domain ≠ natO s (Obj.ptp.domain i) then .next s
    else if p2p then
      match meetPeer t3 v.respWait (fun r => ballIngress s i v.port r.ingress) m with
      | some (.inl d) => done (setO (setPtp s i { v with reqOut := none, respWait := none }) (Obj.ptp.meanPathDelay i) d)
      | some (.inr r) => done (setPtp s i { v with respWait := some r })
      | none => .next s
    else if m.msgType = 9 ∧ v.master = some m.sourcePort then
      match v.syncT with
      | some (t1, t2) =>
        let d := ((t2 - t1) + (m.origin - m.correction - t3)).fdiv 2
        done (setO (setPtp s i { v with reqOut := none }) (Obj.ptp.meanPathDelay i) d)
      | none => .next s
    else .next s

/-- A peer-delay message at an external port of a switch in peer-to-peer mode: a request is answered, what answers the port's own
measures the link (R264). `egress` is the egress stamp of the answer. -/
def execPdelayMessage (path : Fin 2) (port : Fin 3) (m : PtpMsg) (egress : Int) (s : State) : Ans :=
  let p := path.val
  if 2 ≤ port.val ∨ natO s (Obj.ifc.tcMode (ifcElem s p)) ≠ 2 ∨ !pathRuns s p then .next s
  else
    let n := portNo p port
    let v := pathOf s p
    if m.msgType = 2 then
      let turn := (egress + getO s (Obj.cal.egressLatency n)) - ballIngress s p port m.ingress
      done (emit s (.eth n "pdelay resp" [m.domain, m.sourcePort, m.seqId, turn + m.correction] []))
    else
      match v.reqOut.getD port none with
      | none => .next s
      | some t1 =>
        match meetPeer t1 (v.respWait.getD port none) (fun r => ballIngress s p port r.ingress) m with
        | some (.inl d) =>
          let s := setPath s p { v with reqOut := v.reqOut.set port none, respWait := v.respWait.set port none }
          done (setO s (Obj.cal.peerDelay n) d)
        | some (.inr r) => done (setPath s p { v with respWait := v.respWait.set port (some r) })
        | none => .next s

/-- The announce receipt times out: lock is lost, the silent master is forgotten, and the instance follows the best of the others or
listens again (R261, R265). -/
def execAnnounceTimeout (inst : Fin 2) (s : State) : Ans :=
  let i := inst.val
  let st := natO s (Obj.ptp.state i)
  let s := loseLock s i
  let v := ptpOf s i
  let s := setPtp s i { v with
    masters := v.masters.filter (fun x => v.master != some x.msg.sourcePort), master := none, waitSync := none }
  done (followBest (if st = 2 then setO s (Obj.ptp.state i) 1 else s) i)

def execSyncTimeout (inst : Fin 2) (s : State) : Ans := done (loseLock s inst)

/-- A step has waited 1 s: a grandmaster step, or a path shift of D (R267, R271). -/
def execStepPendingTimeout (inst : Fin 2) (movedA movedB : Int) (s : State) : Ans :=
  match (ptpOf s inst).pending with
  | none => .next s
  | some (d, _) =>
    if isGrandmasterStep s inst then done (classifyStep s inst)
    else done (judgeShift (stepInstance s inst) d movedA movedB)

/-- ENABLE of an instance is written, or Rising begins. -/
def applyPtpEnable (s : State) (i : Nat) (v : Int) : State :=
  let s := setO s (Obj.ptp.enable i) v
  if stageOf s < 2 then s
  else if v = 0 then
    let s := setO (setPtp s i { PtpInst.idle with counter := (ptpOf s i).counter, addend := (ptpOf s i).addend }) (Obj.ptp.state i) 0
    recheckEntry s i
  else if natO s (Obj.ptp.state i) = 0 then setO s (Obj.ptp.state i) 1
  else s

/-- The counters run on for one frame: every CLK_TIME cycle, 500 million a second, adds ADDEND; CLK_MEDIA runs MEDIA_PPB fast of it
(R262). (DEDUCED, log entry 36.) -/
def runCounters (s : State) : State :=
  let total := 500000000 * (1000000000 - getO s Obj.pll.mediaPpb) + s.time.cycleRest
  let n := total / 6000000000000
  { s with time := { s.time with
      inst := s.time.inst.map (fun v => { v with counter := (v.counter + n * v.addend) % counterSize })
      cycleRest := total % 6000000000000 } }

/-- The oldest value of the window that differs from the newest by more than the limit. -/
def oldestShift (limit : Nat) (now : Int) (w : List (Int × Int × Int)) : Option (Int × Int × Int) :=
  w.reverse.find? (fun e => decide (limit * 65536 < (now - e.1).natAbs))

/-- AB_DIFFERENCE is sampled at a frame tick, and a shift judged (R270, R271). -/
def asymCheck (s : State) : State :=
  if natO s (Obj.ptp.state 0) = 3 ∧ natO s (Obj.ptp.state 1) = 3 ∧ getO s (Obj.ptp.gmIdentity 0) = getO s (Obj.ptp.gmIdentity 1) then
    let a := ptpTime s 0
    let b := ptpTime s 1
    let grid : Int := (65536 * 1000000000 * (s.frame : Int)).fdiv 6000
    let third : Int := match thirdReference s with
      | some e => (entryStep3 s e * 65536).fdiv 3
      | none => 0
    let pa := grid - a - third
    let pb := grid - b - third
    let s := setO s Obj.tb.abDifference (roundDiv (a - b) nsUnit)
    match oldestShift (natO s Obj.tb.asymLimit) (a - b) s.time.window with
    | some (d, qa, qb) => judgeShift s (a - b - d) (pa - qa) (pb - qb)
    | none => { s with time := { s.time with window := ((a - b, pa, pb) :: s.time.window).take 60000 } }
  else { s with time := { s.time with window := [] } }

/-! ## The selector (R279 to R281) -/

/-- An entry that may be chosen. -/
def canSelect (s : State) (e : Nat) : Bool := (entryOf s e).selectable && getO s (Obj.ref.priority e) != 0

def rankOf (s : State) (e : Nat) : Nat := natO s (Obj.ref.priority e)

def entryNumbers : List Nat := [0, 1, 2, 3, 4, 5, 6, 7]

/-- Choosing within the best rank among the selectable entries (R279, 4). -/
def chooseEntry (s : State) : Option Nat :=
  let all := entryNumbers.filter (canSelect s)
  let best := all.foldl (fun r e => min r (rankOf s e)) 16
  let cands := all.filter (fun e => rankOf s e == best)
  let score (e : Nat) : Nat := all.countP (fun x => agreesWith s e x)
  let top := cands.foldl (fun m e => max m (score e)) 0
  cands.find? (fun e => score e == top)

/-- Some selectable entry ranks strictly better than e. -/
def outranked (s : State) (e : Nat) : Bool := entryNumbers.any (fun x => canSelect s x && decide (rankOf s x < rankOf s e))

/-- The decision taken in a frame: keep, go to an entry, or hold over (R279). `cur` is the entry in use or switched to. -/
inductive SwitchDecision where
  | keep
  | take (e : Nat)
  | hold
  deriving DecidableEq, Repr

def decision (s : State) (cur : Option Nat) : SwitchDecision :=
  let choice : SwitchDecision := match chooseEntry s with
    | some e => .take e
    | none => .hold
  match cur with
  | some e =>
    if canSelect s e then (if getO s Obj.sel.mode = 0 ∧ outranked s e then choice else .keep) else choice
  | none => match choice with
    | .hold => .keep
    | d => d

/-- The frame number the PTP time of instance i gives to the frame that begins x3 after the running one did (R22, R23). -/
def ptpFrame (s : State) (i : Nat) (x3 : Int) : Nat :=
  (roundDiv (roundDiv (ptpTime s i * 3) nsUnit + x3 - 3 * getO s Obj.clk.mediaOffset) frame3).toNat

/-- A switch is pending, as the active unit journals it (R290). -/
def putPending (s : State) (p : Pending) : State :=
  { journalDecision s (.refStep p.entry p.frame p.step3 p.jump p.ahead p.reframe) with sel := { s.sel with pending := some p } }

/-- A pending switch is given up. -/
def dropPending (s : State) : State :=
  { journalDecision s (.refStep 9 0 0 0 0 false) with sel := { s.sel with pending := none } }

/-- A switch to entry e is decided in frame a (R280, R287). The first takes the PTP epoch: FRAME_NO moves to the number PTP time
gives frame B, never backward (R23). (DEDUCED, log entry 40.) -/
def decideSwitch (s : State) (a e : Nat) : State :=
  let s3 := entryStep3 s e
  let first := decide (e < 2) && getO s Obj.clk.epoch == 0
  let re := first || isReframe s e s3
  let b := if re then a + 18 else a + 6
  let ahead := if first then ptpFrame s e (18 * frame3 + s3 % frame3) - b else 0
  putPending s ⟨e, b, s3, if first then 1 else 0, ahead, re⟩

/-- The mean of the qualified history, rounded. -/
def historyMean (s : State) : Int :=
  if s.sel.history.isEmpty then 0 else roundDiv (s.sel.history.foldl (· + ·) 0) s.sel.history.length

/-- Holdover begins (R281). -/
def enterHoldover (s : State) : State :=
  let ok := decide (10 ≤ s.sel.history.length)
  let ppb := if ok then historyMean s else 0
  let s := { s with sel := { s.sel with pending := none } }
  let t := setMany s [(Obj.sel.selected, 255), (Obj.sel.holdoverPpb, ppb), (Obj.pll.mediaPpb, sat (-100000) 100000 ppb)]
  let s := raise (noteGrandmaster s t) 38 noDetail
  if ok then s else raise s 39 noDetail

/-- The selector starts at Rising: every entry unqualified, holdover without history (R281). -/
def startSelector (s : State) : State :=
  let s := { s with sel := { Selector.reset with running := true, entries := s.sel.entries } }
  let s := [0, 1].foldl (fun s i => applyPtpEnable s i (getO s (Obj.ptp.enable i))) s
  enterHoldover s

/-- Pairs of selectable entries of equal rank that do not agree: event 36, once until they agree again (R279). -/
def reportDisagree (s : State) : State :=
  let sel := entryNumbers.filter (canSelect s)
  let bad := sel.flatMap fun x => (sel.filter (fun y => decide (x < y) && rankOf s x == rankOf s y
    && !(agreesWith s x y && agreesWith s y x))).map (fun y => (x, y))
  let new := bad.filter (fun p => !s.sel.disagree.contains p)
  let s := { s with sel := { s.sel with disagree := bad } }
  new.foldl (fun s p => raise s 36 p.1) s

/-- The selector's decision of the current frame, made by the active unit (R279, R280, R290). A jump to the leader's number is no
switch: it stands, and no other decision is made until it has applied (R288, R331). -/
def selectorDecide (s : State) : State :=
  let cur := match s.sel.pending with
    | some p => some p.entry
    | none => selectedEntry s
  if s.sel.pending.any (fun p => p.jump == 2) then s
  else match decision s cur with
  | .keep => s
  | .hold => enterHoldover (journalDecision s (.refStep 255 0 0 0 0 false))
  | .take e => if s.sel.pending.isSome ∧ selectedEntry s = some e then dropPending s else decideSwitch s s.frame e

/-- A decision of the active unit's selector reaches its standby (R290). -/
def takeRefStep (s : State) (entry frame : Nat) (step3 : Int) (jump ahead : Nat) (re : Bool) : State :=
  if entry < 8 then { s with sel := { s.sel with pending := some ⟨entry, frame, step3, jump, ahead, re⟩ } }
  else match entry with
  | 8 => { s with sel := { s.sel with steps := some (frame, step3, re), later := 0 } }
  | 9 => { s with sel := { s.sel with pending := none } }
  | _ => enterHoldover s

/-- What is left of glide and slew after one more frame: 50 ppm is 8 1/3 ns, 5 ppm is 5/6 ns (R268, R284). (DEDUCED, log entry 36.) -/
def toward0 (x step : Int) : Int := if step < x then x - step else if x < -step then x + step else 0

def glideTick (s : State) : State :=
  let s := { s with sel := { s.sel with glide6 := toward0 s.sel.glide6 50, slew6 := toward0 s.sel.slew6 5 } }
  setMany s [(Obj.pll.glideLeft, roundDiv s.sel.glide6 6), (Obj.tb.slewRemaining, roundDiv s.sel.slew6 6)]

/-- The clock's part of a frame tick; no new decision is made while the control complex is in reset or hands over
(R348, R399). -/
def timeTick (s : State) : State :=
  let s := glideTick (runCounters s)
  if !s.sel.running then s
  else
    let s := asymCheck s
    if isActive s ∧ !decidesNothing s then selectorDecide (reportDisagree s) else s

/-- STATE of the selector (Table 12.4). -/
def selectorState (s : State) : Nat :=
  if s.sel.pending.isSome then 3
  else if (selectedEntry s).isSome then 2
  else if 10 ≤ s.sel.history.length then 1 else 0

/-- PLL_STATE (Table 12.6). -/
def pllState (s : State) : Nat :=
  if !s.sel.running then 0
  else if s.sel.glide6 ≠ 0 ∨ s.sel.slew6 ≠ 0 then 3
  else if (selectedEntry s).isSome then 1 else 2

/-- PTP time at which the frame began, in ns; 0 in free epoch (Table 1.5): its place on the grid, less what the grid has yet to move
later by a step that waits or a glide, and with what is left of a slew (R22, R268, R282). (DEDUCED, log entry 36.) -/
def frameStart (s : State) : Int :=
  if getO s Obj.clk.epoch = 0 then 0
  else
    let trim : Int := match selectedEntry s with
      | some e => if e < 2 then getO s (Obj.ref.phaseTrim e) else 0
      | none => 0
    let waits3 := (s.sel.steps.map (·.2.1)).getD 0 + s.sel.later
    let at6 := frame3 * 2 * (s.frame : Int) + 6 * (getO s Obj.clk.mediaOffset + getO s Obj.clk.epochOffset + trim)
    roundDiv (at6 - 2 * waits3 - s.sel.glide6 + s.sel.slew6) 6

/-- A 1 s window of an entry ends (R275, R276, R278, R281). -/
def refWindow (s : State) (e : Nat) (offset : Int) (jitter : Nat) (phase : Int) : State :=
  if !s.sel.running then s
  else
    let r := entryOf s e
    let hard := natO s (Obj.ref.hardLimit e)
    let soft := natO s (Obj.ref.softLimit e)
    let ok := decide (offset.natAbs ≤ hard) && decide (jitter ≤ natO s (Obj.ref.jitterLimit e))
    let here := sourcePresent s e
    let s := setEntry s e { r with
      present := here, limitsOk := ok, raw := phase
      since := if !r.present ∨ (ok && !r.limitsOk) then s.rst.upFrames else r.since }
    let s := setMany s [(Obj.ref.offsetPpb e, offset), (Obj.ref.jitterNs e, jitter)]
    let s := setO s (Obj.ref.phaseNs e) (roundDiv (entryStep3 s e) 3)
    let s := if e = 7 then setO s Obj.sel.base 1 else s
    let s := if !here then (if r.present then refAbsent s e else s) else if !ok ∨ !classOk s e then refFails s e else s
    let r := entryOf s e
    let drift := decide (soft < offset.natAbs)
    let s := setEntry s e { r with driftWarned := drift && (r.driftWarned || r.selectable) }
    let s := if drift ∧ r.selectable ∧ !r.driftWarned then raise s 37 e else s
    if selectedEntry s = some e ∧ r.selectable then
      let (free, s) := if getO s Obj.sel.base = 1 then drawFree s else (0, s)
      let x : Int := if getO s Obj.sel.base = 1 then ((free % 100001 : Nat) : Int) - 50000 else getO s Obj.sel.xtalTrim - offset
      let s := { s with sel := { s.sel with history := (offset :: s.sel.history).take 60, xtal := (x :: s.sel.xtal).take 60 } }
      setMany s [(Obj.sel.history, s.sel.history.length), (Obj.pll.mediaPpb, sat (-100000) 100000 offset),
        (Obj.sel.xtalTrim, roundDiv (s.sel.xtal.foldl (· + ·) 0) (max 1 s.sel.xtal.length : Nat))]
    else s

def execRefWindow (entry : Fin 8) (offsetPpb : Int) (jitterNs : Nat) (phaseNs : Int) (s : State) : Ans :=
  done (refWindow s entry offsetPpb jitterNs phaseNs)

def execRefAbsent (entry : Fin 8) (s : State) : Ans := done (if (entryOf s entry).present then refAbsent s entry else s)

/-- The entry becomes selectable, with event 34 (R277). -/
def becomeSelectable (s : State) (e : Nat) : State :=
  raise (setEntry s e { entryOf s e with qualified := true, selectable := true, requal := false }) 34 e

def execRefQualTime (entry : Fin 8) (s : State) : Ans :=
  let e := entry.val
  let r := entryOf s e
  if r.qualified || !conditionsHold s e then .next s
  else if r.requal ∧ natO s (Obj.ref.wtr e) ≠ 0 then done (setEntry s e { r with qualified := true, since := s.rst.upFrames })
  else done (becomeSelectable s e)

def execRefWtrExpiry (entry : Fin 8) (s : State) : Ans :=
  let r := entryOf s entry
  done (if r.qualified && !r.selectable && conditionsHold s entry then becomeSelectable s entry else s)

/-! ## Phase steps (R282 to R288) -/

/-- A reframe at frame b: d = n reduced into [0, P), the rest glides (R283, R287). -/
def applyReframe (s : State) (f : Nat) (p3 s3 : Int) : State :=
  let one := sample3 s
  let n := roundDiv s3 one
  let d := (n % max 1 (p3 / one)).toNat
  let s := addGlide s (s3 - n * one)
  let s := { s with conf := { s.conf with reframe := some (f, d) } }
  bumpO (setMany (raiseAt s f 41 noDetail) [(Obj.pll.lastAction, 3), (Obj.pll.lastN, d)]) Obj.pll.reframes

/-- A splice of n samples at frame f, the remainder glides (R283, R285). -/
def applySplice (s : State) (f : Nat) (s3 : Int) : State :=
  let n := roundDiv s3 (sample3 s)
  let s := addGlide (raiseAt s f 40 noDetail) (s3 - n * sample3 s)
  let s := setMany s [(Obj.pll.lastAction, 2), (Obj.pll.lastN, n)]
  if n = 0 then s else bumpO { s with conf := { s.conf with splice := some (f, n) } } Obj.pll.splices

/-- A step of s3 measured against entry e (8 for none) is handled at frame f (Table 12.2). -/
def handleStep (s : State) (f e : Nat) (s3 : Int) : State :=
  let one := sample3 s
  let p3 := (period3 s e).getD frame3
  let s := setMany s [(Obj.pll.lastStep, sat (-2147483648) 2147483647 (roundDiv (256 * s3) one)), (Obj.pll.lastStepFrame, f)]
  if 4 * s3.natAbs ≤ one.toNat then setO (addGlide s s3) Obj.pll.lastAction 1
  else if roundDiv s3 one = -(frameSamples s : Int) then applyReframe s f p3 s3
  else if s3.natAbs ≤ frame3.toNat then applySplice s f s3
  else if e < 2 then setO (timelineStep s f (roundDiv s3 3)) Obj.pll.lastAction 4
  else applyReframe s f p3 s3

/-- FRAME_NO jumps: the tick that comes opens frame n (R23). -/
def jumpFrame (s : State) (n : Nat) : State := { s with frame := n - 1 }

/-- Catchment begins a new integration after a jump to frame n, and transmit streams number their packets from n on (R23, R247). -/
def afterJump (s : State) (n : Nat) : State :=
  let packet (e : Nat × Nat) : Nat × Nat :=
    let size := packetSamples s.rst.rate (natO s (Obj.tx.packetTime e.1))
    (e.1, (n * frameSamples s + size - 1) / size + 1)
  let s := { s with net := { s.net with txNext := s.net.txNext.map packet } }
  if s.array.running then startCatch s n else s

/-- The switch that is due at the next tick (R280): SELECTED, event 35. -/
def applySwitch (s : State) (f : Nat) (p : Pending) : State :=
  let t := setMany s [(Obj.sel.selected, p.entry), (Obj.sel.lastSwitch, f),
    (Obj.pll.mediaPpb, sat (-100000) 100000 (getO s (Obj.ref.offsetPpb p.entry)))]
  bumpO (raiseAt (noteGrandmaster s t) f 35 p.entry) Obj.sel.switches

/-- What came while a step was pending is measured now (R288). -/
def takeLater (s : State) (f : Nat) : State :=
  let x := s.sel.later
  if x = 0 ∨ s.sel.steps.isSome then s else activeStep { s with sel := { s.sel with later := 0 } } f x

/-- A first epoch or a jump to the leader's number: a reframe with P of one frame, FRAME_NO taking n at B (R23, R287).
(DEDUCED, log entry 40.) -/
def applyJump (s : State) (p : Pending) (s3 : Int) : State :=
  let n := min (s.frame + 1 + p.ahead) 281474976710655
  let s := jumpFrame s n
  let s := if p.jump = 1 then setO s Obj.clk.epoch 1 else s
  let s := setMany s [(Obj.pll.lastStep, sat (-2147483648) 2147483647 (roundDiv (256 * s3) (sample3 s))), (Obj.pll.lastStepFrame, n)]
  afterJump (applyReframe s n frame3 s3) n

/-- At B the switch and the steps that fall due take effect together (R280, R283, R288). -/
def execRefSwitchApply (s : State) : Ans :=
  let f := s.frame + 1
  let sw := s.sel.pending.filter (fun p => decide (p.frame ≤ f))
  let st := s.sel.steps.filter (fun e => decide (e.1 ≤ f))
  if sw.isNone ∧ st.isNone then .next s
  else
    let s3 := ((sw.map (·.step3)).getD 0) + ((st.map (·.2.1)).getD 0)
    let s := { s with sel := { s.sel with
      pending := if sw.isSome then none else s.sel.pending.map (fun p => { p with step3 := p.step3 - s3 })
      steps := if st.isSome then none else s.sel.steps } }
    let s := match sw with
      | some p =>
        if p.jump = 0 then handleStep (if selectedEntry s = some p.entry then s else applySwitch s f p) f p.entry s3
        else
          let s := applyJump s p s3
          if p.jump = 2 ∨ selectedEntry s = some p.entry then s else applySwitch s (s.frame + 1) p
      | none => handleStep s f ((selectedEntry s).getD 8) s3
    done (takeLater s s.frame)

/-- PLL2 lost its phase or sits at its bound: event 47, and the phase error is a step at the first B allowed (R289). -/
def execPllUnlock (phaseErrorNs : Int) (s : State) : Ans :=
  if !s.sel.running then .next s
  else
    let s := setO (raise s 47 noDetail) Obj.pll.phaseError (sat (-2147483648) 2147483647 phaseErrorNs)
    done (activeStep s s.frame (3 * phaseErrorNs))

/-- A glide, or else a slew, has used up its phase (R268, R284). -/
def execGlideEnd (s : State) : Ans :=
  if s.sel.glide6 ≠ 0 then done (setO { s with sel := { s.sel with glide6 := 0 } } Obj.pll.glideLeft 0)
  else done (setO { s with sel := { s.sel with slew6 := 0 } } Obj.tb.slewRemaining 0)

end Sys2Proof.Machine
end

