-- ==== Sys2Proof/Machine/Events.lean ====
section
/-! DEFINITION. Event settings (R363), the injection window and points (R367 to R369), Drift queues (R372 to R378) and the
Moraine mirror (R379, R380). What an injection starts is in Handling.lean, raising and delivery in Ops.lean. -/

namespace Sys2Proof.Machine

/-! ## Event objects (R363) -/

/-- STICKY of an event is written 0. -/
def clearSticky (s : State) (n : Nat) : State := setO s (Obj.evt.sticky n) 0

/-- COUNT of an event is written 0. -/
def clearCount (s : State) (n : Nat) : State := setO s (Obj.evt.count n) 0

/-- CLEAR_ALL: every STICKY and COUNT. -/
def clearAllEvents (s : State) : State :=
  (List.range 256).foldl (fun s n => setMany s [(Obj.evt.sticky n, 0), (Obj.evt.count n, 0)]) s

/-- STATUS_ALL and STICKY_ALL: bit n mod 8 of byte floor(n / 8). -/
def eventBytes (s : State) (key : Nat → Nat) : List Byte :=
  (List.range 32).map fun i =>
    BitVec.ofNat 8 ((List.range 8).foldl (fun a b => if getO s (key (8 * i + b)) == 1 then a + 2 ^ b else a) 0)

/-! ## Injections (R367 to R369) -/

/-- Closing the window disarms every injection and cancels pending firings (R367). -/
def closeWindow (s : State) : State :=
  (List.range 256).foldl
    (fun s n => if getO s (Obj.inj.arm n) = 0 then s else setMany s [(Obj.inj.arm n, 0), (Obj.inj.state n, 0)])
    (setO s Obj.inj.window 0)

/-- A write to 1400h.0 (R367). -/
def applyWindow (s : State) (v : Int) : State :=
  let w := getO s Obj.inj.window
  if v = 0x4B4C ∧ w = 0 then setO s Obj.inj.window 1
  else if v = 0x494E ∧ w = 1 then raise (setO s Obj.inj.window 2) 237 noDetail
  else closeWindow s

/-- A write of ARM to which frame f is assigned (R368, R369). -/
def applyArm (s : State) (f n : Nat) (v : Int) : State :=
  if v = 0 then setMany s [(Obj.inj.arm n, 0), (Obj.inj.state n, 0)]
  else
    raise (setMany s [(Obj.inj.arm n, v), (Obj.inj.state n, 1), (Obj.inj.fireFrame n, f + natO s (Obj.inj.delay n))]) 236 n

/-- A DETAIL that names an instance of an event marked Act (R361, R368); of event 225, a place of R394. -/
def actInstance (n d : Nat) : Bool :=
  match n with
  | 32 => decide (d < 8)
  | 33 => decide (d < 8)
  | 42 => d == 0
  | 43 => d == 1
  | 98 => decide (d / 10 < 6) && decide (d % 10 < 9)
  | 100 => decide (d / 10 < 6) && decide (d % 10 < 9)
  | 101 => decide (d / 10 < 6) && decide (d % 10 < 9)
  | 103 => decide (d / 10 < 6) && d % 10 == 9
  | 225 => decide (d < 26) || (decide (32 ≤ d) && decide (d ≤ 65))
  | _ => d == noDetail

/-- Events marked Act in Table 15.1. -/
def actEvents : List Nat := [32, 33, 42, 43, 98, 100, 101, 103, 130, 140, 225, 230]

/-- This unit fires an injection: every unit for TARGET 0; for TARGET 1 one in IN_STEP, WAITING or SILENT (R369). -/
def isTarget (s : State) (n : Nat) : Bool :=
  getO s (Obj.inj.target n) == 0 || [4, 7, 8].contains (natO s Obj.pair.state)

def execWindowTimeout (s : State) : Ans := done (if getO s Obj.inj.window = 2 then closeWindow s else s)

/-! ## Drift queues (R372 to R378) -/

/-- Take the oldest word of a queue. -/
def popDrift (s : State) (q : Nat) : Option DWord × State :=
  let d := driftQ s q
  match d.words with
  | [] => (none, s)
  | w :: r =>
    (some w, bumpO (setO (setDriftQ s q { d with words := r }) (Obj.drift.depth q) r.length) (Obj.drift.words q))

/-- A map word that is complete enters its queue when there is room, and waits in the packing word otherwise (R378). -/
def closePacking (s : State) (q : Nat) : State :=
  let d := driftQ s q
  match d.packing with
  | none => s
  | some w => if d.words.length < 32 then enterWord (setDriftQ s q { d with packing := none }) q w else s

def execDriftWordClose (queue : Fin 16) (s : State) : Ans := done (closePacking s queue)

/-- The map producer packs its next items, four to a word, and completes the word when the queue has room (R373, R378). -/
def execDriftMapWord (s : State) : Ans :=
  match s.array.mapOut with
  | none => .next s
  | some o =>
    if (driftQ s o.queue).packing.isSome then
      let s := closePacking s o.queue
      done (if o.items.isEmpty ∧ (driftQ s o.queue).packing.isNone then { s with array := { s.array with mapOut := none } } else s)
    else
      let now := o.items.take 4
      let rest := o.items.drop 4
      let w : DWord := ⟨now.flatMap (fun i => natBE i 4), o.first, rest.isEmpty, 2, o.first && o.loss, 4 * now.length⟩
      let s := closePacking (setDriftQ s o.queue { driftQ s o.queue with packing := some w }) o.queue
      let more := !rest.isEmpty || (driftQ s o.queue).packing.isSome
      done { s with array := { s.array with mapOut := if more then some { o with items := rest, first := false } else none } }

/-- A pop at the window of a queue: a 32-byte read takes a word when the bus is the queue's consumer, or the idle word when
none is held, and zeros behind its 20 bytes; any other size is a bus error and pops nothing (R377, R389). What a read finds
while the queue has another consumer is not stated: free bytes. (DESIGN CHOICE, log entry 98.) -/
def popWindow (s : State) (q size : Nat) : Option (List Byte) × State :=
  if size ≠ 32 then (none, s)
  else if getO s (Obj.drift.consumer q) ≠ 2 then
    let (v, s) := drawFree s
    (some (natBE v 32), s)
  else
    let r := popDrift s q
    (some (((r.1.map DWord.wire).getD idleWord) ++ List.replicate 12 0), r.2)

/-- FLUSH: every stage and the packing word are emptied, and the rest of an interrupted record is discarded (R376).
(DEDUCED, log entry 46.) -/
def flushQueue (s : State) (q : Nat) : State :=
  let d := driftQ s q
  let words := d.words ++ d.packing.toList
  let cut := s.array.mapOut.filter (fun o => o.queue == q && !o.first)
  let n := words.foldl (fun a w => a + w.items) 0 + (cut.map (fun o => o.items.length)).getD 0
  let s := setDriftQ s q { d with words := [], packing := none, afterLoss := true }
  let s := if cut.isSome then { s with array := { s.array with mapOut := none } } else s
  setO (if n = 0 then s else addO s (Obj.drift.flushed q) n) (Obj.drift.depth q) 0

/-- PRODUCER: event records 1, scan maps 2 (Table 15.9). -/
def producers (s : State) (q : Nat) : Nat :=
  (if natO s Obj.evset.eventQueue = q then 1 else 0)
    + (if getO s Obj.scan.scanEnable = 1 ∧ natO s Obj.scan.scanQueue = q then 2 else 0)

/-- DATA as a READ finds it: up to 70 words, oldest first (R377). -/
def driftData (s : State) (q : Nat) : List Byte := ((driftQ s q).words.take 70).flatMap DWord.wire

/-- Pop up to n words. -/
def popMany (s : State) (q : Nat) : Nat → List Byte × State
  | 0 => ([], s)
  | n + 1 =>
    match popDrift s q with
    | (none, s) => ([], s)
    | (some w, s) => let r := popMany s q n; (w.wire ++ r.1, r.2)

/-- Subscriptions on change to an object: session and identifier (R44). -/
def watchers (s : State) (k : Nat) : List (Nat × Nat) :=
  sessionNumbers.flatMap fun n =>
    ((session s n).subs.filter (fun u => u.kind == 0 && u.mode == 0 && u.object == k)).map (fun u => (n, u.id))

/-- Payload of an EVENT message for an object: FFFFh, then in bytes 16 on its address, length and value (Table 2.12); of a value that
does not fit, the first 1,416 bytes. (DESIGN CHOICE, log entry 111.) -/
def objectPayload (s : State) (subId k : Nat) (t : Ty) (b : List Byte) : List Byte :=
  let b := b.take 1416
  natBE subId 2 ++ [0xFF, 0xFF, 0x00, 0x00, 0x00, 0x00] ++ natBE s.frame 8 ++ natBE (keyIndex k) 2 ++ natBE (keyElem k) 2
    ++ natBE (keySub k) 1 ++ natBE t.code 1 ++ natBE b.length 2 ++ b

/-- Each frame the Gultin consumer drains up to 70 words of a queue to the sessions subscribed to its DATA (R377). -/
def drainDrift (s : State) : State :=
  (List.range 16).foldl
    (fun s q =>
      let subs := watchers s (Obj.drift.data q)
      if getO s (Obj.drift.consumer q) ≠ 1 ∨ subs.isEmpty ∨ (driftQ s q).words.isEmpty then s
      else
        let r := popMany s q 70
        subs.foldl (fun s e => pushTo s e.1 0 (objectPayload s e.2 (Obj.drift.data q) .blob r.1)) r.2) s

/-! ## Moraine (R379, R380) -/

/-- The log is mirrored at once when a CRIT record was written, before a reset and at Rising. -/
def execMoraineMirror (s : State) : Ans := done (mirrorMoraine s)

/-- SHUTDOWN: a shutdown record, then the mirror (R380). -/
def doShutdown (s : State) : State := mirrorMoraine (writeMoraine s 3 false s.frame 65535 0)

/-- CLEAR: the backup ring is emptied; SEQ continues (Table 15.11). -/
def clearMoraine (s : State) : State := setO { s with ev := { s.ev with ring := [] } } Obj.mor.count 0

/-- RECORDS and MIRROR_DATA (Table 15.11). -/
def moraineBytes (s : State) : List Byte := s.ev.ring.flatMap MRec.bytes
def mirrorBytes (s : State) : List Byte := ((s.ev.flash.drop (natO s Obj.mor.mirrorIndex)).take 64).flatMap MRec.bytes

/-! ## Health (R381) -/

/-- Unmasked sticky events of a severity. -/
def stickyOf (s : State) (sev : Nat) : List Nat :=
  (List.range 256).filter (fun n => getO s (Obj.evt.sticky n) == 1 && getO s (Obj.evt.mask n) == 0 && natO s (Obj.evt.severity n) == sev)

/-- STATE: the highest severity among unmasked sticky events. -/
def healthState (s : State) : Nat := ([3, 2, 1].find? (fun v => !(stickyOf s v).isEmpty)).getD 0

/-- WORST_EVENT: lowest-numbered event of that severity. -/
def worstEvent (s : State) : Nat :=
  if healthState s = 0 then 65535 else ((stickyOf s (healthState s)).head?).getD 65535

/-- LINKS_DEGRADED: bit n when BLn has a spared lane or runs below WIDTH. -/
def linksDegraded (s : State) : Nat :=
  (List.range 6).foldl
    (fun a l => if linkActive s l && (natO s (Obj.link.rxSpareFor l) != 255 || natO s (Obj.link.txSpareFor l) != 255
        || decide (natO s (Obj.link.rxWidth l) < natO s (Obj.link.width l))) then a + 2 ^ l else a) 0

end Sys2Proof.Machine
end

