-- ==== Sys2Proof/Machine/Reset.lean ====
section
/-! DEFINITION. Reset sources and reach (R335 to R340), option bytes (R341), the backup domain (R343, R344), block resets
(R345 to R347), the staged start (R349 to R352) and power domains (R357 to R359). Block release and the restart of the
control complex, which apply held changes and replay the journal, are in Release.lean. -/

namespace Sys2Proof.Machine

/-! ## What a reset keeps (R336, R343) -/

/-- Objects held in the backup domain: reset counters, sessions, the journal, Moraine's counts and OWNER_EPOCH. -/
def backupKey (k : Nat) : Bool :=
  [0x1201, 0x1110, 0x1120].contains (keyIndex k) || k == Obj.mor.count || k == Obj.mor.nextSeq || k == Obj.mor.mirroredSeq
    || k == Obj.own.ownerEpoch

/-- Objects held in flash: the hashes of the verified program store slots, which R93 compares at the next start. -/
def flashKey (k : Nat) : Bool := k == Obj.prog.slotHash 0 || k == Obj.prog.slotHash 1

/-- Counters that count since the last cold reset: a warm reset keeps them. -/
def coldCounters : List Nat :=
  [Obj.slu.commits, Obj.prog.swaps, Obj.sel.switches, Obj.pll.splices, Obj.pll.reframes, Obj.pwr.clears, Obj.health.eccCorrected,
    Obj.health.eccUncorrectable, Obj.fw.handovers]

/-- A session as a reset or a takeover leaves it: OPEN and FENCED become DORMANT, with result store and fence kept (R51, R311). Its
push sequence starts again, while one that goes dormant after 5 s goes on. (DESIGN CHOICE, log entry 112.) -/
def dormantSession (s : State) (n : Nat) : State :=
  let v := session s n
  let s := setSession s n { v with subs := [], held := [], dormant := s.ctl.dormantNo, atPartner := false, pushSeq := 1 }
  let s := setMany s [(Obj.sess.state (n - 1), 3), (Obj.sess.subscriptions (n - 1), 0), (Obj.sess.inFlight (n - 1), 0)]
  { s with ctl := { s.ctl with dormantNo := s.ctl.dormantNo + 1 } }

/-- Every session that is OPEN or FENCED goes DORMANT. -/
def dormantAll (s : State) : State :=
  sessionNumbers.foldl (fun s n => if sessState s n = 1 ∨ sessState s n = 2 then dormantSession s n else s) s

/-- The state in which a cold or warm reset leaves the engine, sources apart: every domain but the backup domain. A warm reset
keeps the counters since cold reset, the number of the next snapshot (R180), and that an entry has been qualified since then (R277). -/
def wipe (s : State) (cold : Bool) : State :=
  let s := dormantAll s
  let r : State := { State.reset with
    pending := s.pending, out := s.out, fresh := s.fresh
    obj := s.obj.filter (fun e => backupKey e.1 || flashKey e.1)
    blob := s.blob.filter (fun e => backupKey e.1)
    ctl := { Ctl.reset with
      sessions := s.ctl.sessions, journal := s.ctl.journal, savedNum := s.ctl.savedNum, savedBlob := s.ctl.savedBlob
      savedHash := s.ctl.savedHash, dormantNo := s.ctl.dormantNo
      ownedBefore := s.ctl.ownedBefore || getO s Obj.own.ownerState != 0 }
    slu := { Sluice.reset with
      openTag := s.slu.openTag, openSession := s.slu.openSession, openSeq := s.slu.openSeq, openSet := s.slu.openSet
      waiting := s.slu.waiting
      heldFed := s.slu.heldFed, coord := s.slu.coord, nextId := s.slu.nextId, heldBlock := s.slu.heldBlock }
    pair := { Pair.reset with roleHigh := s.pair.roleHigh || s.pair.pullsRole }
    ev := { Events.reset with ring := s.ev.ring, flash := s.ev.flash }
    bus := { Bus.reset with
      hbm := if cold then [] else s.bus.hbm
      aon := s.bus.aon, flash := s.bus.flash, otp := s.bus.otp }
    rst := { Reset.reset with
      asserted := s.rst.asserted, sources := s.rst.sources, tell := s.rst.tell, cold := s.rst.cold, vbatLost := s.rst.vbatLost
      rtc := s.rst.rtc, thermLow := s.rst.thermLow }
    jtag := s.jtag, pins := s.pins }
  let r := setO r Obj.jrn.highWater (journalUsed r : Nat)
  if cold then r
  else
    { setMany r (coldCounters.map (fun k => (k, getO s k))) with
      array := { r.array with corr := { r.array.corr with nextNo := s.array.corr.nextNo } }
      sel := { r.sel with entries := s.sel.entries.map (fun e => { RefEntry.idle with requal := e.requal || e.qualified }) } }

/-- A cold (or warm) source is asserted: everything it covers returns to reset; before T_R it joins the running sequence,
after T_R a new one begins (R338, Table 14.3). (DEDUCED, log entry 47.) -/
def assertSource (s : State) (code : Nat) (cold : Bool) : State :=
  let joins := !s.rst.begun
  let was := stageOf s
  let r := { s.rst with
    asserted := if s.rst.asserted.contains code then s.rst.asserted else code :: s.rst.asserted
    sources := if joins then (if s.rst.sources.contains code then s.rst.sources else code :: s.rst.sources) else [code]
    cold := cold || (joins && s.rst.cold) }
  let f := s.frame
  let s := wipe { s with rst := r } r.cold
  if was = 0 then s else writeMoraine s 1 false f 65535 0

/-- A source ends; the option bytes are loaded once none is left (R339, R341). (DEDUCED, log entry 54.) -/
def endSource (s : State) (code : Nat) : State :=
  { s with rst := { s.rst with asserted := s.rst.asserted.filter (· != code) } }

def execPowerOnReset (s : State) : Ans :=
  let s := assertSource s 0 true
  done { s with pins := { s.pins with supplyOk := false }, jtag := Jtag.reset }

def execPowerOnRelease (s : State) : Ans := done (endSource { s with pins := { s.pins with supplyOk := true } } 0)

/-- RESET_N goes low for a time: from 1.6 µs the filter always accepts, below 1.4 µs never, between them either (R337). -/
def filterTakes (ns : Nat) : Bool := decide (1600 ≤ ns) || (decide (1400 ≤ ns) && Config.resetPulse ns)

def execResetNAssert (pulseNs : Nat) (s : State) : Ans :=
  done (if filterTakes pulseNs then
      let s := assertSource s 1 true
      { s with pins := { s.pins with resetN := false } }
    else s)

def execResetNRelease (pulseNs : Nat) (s : State) : Ans :=
  done (if filterTakes pulseNs then endSource { s with pins := { s.pins with resetN := true } } 1 else s)

def execSystemWatchdog (s : State) : Ans := done (assertSource s 2 false)

def execThermalReset (s : State) : Ans := done (assertSource s 5 true)

/-- At 110 °C: event 12, present until below 105 °C, and THERM_N low (R335). -/
def execThermalWarn (s : State) : Ans := done (raiseLasting { s with rst := { s.rst with thermLow := true } } 12 noDetail)

/-- The junction cools: below 110 °C the thermal reset ends, below 105 °C THERM_N is released (R335). -/
def execJunctionCooling (tenthsC : Int) (s : State) : Ans :=
  let s := if tenthsC < 1100 then endSource s 5 else s
  done (if tenthsC < 1050 then clearCondition { s with rst := { s.rst with thermLow := false } } 12 else s)

/-- A supply outside its range raises event 13 and resets nothing (R335). -/
def execSupplyWarn (s : State) : Ans := done (raise s 13 noDetail)

/-- Every counter and store of the backup domain is cleared (R343). -/
def clearBackup (s : State) : State :=
  { s with
    obj := s.obj.filter (fun e => !backupKey e.1)
    blob := s.blob.filter (fun e => !backupKey e.1)
    ctl := { s.ctl with sessions := [], journal := [], await := [], dormantNo := 0, ownedBefore := false }
    slu := { s.slu with openTag := 0, openSession := 0, openSeq := 0, openSet := [], waiting := [], heldFed := none, coord := none, heldBlock := [] }
    ev := { s.ev with ring := [] }
    bus := { s.bus with aon := [] }
    rst := { s.rst with rtc := 0, vbatLost := true } }

/-- VBAT as measured: below its threshold of 1.45 V the backup domain resets; below 1.70 V event 14 (R343). -/
def execVbatLow (millivolts : Nat) (s : State) : Ans :=
  let s := if millivolts < 1450 then clearBackup s else s
  done (if millivolts < 1700 ∧ 2 ≤ stageOf s then raise s 14 noDetail else s)

/-- A 10 µs pulse ends: 2 the system watchdog, 4 a partner reset request, 6 a core watchdog (R335). -/
def execResetPulseEnd (source : Fin 8) (s : State) : Ans :=
  done (if source.val = 2 ∨ source.val = 4 then endSource s source
    else if source.val = 6 then { s with rst := { s.rst with corePulse := false } }
    else s)

/-! ## Option bytes (R341) -/

/-- The 128 bytes of an option slot. -/
def optionSlot (s : State) (k : Nat) : List Byte := bytesGet s.bus.otp (128 * k) 128

def optionBlank (b : List Byte) : Bool := b.all (· == 0)

/-- MAGIC, FORMAT and CRC are correct. -/
def optionValid (b : List Byte) : Bool :=
  leNat (b.take 2) == 0x4F42 && b.getD 2 0 == 1 && leNat (b.drop 124) == crc32 (b.take 124)

/-- Slots neither blank nor valid, as the bits of BAD; blank slots; the highest valid slot. -/
def badSlots (s : State) : Nat :=
  (List.range 8).foldl (fun a k => if optionBlank (optionSlot s k) || optionValid (optionSlot s k) then a else a + 2 ^ k) 0

def blankSlots (s : State) : Nat := (List.range 8).countP (fun k => optionBlank (optionSlot s k))

def bestSlot (s : State) : Option Nat := [7, 6, 5, 4, 3, 2, 1, 0].find? (fun k => optionValid (optionSlot s k))

/-- The release instant T_R: RESET_OUT_N goes high, counters and the last sequence are recorded (R339, R340, R344). -/
def passRelease (s : State) : State :=
  let s := { s with rst := { s.rst with
    begun := true, outHigh := true, upFrames := 0, tell := s.rst.tell ++ s.rst.sources.filter (fun c => !s.rst.tell.contains c) } }
  let s := bumpO s Obj.rcnt.total
  let s := s.rst.sources.foldl (fun s c => bumpSat s (Obj.rcnt.source c)) s
  let s := setMany s [(Obj.rcnt.lastSources, ((s.rst.sources.foldl (fun a c => a + 2 ^ c) 0 : Nat) : Int)),
    (Obj.rcnt.lastReach, if s.rst.cold then 2 else 1), (Obj.rcnt.lastTime, ((s.rst.rtc / 3 : Nat) : Int))]
  writeMoraine s 2 false 0 65535 0

/-- The option bytes are loaded from the highest valid slot; in mode 1 this instant is T_R (R339, R341). -/
def execOptionLoadDone (s : State) : Ans :=
  if !s.rst.asserted.isEmpty || s.rst.optionsLoaded then .next s
  else
    let best := bestSlot s
    let bad := badSlots s
    let s := setMany s [(Obj.opt.slot, (best.getD 255 : Nat)), (Obj.opt.blank, blankSlots s), (Obj.opt.bad, bad)]
    let s := { s with rst := { s.rst with
      optionsLoaded := true, released := 2, options := (best.map (optionSlot s)).getD defaultOptions } }
    let s := if bad ≠ 0 ∨ best = none then raise s 9 noDetail else s
    done (if optionField s 3 1 % 4 = 1 then passRelease s else s)

/-- The stretch ends in modes 0 and 2: T_R (R339). -/
def execStretchExpiry (s : State) : Ans :=
  done (if s.rst.asserted.isEmpty && s.rst.optionsLoaded && !s.rst.begun then passRelease s else s)

/-- PLL0 and PLL1 lock and PLL2 runs: step 3 is ready (Table 14.4). -/
def execPllLock (s : State) : Ans := done (if 3 ≤ s.rst.released then { s with rst := { s.rst with pllLocked := true } } else s)

/-! ## Trickle (R129, R349, R350) -/

/-- A boot route entry: FADE_IN, IN_PORT, IN_SLOT, OUT_PORT, OUT_SLOT, GAIN (Table 14.7). -/
def bootRoute (s : State) (i : Nat) : Bool × Nat × Nat × Nat × Nat × Int :=
  let b := 24 + 6 * i
  (decide (128 ≤ optionField s b 1), optionField s b 1 % 16, optionField s (b + 1) 1 % 32, optionField s (b + 2) 1 % 16,
    optionField s (b + 3) 1 % 32, signed 16 (optionField s (b + 4) 2))

/-- The boot routes that are enabled: none when one names a reserved slot or a driven output slot (R126, R341). -/
def bootRoutes (s : State) : Option (List Nat) :=
  let on := (List.range 16).filter (fun i => (bootRoute s i).1)
  let out (i : Nat) : Nat := 32 * (bootRoute s i).2.2.2.1 + (bootRoute s i).2.2.2.2.1
  let high := s.rst.rate != 0 && on.any (fun i => decide (16 ≤ (bootRoute s i).2.2.1) || decide (16 ≤ (bootRoute s i).2.2.2.2.1))
  let twice := on.any (fun i => on.any (fun j => decide (i < j) && out i == out j))
  if high || twice then none else some on

/-- Samples of the 20 ms rise of a boot route. -/
def riseLength (rate : Nat) : Nat := if rate = 0 then 960 else 1920

/-- A boot route starts muted and rises over 20 ms (R129). -/
def startBootRoute (s : State) (i : Nat) : State :=
  let (_, ip, is, op, os, g) := bootRoute s i
  let s := setMany s [(Obj.rill.inPort i, ip), (Obj.rill.inSlot i, is), (Obj.rill.outPort i, op), (Obj.rill.outSlot i, os),
    (Obj.rill.gain i, g), (Obj.rill.origin i, 1), (Obj.rill.enable i, 1)]
  setRill s i { Rill.idle with mode := 1, fadeLen := riseLength s.rst.rate, g := linearGain g }

/-- TDM outputs and clock masters are driven in Trickle (R350). -/
def trickleDrives (s : State) : Bool := (s.pair.roleHigh && !s.pins.unitB) || optionField s 120 1 / 8 % 2 == 1

/-- TDM outputs start or stop at each clock group's next frame. -/
def setDrive (s : State) (v : Bool) : State := { s with conf := { s.conf with tdm := { s.conf.tdm with driveNext := v } } }

/-- A stage is entered: STAGE, ENTERED and the Moraine record (R349). -/
def enterStage (s : State) (n f : Nat) : State :=
  writeMoraine (setMany s [(Obj.stage.stage, n), (Obj.stage.entered, f)]) 1 false f 65535 0

/-- A time since T_R that the model does not keep: a free U32. (DESIGN CHOICE, log entry 48.) -/
def freeTime (s : State) (k : Nat) : State :=
  let (v, s) := drawFree s
  setO s k ((v % 4294967296 : Nat) : Int)

/-- Step 8 is released: Trickle. -/
def enterTrickle (s : State) : State :=
  let s := freeTime (enterStage s 1 0) Obj.stage.trickleUs
  let s := { s with rst := { s.rst with rate := optionField s 120 1 % 2 } }
  let s := { s with conf := { s.conf with tdm := { s.conf.tdm with running := true } } }
  let s := setDrive s (trickleDrives s)
  match bootRoutes s with
  | none => raise s 9 noDetail
  | some l => l.foldl startBootRoute s

/-- The straps are read when the control complex is released: PAIR_ID and FED_ID (R294, R325). -/
def readStraps (s : State) : State :=
  setMany s [(Obj.ident.unit, if s.pins.unitB then 1 else 0), (Obj.fed.memberId, ((s.pins.fedId % 8 : Nat) : Int))]

/-- A counted gap ends: the next domain of Table 14.4 is released, step 4 only once the PLLs are locked. -/
def execReleaseGap (s : State) : Ans :=
  let n := s.rst.released
  if !s.rst.begun || decide (n < 2) || decide (10 ≤ n) || (n == 3 && !s.rst.pllLocked) then .next s
  else
    let s := { s with rst := { s.rst with released := n + 1 } }
    done (if n + 1 = 4 then readStraps s else if n + 1 = 8 then enterTrickle s else s)

/-! ## Roles at Rising (R292, R296) -/

/-- This unit becomes ACTIVE in a state: it pulls PAIR_ROLE low, sends on both paths and drives its outputs. -/
def becomeActive (s : State) (st : Nat) : State :=
  let s := setMany s [(Obj.pair.role, 0), (Obj.pair.state, st), (Obj.pair.exposed, 1)]
  setDrive { s with pair := { s.pair with watching := 0, pullsRole := true, roleHigh := false, aliveOut := 1, pathsSent := [true, true] } } true

/-- This unit becomes STANDBY in a state: it releases PAIR_ROLE and its outputs, and sends on no path. It replays nothing
(R51), and takes its program and state by resync. -/
def becomeStandby (s : State) (st : Nat) : State :=
  let s := setMany s [(Obj.pair.role, 1), (Obj.pair.state, st), (Obj.pair.exposed, 1)]
  setDrive { s with
    pair := { s.pair with watching := 0, pullsRole := false, aliveOut := 3, pathsSent := [false, false] }
    ctl := { s.ctl with replay := false } } false

/-- The partner as classified: 0 absent, 1 ACTIVE, 2 in step, 3 standby otherwise (Table 13.2). A unit that becomes STANDBY
without a partner goes straight to ORPHAN (R298). -/
def standbyStart (s : State) : State := becomeStandby s (if s.pair.partnerKind = 0 then 9 else 5)

/-- A lone engine: state LONE, PAIR_ROLE and PAIR_ALIVE left alone (R292). -/
def becomeLone (s : State) : State :=
  setDrive { s with pair := { s.pair with watching := 0, pathsSent := [true, true] } } true

/-- The pair role is decided: a role other than the watch of R296. -/
def roleDecided (s : State) : Bool := s.pair.watching == 0

/-! ## Rising (R349, R351) -/

/-- The saved value of a persistent object is loaded (R32); program objects wait for their program (R93). -/
def loadSaved (s : State) : State :=
  let s := s.ctl.savedNum.foldl
    (fun s e => if 0x6000 ≤ keyIndex e.1 then s
      else match declAt s (keyIndex e.1) (keyElem e.1) (keySub e.1) with
        | some d => if d.typ.admits e.2 then setO s e.1 e.2 else s
        | none => s) s
  s.ctl.savedBlob.foldl (fun s e => setB s e.1 e.2) s

/-- What restored settings set up: the latency defaults of a SPEED restored without its own, and the ring breakers (R242, R263). -/
def settleSaved (s : State) : State :=
  let saved (k : Nat) : Bool := s.ctl.savedNum.any (fun e => e.1 == k)
  let s := (List.range 4).foldl (fun s p =>
    let l := latencies (getO s (Obj.port.speed p))
    let s := if saved (Obj.cal.ingressLatency p) then s else setO s (Obj.cal.ingressLatency p) l.1
    if saved (Obj.cal.egressLatency p) then s else setO s (Obj.cal.egressLatency p) l.2) s
  startRing (startRing s 0) 1

/-- Boot routes fade out, and the ports restart at SAMPLE_RATE once 64 samples have passed (R351). (DEDUCED, log entry 55.) -/
def beginRateChange (s : State) : State :=
  let r := natO s Obj.clk.sampleRate
  if r = s.rst.rate then s
  else
    let s := { s with rst := { s.rst with rateNext := some (r, s.frame + 9) } }
    (List.range 16).foldl
      (fun s i => let v := rillOf s i
        if v.mode = 0 then s else setRill s i { v with mode := 3, fade := 0, fadeLen := 64 }) s

/-- The ports restart at the new rate: boot routes rise again, but for those whose slots the rate reserves, each of which
raises event 9 with its number (R351). -/
def finishRateChange (s : State) : State :=
  match s.rst.rateNext with
  | none => s
  | some (r, f) =>
    if s.frame < f then s
    else
      let s := { s with rst := { s.rst with rate := r, rateNext := none } }
      let s := { s with conf := { s.conf with tdm := { s.conf.tdm with
        capture := [], frames := [], adopted := [], playing := [], routed := [], position := [0, 0, 0, 0] } } }
      (List.range 16).foldl
        (fun s i =>
          if getO s (Obj.rill.enable i) = 0 then s
          else if r = 1 ∧ (16 ≤ natO s (Obj.rill.inSlot i) ∨ 16 ≤ natO s (Obj.rill.outSlot i)) then
            raise (setRill (setO s (Obj.rill.enable i) 0) i Rill.idle) 9 i
          else setRill s i { Rill.idle with mode := 1, fadeLen := riseLength r, g := linearGain (getO s (Obj.rill.gain i)) }) s

/-- FW_VERSION in the header of a firmware image (Table 16.11). -/
def imageBase (img : Nat) : Nat := img * 0x1000000
def imageVersion (s : State) (img : Nat) : Nat := leNat (bytesGet s.bus.flash (imageBase img + 4) 4)

/-- Something in the backup domain waits for the replay (R51). -/
def replayDue (s : State) : Bool :=
  !s.ctl.journal.isEmpty || s.slu.openSession != 0 || !s.slu.waiting.isEmpty || !s.slu.heldBlock.isEmpty
    || s.slu.heldFed.isSome || s.slu.coord.isSome

/-- OWNER_STATE without an owner: 0 NO_OWNER, 1 ELECTING. -/
def clearOwner (s : State) (state : Nat) : State :=
  setMany s [(Obj.own.ownerState, state), (Obj.own.ownerStation, 0), (Obj.own.ownerSession, 0), (Obj.own.ownerPriority, 0)]

/-- A window opens. -/
def openWindow (s : State) : State := { clearOwner s 1 with ctl := { s.ctl with candidates := [] } }

/-- NO_OWNER is entered; a standing claim that a session has kept opens a window at once (Table 2.15). (DEDUCED, log entry 107.) -/
def enterNoOwner (s : State) : State :=
  if sessionNumbers.any (fun n => sessState s n != 0 && (session s n).standing.isSome) then openWindow s else clearOwner s 0

/-- Ownership at Rising: NO_OWNER, and OWNER_EPOCH one higher when it was contested or held before the reset (R46). -/
def openOwnership (s : State) : State :=
  let s := if s.ctl.ownedBefore then bumpO s Obj.own.ownerEpoch else s
  enterNoOwner { s with ctl := { s.ctl with ownedBefore := false } }

/-- A verified image boots: Rising (R349). -/
def enterRising (s : State) (img : Nat) : State :=
  let s := settleSaved (loadSaved s)
  let v := imageVersion s img
  let s := setMany s [(Obj.stage.fwImage, img), (Obj.stage.bootState, 1), (Obj.bus.bootRemap, 1), (Obj.fw.running, img),
    (Obj.ident.fwVersion, v), (Obj.fw.version img, v), (Obj.rst.inReset, 0)]
  let s := freeTime (enterStage s 2 s.frame) Obj.stage.risingMs
  let s := raise s 10 noDetail
  let s := s.rst.tell.foldl (fun s c => raise s c noDetail) s
  let s := if s.rst.vbatLost then raise s 14 noDetail else s
  let s := { s with rst := { s.rst with tell := [], vbatLost := false, pairEnable := getO s Obj.pair.pairEnable == 1 } }
  let s := beginRateChange (mirrorMoraine s)
  let s := openOwnership s
  let s := { s with ctl := { s.ctl with replay := replayDue s } }
  let s := startSelector s
  let s := (List.range 6).foldl enterDetect s
  if s.rst.pairEnable then
    { s with pair := { s.pair with watching := 1, aliveOut := 3, pathsSent := [false, false] } }
  else becomeLone s

def execFirmwareBooted (image : Fin 2) (s : State) : Ans :=
  done (if stageOf s = 1 ∧ s.rst.released = 10 ∧ getO s Obj.stage.bootState = 0 then enterRising s image else s)

/-- No image verifies: event 11 and Trickle with BOOT_STATE 2. A single bad image: event 11, and the other boots (R351). -/
def execBootImageBad (single : Option (Fin 2)) (s : State) : Ans :=
  if stageOf s ≠ 1 then .next s
  else
    let s := raise s 11 noDetail
    done (if single.isSome then s else setO s Obj.stage.bootState 2)

/-! ## Flowing (R352) -/

/-- Media streams enabled before Flowing start with its first frame. (DEDUCED, log entry 56.) -/
def startStreams (s : State) : State :=
  (List.range 512).foldl
    (fun s n => if getO s (Obj.tx.enable n) = 1 then
        let size := packetSamples s.rst.rate (natO s (Obj.tx.packetTime n))
        { s with net := { s.net with txNext := Sparse.put (fun _ => 0) s.net.txNext n ((sampleIndex s s.frame + size - 1) / size + 1) } }
      else s) s

/-- Receive streams enabled by saved values take samples from this frame on. -/
def openStreams (s : State) : State :=
  (List.range 512).foldl
    (fun s n => if getO s (Obj.rx.enable n) = 1 ∧ (assocGet s.net.rxFrom n).isNone then
        { s with net := { s.net with rxFrom := Sparse.insert s.net.rxFrom n (sampleIndex s s.frame) } }
      else s) s

/-- The swap to BOOT_SLOT, committed for "next" with an empty carry, when the slot still verifies with its recorded hash
(R93): 120 + 2 frames ahead. -/
def commitBoot (s : State) : State :=
  let slot := natO s Obj.prog.bootSlot
  let b := bytesGet s.bus.flash (storeBase slot) (fieldAt (bytesGet s.bus.flash (storeBase slot) 12) 8 4)
  if 1 < slot ∨ natO s (Obj.prog.slotHash slot) = 0 then s
  else
    match (verifyImage b b.length (natO s Obj.ident.fwVersion) s.rst.rate (programKey s) none).2 with
    | none => s
    | some im =>
      if im.hash ≠ natO s (Obj.prog.slotHash slot) then s
      else
        let s := setO { s with prog := { s.prog with staged := some { im with carry := [] } } } Obj.prog.stagedSlot slot
        let g : Group := ⟨s.slu.nextId, 0, 0, s.frame + 122, s.frame + 122, true, false, 0, [⟨Obj.prog.swapTo, .num slot⟩], [],
          false, false, false, 1, 0, true, 0, 0, false, none, none, 0⟩
        { s with slu := { s.slu with waiting := s.slu.waiting ++ [g], nextId := s.slu.nextId + 1 } }

/-- FLOW_CAUSE: 1 the first switch out of holdover has reached its B, 2 FLOW_WAIT has passed in holdover. -/
def flowCause (s : State) : Option Nat :=
  if (selectedEntry s).isSome then some 1
  else if natO s Obj.stage.entered + 6000 * natO s Obj.stage.flowWait ≤ s.frame then some 2
  else none

/-- The engine starts its traffic: events, Catchment, streams (R163, R352). -/
def enterFlowing (s : State) (cause : Nat) : State :=
  let s := freeTime (enterStage s 3 s.frame) Obj.stage.flowingMs
  let s := raise (setO s Obj.stage.flowCause cause) 10 noDetail
  startStreams (openStreams (startCatch s s.frame))

/-- At the first frame divisible by 16 that meets R352; a STANDBY waits for IN_STEP instead (R296). (DEDUCED, log entry 53.) -/
def execFlowingEntry (s : State) : Ans :=
  if stageOf s ≠ 2 ∨ s.frame % 16 ≠ 0 ∨ !roleDecided s ∨ !isActive s ∨ s.rst.rateNext.isSome then .next s
  else
    match flowCause s with
    | none => .next s
    | some c => done (commitBoot (enterFlowing s c))

/-! ## Block resets (R345 to R347) -/

/-- What closing the wrapper of a block does at once, audio of the other blocks untouched. -/
def isolate (s : State) (code : Nat) : State :=
  if code < 16 then
    (List.range 8).foldl (fun s i => setCell s (8 * code + i) { cellOf s (8 * code + i) with active := false, loops := [] }) s
  else if code = 16 then haltCatch s
  else if code ≤ 18 then
    let p := code - 17
    let s := if ptpPresent s p then loseLock s p else s
    setO (setPtp (resetPath s p) p { PtpInst.idle with counter := (ptpOf s p).counter, addend := (ptpOf s p).addend }) (Obj.ptp.state p) 0
  else if code ≤ 24 then resetLink s (code - 19)
  else { s with ctl := { s.ctl with await := [], forwarded := [], candidates := [], series := [] } }

def blockOf (s : State) (code : Nat) : Option BlockSt := assocGet s.rst.blocks code

def setBlock (s : State) (code : Nat) (v : BlockSt) : State :=
  { s with rst := { s.rst with blocks := assocPut s.rst.blocks code v } }

/-- IN_RESET: bit n for a block whose wrapper is closed. -/
def inResetBits (s : State) : Nat :=
  (List.range 26).foldl (fun a c => if s.rst.blocks.any (fun b => b.1 == c && !b.2.idling) then a + 2 ^ c else a) 0

/-- A block reset begins at frame f: BLOCK rises, event 6, and the block goes idle first when it is graceful. An overlapping
reset only prolongs the hold (Table 14.3). (DEDUCED, log entry 57.) -/
def beginBlock (s : State) (f code hold : Nat) : State :=
  let s := raiseAt (bumpSat s Obj.rcnt.block) f 6 code
  match blockOf s code with
  | some b => setBlock s code { b with release := max b.release (f + hold) }
  | none =>
    let graceful := (natO s Obj.rst.graceful).testBit code
    let s := setBlock s code ⟨f + hold, graceful, false⟩
    if graceful then s else isolate s code

/-- Block resets assigned to the frame that begins. -/
def startBlocks (s : State) : State :=
  let due := s.rst.starting.filter (fun e => decide (e.1 ≤ s.frame))
  let s := { s with rst := { s.rst with starting := s.rst.starting.filter (fun e => decide (s.frame < e.1)) } }
  due.foldl (fun s e => beginBlock s s.frame e.2.1 e.2.2) s

/-- A block reset is to begin at a frame. -/
def planBlock (s : State) (f code hold : Nat) : State :=
  { s with rst := { s.rst with starting := s.rst.starting ++ [(f, code, hold)] } }

/-- A core watchdog expires: event 2, and the control complex resets at the next frame boundary (R335, R347). -/
def execCoreWatchdog (_core : Fin 5) (s : State) : Ans :=
  if s.rst.released < 4 then .next s
  else done (planBlock (raise { s with rst := { s.rst with corePulse := true } } 2 25) (s.frame + 1) 25 0)

/-- The safety core asks for a block reset at the next frame boundary (R347). -/
def safetyReset (s : State) (block : Nat) : State := if s.rst.released < 4 then s else planBlock s (s.frame + 1) block 0

def execSafetyCoreReset (block : Fin 26) (s : State) : Ans := done (safetyReset s block)

/-- A graceful block reports idle: its wrapper closes without errors (R346). -/
def execBlockIdle (block : Fin 26) (s : State) : Ans :=
  match blockOf s block with
  | some b => done (if b.idling then isolate (setBlock s block { b with idling := false }) block else s)
  | none => .next s

/-- A transaction into a closed wrapper is completed with an error: event 7 once per reset (R345). -/
def isoError (s : State) (code : Nat) : State :=
  match blockOf s code with
  | some b => if b.isoSeen then s else raise (setBlock s code { b with isoSeen := true }) 7 code
  | none => s

/-- IDLE_TIMEOUT passes first: event 8, and the wrapper closes as in R345 (R346). -/
def execIdleTimeout (block : Fin 26) (outstanding : Bool) (s : State) : Ans :=
  match blockOf s block with
  | some b =>
    if b.idling then
      let s := isolate (raise (setBlock s block { b with idling := false }) 8 block) block
      done (if outstanding then isoError s block else s)
    else done s
  | none => done s

/-- RESET as written: which unit it names, and its target (Table 14.14). UNIT 0 is the unit that received the request. -/
def resetNames (s : State) (v : Nat) : Bool :=
  match v / 16384 with
  | 0 => true
  | 1 => !s.pins.unitB
  | 2 => s.pins.unitB
  | _ => true

/-- A write of RESET takes effect at this unit; frame f is assigned under R20 to a block reset (R347, R360). -/
def applyReset (s : State) (f v : Nat) : State :=
  let t := v % 64
  if !resetNames s v then s
  else if t = 62 then { s with rst := { s.rst with soft := some (s.rst.soft.getD false) } }
  else if t = 63 then { s with rst := { s.rst with soft := some true } }
  else planBlock s f t (natO s Obj.rst.blockHold)

/-- 10 ms after the ACK: Moraine is mirrored and the software source is asserted and ends (R360, R380). -/
def execSoftResetDelay (s : State) : Ans :=
  match s.rst.soft with
  | none => .next s
  | some cold => done (endSource (assertSource (mirrorMoraine s) 3 cold) 3)

/-! ## Power domains (R357 to R359) -/

/-- A power target changes at its frame: OFF loses the domain's contents, leaving OFF wakes and clears (R357, R359). -/
def applyPower (s : State) (d : Nat) (v : Int) : State :=
  let was := getO s (Obj.pwr.state d)
  let s := setO s (Obj.pwr.target d) v
  if v = was then s
  else if v = 0 ∧ was = 2 then setO s (Obj.pwr.state d) 3
  else
    let s := setO s (Obj.pwr.state d) v
    if v = 2 ∧ d < 16 then
      (List.range 8).foldl (fun s i => setCell s (8 * d + i) Cell.zero)
        { s with bus := { s.bus with cluster := s.bus.cluster.filter (fun e => e.1 / 262144 != d) } }
    else if v = 2 ∧ d = 16 then haltCatch { s with array := { s.array with lookback := [] } }
    else s

/-- A woken domain is clear: ON, event 15, CLEARS; a woken Catchment holds a zeroed steering table and restarts (R359). -/
def execDomainWakeDone (domain : Fin 19) (s : State) : Ans :=
  let d := domain.val
  if getO s (Obj.pwr.state d) ≠ 3 then .next s
  else
    let s := raise (bumpO (setO s (Obj.pwr.state d) 0) Obj.pwr.clears) 15 noDetail
    if d < 16 then done (restartCluster s d)
    else if d = 16 then
      let s := (List.range 256).foldl (fun s b => setB s (Obj.beam.steer b) (List.replicate 49152 0)) s
      done (releaseCatch s (s.frame + 1))
    else done s

/-! ## RTC (R343) -/

/-- The RTC is set from the selected PTP instance. -/
def execRtcSync (s : State) : Ans :=
  match selectedEntry s with
  | some e =>
    if e < 2 ∧ 2 ≤ stageOf s then done { s with rst := { s.rst with rtc := (3 * ptpTime s e / 65536).toNat } } else .next s
  | none => .next s

end Sys2Proof.Machine
end

