-- ==== Sys2Proof/Machine/Bus.lean ====
section
/-! DEFINITION. The bus matrix: memory map, windows and remap (R389, R390), regions (R392), error responses (R386), ECC and
scrubbing (R393, R394), HBM temperature (R395), host DMA (R396) and firmware images (R397 to R399). -/

namespace Sys2Proof.Machine

/-! ## The memory map (Table 16.4) -/

/-- What an address names: an area and an offset in it. -/
inductive Area where
  | rom
  | sram
  | cluster
  | cells
  | regs
  | otp
  | aon
  | qspi
  | hbm
  deriving DecidableEq, Repr

/-- Target code of an area (Table 16.2); the boot ROM shares the code of the SRAM it trades windows with (DEDUCED, log entry 38). -/
def Area.target : Area → Nat
  | .rom => 1
  | .sram => 1
  | .cluster => 2
  | .cells => 2
  | .regs => 3
  | .otp => 4
  | .aon => 6
  | .qspi => 5
  | .hbm => 0

/-- Fixed rows of the map: first address, the one after the last, address of offset 0, area. The windows of the shared SRAM and of the
cluster memories overlap in Table 16.4; which of them answers there is a free value (log entry 15). -/
def mapRows : List (Nat × Nat × Nat × Area) :=
  let border := if Config.overlapSram then 0x2800000 else 0x2000000
  [(0x1000000, border, 0x1000000, .sram), (border, 0x3000000, 0x2000000, .cluster), (0x3000000, 0x4000000, 0x3000000, .cells),
    (0x8000000, 0xC000000, 0x8000000, .regs), (0xC000000, 0xC002000, 0xC000000, .otp), (0xD000000, 0xD500000, 0xD000000, .aon),
    (0x10000000, 0x30000000, 0x10000000, .qspi), (0x800000000, 0xE00000000, 0x800000000, .hbm)]

/-- The row that holds a whole access: area, offset (R389, R390). -/
def mapOf (s : State) (addr len : Nat) : Option (Area × Nat) :=
  let remap := getO s Obj.bus.bootRemap == 1
  if addr + len ≤ 0x10000 then some (if remap then .sram else .rom, addr)
  else if 0x10000 ≤ addr ∧ addr + len ≤ 0x20000 then some (if remap then .rom else .sram, addr - 0x10000)
  else (mapRows.find? (fun r => decide (r.1 ≤ addr) && decide (addr + len ≤ r.2.1))).map (fun r => (r.2.2.2, addr - r.2.2.1))

/-! ## Bytes behind the map -/

/-- Byte of a 32-bit word in memory (R8). -/
def wordByte (w : Word) (i : Nat) : Byte := BitVec.ofNat 8 (w.toNat / 256 ^ i)

/-- A word with one byte replaced. -/
def putByte (w : Word) (i : Nat) (b : Byte) : Word :=
  BitVec.ofNat 32 (w.toNat - (wordByte w i).toNat * 256 ^ i + b.toNat * 256 ^ i)

/-- The weight buffer an HBM address lies in: beam, buffer, offset (R193). -/
def bufferAt (s : State) (a : Nat) : Option (Nat × Nat × Nat) :=
  (s.array.buffers.find? (fun e =>
    let base := natO s (Obj.beam.bufferBase (e.1 / 2) (e.1 % 2))
    base != 0 && decide (base ≤ a) && decide (a < base + 524288))).map
      (fun e => (e.1 / 2, e.1 % 2, a - natO s (Obj.beam.bufferBase (e.1 / 2) (e.1 % 2))))

/-- A byte of the look-back ring at an offset (R167). -/
def lookbackByte (s : State) (off : Nat) : Byte :=
  let slots := slotsOf (groupList (natO s Obj.chan.groupEnable))
  let slab := slots.length * 384
  if slab = 0 then 0
  else
    match s.array.lookback.find? (fun x => x.m % natO s Obj.chan.lookbackLength == off / slab) with
    | none => 0
    | some x =>
      let r := off % slab
      let z := (Sparse.get (fun _ => []) x.vals (slots.getD (r / 384) 0)).getD (r % 384 / 3) (0, 0)
      (subWord z).getD (r % 3) 0

/-- Words of a ring, and where it lies in HBM or in its cluster's memory: no field gives its address. (DESIGN CHOICE, log entry 124.) -/
def ringLength (s : State) (d : Nat) : Nat := natO s (Obj.eddy.length d) * natO s (Obj.eddy.channels d)
def ringBytesBase (s : State) (d : Nat) : Nat := hbmPlace 5 (d + 4096 * natO s (Obj.eddy.length d)) (4 * ringLength s d)
def ringWordBase (s : State) (d : Nat) : Nat :=
  Config.hbmBase 4 (d + 4096 * natO s (Obj.eddy.length d)) % (262145 - min 262144 (ringLength s d))

/-- The sample time, as the index written last, and the channel that word `w` of a ring holds: index i lies at i modulo LENGTH. -/
def ringPlace (s : State) (d w : Nat) : Option (Nat × Nat) :=
  let ch := natO s (Obj.eddy.channels d)
  let len := natO s (Obj.eddy.length d)
  let back := (natO s (Obj.eddy.writeCount d) + len - 1 - w / ch % len) % len
  if ch = 0 ∨ len = 0 ∨ natO s (Obj.eddy.writeCount d) ≤ back then none
  else some (natO s (Obj.eddy.writeCount d) - 1 - back, w % ch)

/-- The descriptor and word of the ring that holds a word of cluster memory, or a byte of HBM. -/
def ringInCluster (s : State) (cl w : Nat) : Option (Nat × Nat) :=
  ((eddyIds s).find? (fun d => getO s (Obj.eddy.state d) != 0 && getO s (Obj.eddy.location d) == 0
    && natO s (Obj.eddy.homeCluster d) == cl && decide (ringWordBase s d ≤ w) && decide (w < ringWordBase s d + ringLength s d))).map
    (fun d => (d, w - ringWordBase s d))

def ringInHbm (s : State) (a : Nat) : Option (Nat × Nat) :=
  ((eddyIds s).find? (fun d => getO s (Obj.eddy.state d) != 0 && getO s (Obj.eddy.location d) == 1
    && decide (ringBytesBase s d ≤ a) && decide (a < ringBytesBase s d + 4 * ringLength s d))).map
    (fun d => (d, (a - ringBytesBase s d) / 4))

def ringGet (s : State) (r : Nat × Nat) : Word :=
  match ringPlace s r.1 r.2 with
  | some (i, c) => eddySample s r.1 (eddyOf s r.1) i c
  | none => 0

/-- A word of a ring that holds no data keeps nothing (R101). -/
def ringPut (s : State) (r : Nat × Nat) (w : Word) : State :=
  match ringPlace s r.1 r.2 with
  | some (i, c) =>
    let e := eddyOf s r.1
    if i < eddyOldest s r.1 then s
    else setEddy s r.1 { e with samples := Sparse.put (fun _ => 0) e.samples (i * natO s (Obj.eddy.channels r.1) + c) w }
  | none => s

/-- A word of cluster memory as the bus finds it: a ring's, or a plain one. -/
def clusterWord (s : State) (cl w : Nat) : Word :=
  match ringInCluster s cl w with
  | some r => ringGet s r
  | none => clusterGet s cl w

def putClusterWord (s : State) (cl w : Nat) (x : Word) : State :=
  match ringInCluster s cl w with
  | some r => ringPut s r x
  | none => clusterPut s cl w x

/-- An area of HBM with a base object: it holds an address. -/
def areaHas (s : State) (base bytes a : Nat) : Bool := natO s base != 0 && decide (natO s base ≤ a) && decide (a < natO s base + bytes)

def lookbackBytes (s : State) : Nat := natO s Obj.chan.lookbackLength * natO s Obj.chan.activeElements * 384

/-- Every snapshot slot allocated: address, bytes, contents. -/
def slotAreas (s : State) : List (Nat × Nat × Snapshot) :=
  s.array.corr.areas.flatMap (fun a => [(a.base0, a.bytes, a.snaps.getD 0 Snapshot.none), (a.base1, a.bytes, a.snaps.getD 1 Snapshot.none)])

/-- A byte of HBM at a map address. The corner turn's layout is not stated: free. (DESIGN CHOICE, log entry 52.) -/
def hbmByte (s : State) (a : Nat) : Byte :=
  match (slotAreas s).find? (fun x => decide (x.1 ≤ a) && decide (a < x.1 + x.2.1)) with
  | some x => slotByte x.2.2 (a - x.1)
  | none =>
    match bufferAt s a with
    | some (b, k, off) => (bufferOf s b k).getD off 0
    | none =>
      if areaHas s Obj.chan.lookbackBase (lookbackBytes s) a then lookbackByte s (a - natO s Obj.chan.lookbackBase)
      else if areaHas s Obj.corr.cornerBase (natO s Obj.corr.cornerBytes) a then BitVec.ofNat 8 (Config.free (s.fresh + a))
      else match ringInHbm s a with
        | some r => wordByte (ringGet s r) (a % 4)
        | none => byteGet s.bus.hbm a

/-- A byte of an area at an offset; registers outside the Drift windows are not described: free. -/
def areaByte (s : State) (area : Area) (off : Nat) : Byte :=
  match area with
  | .rom => Config.bootRom off
  | .sram => byteGet s.bus.sram off
  | .cluster => wordByte (clusterWord s (off / 1048576) (off % 1048576 / 4)) (off % 4)
  | .cells => wordByte (memGet (cellOf s (off / 131072)) (off % 131072 / 4)) (off % 4)
  | .regs => BitVec.ofNat 8 (Config.free (s.fresh + off))
  | .otp => byteGet s.bus.otp off
  | .aon => byteGet s.bus.aon off
  | .qspi => byteGet s.bus.flash off
  | .hbm => hbmByte s (0x800000000 + off)

/-- A byte is written; the boot ROM, registers, OTP and flash window take nothing from the bus. (DEDUCED, log entry 49.) -/
def areaPut (s : State) (area : Area) (off : Nat) (v : Byte) : State :=
  match area with
  | .sram => { s with bus := { s.bus with sram := Sparse.put (fun _ => 0) s.bus.sram off v } }
  | .cluster =>
    let c := off / 1048576
    let w := off % 1048576 / 4
    putClusterWord s c w (putByte (clusterWord s c w) (off % 4) v)
  | .cells =>
    let c := off / 131072
    let w := off % 131072 / 4
    setCell s c (memPut (cellOf s c) w (putByte (memGet (cellOf s c) w) (off % 4) v))
  | .aon => { s with bus := { s.bus with aon := Sparse.put (fun _ => 0) s.bus.aon off v } }
  | .hbm =>
    match bufferAt s (0x800000000 + off) with
    | some (b, k, o) => setBuffer s b k ((bufferOf s b k).set o v)
    | none => match ringInHbm s (0x800000000 + off) with
      | some r => ringPut s r (putByte (ringGet s r) (off % 4) v)
      | none => { s with bus := { s.bus with hbm := Sparse.put (fun _ => 0) s.bus.hbm (0x800000000 + off) v } }
  | .rom => s
  | .regs => s
  | .otp => s
  | .qspi => s

def areaPutMany (s : State) (area : Area) (off : Nat) : List Byte → State
  | [] => s
  | b :: r => areaPutMany (areaPut s area off b) area (off + 1) r

/-! ## Regions (R392) -/

/-- Element of a region register. -/
def regionNo (master target r : Nat) : Nat := master * 128 + target * 16 + r

/-- Areas of HBM that the ledger holds, weight buffers apart: base and bytes. Areas without a base object lie where
hbmPlace says. -/
def ledgerAreas (s : State) : List (Nat × Nat) :=
  (slotAreas s).map (fun x => (x.1, x.2.1)) ++ [(natO s Obj.corr.cornerBase, natO s Obj.corr.cornerBytes), (natO s Obj.chan.lookbackBase, lookbackBytes s),
    (hbmPlace 6 0 50331648, 50331648), (hbmPlace 7 0 83886080, 83886080)]
  ++ ((eddyIds s).filter (fun d => getO s (Obj.eddy.state d) != 0 && getO s (Obj.eddy.location d) == 1)).map
      (fun d => (ringBytesBase s d, 4 * ringLength s d))

/-- A region may keep its write right: within HBM and over no ledger area but weight buffers. -/
def writable (s : State) (base size : Nat) : Bool :=
  decide (0x800000000 ≤ base) && decide (base + size ≤ 0xE00000000)
    && !(ledgerAreas s).any (fun a => a.2 != 0 && decide (a.1 < base + size) && decide (base < a.1 + a.2))

/-- Host DMA channels lose the write right of regions under which the ledger has allocated memory. -/
def trimRegions (s : State) : State :=
  (List.range 8).foldl
    (fun s c => (List.range 16).foldl
      (fun s r =>
        let n := regionNo (5 + c) 0 r
        if natO s (Obj.reg.size n) ≠ 0 ∧ 2 ≤ natO s (Obj.reg.rights n) ∧ !writable s (natO s (Obj.reg.base n)) (natO s (Obj.reg.size n))
        then setO s (Obj.reg.rights n) (getO s (Obj.reg.rights n) - 2) else s) s) s

/-- Base and size of a whole target, for the regions the manual fixes. -/
def targetSpan (t : Nat) : Nat × Nat :=
  match t with
  | 0 => (0x800000000, 25769803776)
  | 1 => (0x1000000, 25165824)
  | 2 => (0x2000000, 33554432)
  | 3 => (0x8000000, 67108864)
  | 4 => (0xC000000, 8192)
  | 5 => (0x10000000, 536870912)
  | _ => (0xD000000, 5242880)

/-- BASE, SIZE and RIGHTS of a region as it reads: CONST for CC0 to CC3, SC and SVC; as the firmware sets it for BRX, NDMA
and CATDMA, presumed to be the whole target (PRESUMED, log entry 39); the object for DMA0 to DMA7. -/
def regionOf (s : State) (n : Nat) : Nat × Nat × Nat :=
  let m := n / 128
  let t := n / 16 % 8
  let r := n % 16
  let whole (rights : Nat) : Nat × Nat × Nat := ((targetSpan t).1, (targetSpan t).2, rights)
  if 7 ≤ t then (0, 0, 0)
  else if m ≤ 4 then (if r = 0 then whole 3 else (0, 0, 0))
  else if m = 16 then (if r = 0 then whole 1 else if r = 1 ∧ t = 3 then whole 2 else (0, 0, 0))
  else if 13 ≤ m then (if r = 0 then whole 3 else (0, 0, 0))
  else (natO s (Obj.reg.base n), natO s (Obj.reg.size n), natO s (Obj.reg.rights n))

/-- CATDMA reaches only the Catchment areas of HBM (R396). -/
def catchArea (s : State) (addr len : Nat) : Bool :=
  let within (b n : Nat) : Bool := b != 0 && decide (b ≤ addr) && decide (addr + len ≤ b + n)
  (slotAreas s).any (fun x => within x.1 x.2.1)
    || within (natO s Obj.corr.cornerBase) (natO s Obj.corr.cornerBytes) || within (natO s Obj.chan.lookbackBase) (lookbackBytes s)
    || s.array.buffers.any (fun e => within (natO s (Obj.beam.bufferBase (e.1 / 2) (e.1 % 2))) 524288)

/-- Some region of the master permits the access. A window of the low map counts as its target. -/
def permits (s : State) (master target addr len : Nat) (write : Bool) : Bool :=
  if master ≤ 4 then true
  else if master = 15 then catchArea s addr len
  else if addr < 0x20000 then (master == 16 && !write) || master == 13 || master == 14
  else (List.range 16).any fun r =>
    let (b, n, rights) := regionOf s (regionNo master target r)
    n != 0 && decide (b ≤ addr) && decide (addr + len ≤ b + n) && (if write then rights / 2 % 2 == 1 else rights % 2 == 1)

/-! ## Transactions (R385, R386, R394) -/

/-- How a transaction ends (Table 16.3). -/
inductive BusResp where
  | okay
  | busError
  | region
  | timeout
  | isoErr
  | ecc
  deriving DecidableEq, Repr

def BusResp.name : BusResp → String
  | .okay => "OKAY"
  | .busError => "BUS_ERROR"
  | .region => "REGION"
  | .timeout => "TIMEOUT"
  | .isoErr => "ISO_ERR"
  | .ecc => "ECC"

/-- Raise an event and count the raising at an object: once per frame (R361, R400). -/
def raiseCounted (s : State) (n d k : Nat) : State :=
  let seen := s.ev.now.any (fun r => r.event == n && r.frame == s.frame)
  raise (if seen then s else bumpO s k) n d

/-- The block a target address lies in, behind its wrapper; none elsewhere. -/
def blockAt (area : Area) (off : Nat) : Option Nat :=
  match area with
  | .cluster => some (off / 1048576)
  | .cells => some (off / 131072 / 8)
  | .regs => some 25
  | _ => none

/-- The power domain of an area. -/
def domainAt (area : Area) (off : Nat) : Option Nat :=
  match area with
  | .cluster => some (off / 1048576)
  | .cells => some (off / 131072 / 8)
  | .hbm => some 18
  | _ => none

/-- The wrapper answers: the block is in reset, or the domain not ON (R345, R357). -/
def wrapperShut (s : State) (area : Area) (off : Nat) : Bool :=
  (blockAt area off).any (fun b => inReset s b) || (domainAt area off).any (fun d => getO s (Obj.pwr.state d) != 0)

/-- DETAIL of an ECC error: block code, 32 + HBM pseudo-channel, 64 shared SRAM, 65 backup SRAM (R394). Which pseudo-channel
an address lies in is not stated: free. -/
def eccDetail (s : State) (area : Area) (off : Nat) : Option (Nat × State) :=
  match area with
  | .sram => some (64, s)
  | .aon => some (65, s)
  | .cluster => some (off / 1048576, s)
  | .cells => some (off / 131072 / 8, s)
  | .hbm => let (v, s) := drawFree s; some (32 + v % 32, s)
  | _ => none

/-- An uncorrectable error strikes (R394): event 225 and the handling of its row, the safety core's reset for a block. -/
def eccStrike (s : State) (d : Nat) (inj : Bool) : State :=
  let s := bumpO s Obj.health.eccUncorrectable
  let s := raiseFull s s.frame 225 d inj false
  if d ≤ 16 then safetyReset s d else s

/-- A word of the backup SRAM turns to zeros: a journal entry that holds it fails its CRC. Which entry, if any, is open. -/
def spoilJournal (s : State) : State :=
  let n := s.ctl.journal.length
  if n = 0 then s
  else
    let (v, s) := drawFree s
    let hit (i : Nat) (e : JEntry) : JEntry := if i = v % (n + 1) then { e with bad := true } else e
    { s with ctl := { s.ctl with journal := ((List.range n).zip s.ctl.journal).map (fun e => hit e.1 e.2) } }

/-- A Drift window the address names. -/
def driftWindow (area : Area) (off : Nat) : Option Nat :=
  if area = .regs ∧ 0x4000 ≤ off ∧ off < 0x4200 ∧ off % 32 = 0 then some ((off - 0x4000) / 32) else none

/-- A cluster's count of corrected errors (Table 4.12), for an area code of a scrubber's pass: 0 to 15 its cluster. -/
def eccCounted (s : State) (d n : Nat) : State :=
  let s := addO s Obj.health.eccCorrected n
  if d < 16 then addO s (Obj.clus.eccCorrected d) n else s

/-- A single-bit error is corrected in the read that finds it (R67, R393); `d` is the DETAIL of event 225 for the place. -/
def eccFixed (s : State) (d : Nat) : State := raise (eccCounted s d 1) 224 noDetail

/-- The read of a word with an uncorrectable error (R386, R394): ECC, and the word becomes zeros. (DESIGN CHOICE, log entry 50.) -/
def eccRead (s : State) (area : Area) (off d : Nat) : State :=
  let s := eccStrike s d false
  let s := areaPutMany s area (off / 4 * 4) [0, 0, 0, 0]
  if area = .aon then spoilJournal s else s

/-- One access: response, data read, state (R385, R386). -/
def busAccess (s : State) (master addr len : Nat) (wr : Option (List Byte)) (ecc : EccHit) : BusResp × List Byte × State :=
  match mapOf s addr len with
  | none => (.busError, [], raiseCounted s 227 master Obj.bus.busErrors)
  | some (area, off) =>
    if !permits s master area.target addr len wr.isSome then
      let s := bumpO s (Obj.reg.violations (regionNo master area.target 0))
      (.region, [], raiseCounted s 226 (master * 256 + area.target) Obj.bus.violations)
    else if wrapperShut s area off then (.isoErr, [], match blockAt area off with
      | some b => isoError s b
      | none => s)
    else
      match wr with
      | some d => (.okay, [], areaPutMany s area off d)
      | none =>
        match driftWindow area off with
        | some q =>
          match popWindow s q len with
          | (some b, s) => (.okay, b, s)
          | (none, s) => (.busError, [], raiseCounted s 227 master Obj.bus.busErrors)
        | none =>
          let bytes := (List.range len).map (fun i => areaByte s area (off + i))
          match ecc, eccDetail s area off with
          | .double, some (d, s) => (.ecc, [], eccRead s area off d)
          | .corrected, some (d, s) => (.okay, bytes, eccFixed s d)
          | _, _ => (.okay, bytes, s)

/-- The cell whose running schedule keeps a permitted access to its operand memory waiting (R69). -/
def busyFor (s : State) (master addr len : Nat) (write : Bool) : Option Nat :=
  match mapOf s addr len with
  | some (.cells, off) =>
    if !permits s master Area.cells.target addr len write then none
    else [off / 131072, (off + len - 1) / 131072].find? (cellBusy s)
  | _ => none

/-- Traffic waits for the end of a cell's schedule. -/
def putLate (s : State) (cell : Nat) (x : LateTraffic) : State := { s with bus := { s.bus with late := s.bus.late ++ [(cell, x)] } }

/-- A transaction of a master runs to its response, at operand memory of a cell in its schedule once that has ended. -/
def runTransaction (s : State) (t : BusTx) : State :=
  let len := t.readLen.getD t.data.length
  let wr := if t.readLen.isSome then none else some t.data
  match busyFor s t.master t.address.toNat len wr.isSome with
  | some c => putLate s c (.transaction t)
  | none =>
    let r := busAccess s t.master t.address.toNat len wr t.ecc
    emit r.2.2 (.bus t.master t.id.toNat r.1.name r.2.1)

def execBusTransaction (t : BusTx) (s : State) : Ans :=
  done (runTransaction (setO s Obj.bus.outstandingMax (max (getO s Obj.bus.outstandingMax) 1)) t)

/-- No response in 50 µs, or 500 µs at the configuration port (R386). -/
def execBusResponseTimeout (master : Fin 17) (id : BitVec 8) (address : BitVec 48) (s : State) : Ans :=
  match mapOf s address.toNat 1 with
  | none => .next s
  | some (area, _) =>
    let s := raiseCounted s 228 (master.val * 256 + area.target) Obj.bus.timeouts
    done (emit s (.bus master id.toNat BusResp.timeout.name []))

/-- A read of the Drift pop window of a queue, by a control core (R389). -/
def execDriftPop (queue : Fin 16) (size : Nat) (s : State) : Ans :=
  match popWindow s queue size with
  | (some b, s) => done (emit s (.bus 0 0 BusResp.okay.name b))
  | (none, s) => done (emit (raiseCounted s 227 0 Obj.bus.busErrors) (.bus 0 0 BusResp.busError.name []))

/-! ## Loads from operand memory (R67, R75) -/

/-- The words a load reads are checked: one bit is corrected; two bits leave the word at the address open, and the safety core resets
the cluster (R394). -/
def loadChecked (s : State) (cell addr : Nat) (ecc : EccHit) : State :=
  match ecc with
  | .clean => s
  | .corrected => eccFixed s (cell / 8)
  | .double =>
    let (v, s) := drawFree s
    eccStrike (setCell s cell (memPut (cellOf s cell) addr (BitVec.ofNat 32 v))) (cell / 8) false

/-- A load of a slot at a cell that executes: the check of the address it uses, then the load. -/
def slotLoad (s : State) (cell : Nat) (slot : SlotId) (ap : Fin 8) (am : Fin 4) (unit : Int) (ecc : EccHit) (f : Cell → Cell) : State :=
  if !cellExec s cell then s
  else
    let a := (slotStep (cellOf s cell) slot ap am unit).1
    slotOp (loadChecked s cell (if unit = 8 then vecBase a else a) ecc) cell f

def execLdv (cell : Fin 128) (slot : SlotId) (ap : Fin 8) (am : Fin 4) (dst : LoadDest) (s : State) : Ans :=
  .next (slotLoad s cell slot ap am 8 dst.ecc (cellLdv slot ap am dst.reg))
def execLdb (cell : Fin 128) (slot : SlotId) (ap : Fin 8) (am : Fin 4) (dst : LoadDest) (s : State) : Ans :=
  .next (slotLoad s cell slot ap am 1 dst.ecc (cellLdb slot ap am dst.reg))
def execLdp (cell : Fin 128) (slot : SlotId) (ap : Fin 8) (am : Fin 4) (kind : LdpKind) (dst : LoadDest) (s : State) : Ans :=
  .next (slotLoad s cell slot ap am 1 dst.ecc (cellLdp slot ap am kind dst.reg))

/-! ## Scrubbing and temperature (R322, R393, R395) -/

/-- A scrubber completes a pass; each error it corrects is named by the DETAIL code of its place, and raises event 224. A standby in
step counts its passes. -/
def execScrubPass (hbm : Bool) (corrected : List Nat) (s : State) : Ans :=
  let s := bumpO s (if hbm then Obj.bus.hbmScrubs else Obj.bus.sramScrubs)
  let s := if getO s Obj.pair.state = 4 then bumpO (bumpO s Obj.pair.scrubPasses) Obj.health.scrubPasses else s
  done (corrected.foldl eccFixed s)

def execHbmTempHigh (s : State) : Ans := done (raiseLasting (setO s Obj.bus.hbmThrottled 1) 234 noDetail)

def execHbmTempNormal (s : State) : Ans := done (clearCondition (setO s Obj.bus.hbmThrottled 0) 234)

/-! ## Host DMA (R396) -/

/-- Bus master of a DMA channel: channels 1 to 8 are DMA0 to DMA7, channel 9 CATDMA. -/
def dmaMaster (c : Nat) : Nat := if c = 9 then 15 else c + 4

/-- Slot of the tag on a datagram the engine sends: that of the owner's session, as R56 has it. -/
def dmaTag (s : State) : Option Nat :=
  let v := session s (natO s Obj.own.ownerSession)
  match getO s Obj.own.authMode with
  | 0 => none
  | 2 => some v.keySlot
  | _ => if v.tagged then some v.keySlot else none

/-- A datagram of a transfer (Table 16.10). -/
def dmaBytes (s : State) (c seq off : Nat) (last : Bool) (data : List Byte) : List Byte :=
  let tag := dmaTag s
  let flags := (if last then 1 else 0) + (if tag.isSome then 2 else 0)
  let b := [0x44, 0x4D, 0x01] ++ natBE c 1 ++ natBE seq 4 ++ natBE off 8 ++ natBE data.length 2 ++ natBE flags 2
    ++ [0x00, 0x00, 0x00, 0x00] ++ data
  match tag with
  | none => b
  | some k => b ++ (hmacSha256 (authKey s k) b).take 16

/-- Internal port of a DMA interface: that of CTL0 or of a path. -/
def dmaPort (s : State) (c : Nat) : Nat := [7, 5, 6].getD (natO s (Obj.dma.interface c)) 7

/-- Send `n` more datagrams from sequence number seq on; a refused access ends the transfer with STATE 3. -/
def dmaSend (s : State) (c seq : Nat) : Nat → State
  | 0 => s
  | n + 1 =>
    let len := natO s (Obj.dma.length c)
    let off := 1408 * seq
    let size := min 1408 (len - off)
    match busAccess s (dmaMaster c) (natO s (Obj.dma.address c) + off) size none .clean with
    | (.okay, b, s) =>
      let s := emit s (.eth (dmaPort s c) "dma" [getO s (Obj.dma.hostAddress c), getO s (Obj.dma.hostPort c), ((gultinPort s + 1 : Nat) : Int)]
        (dmaBytes s c seq off (decide (len ≤ off + size)) b))
      dmaSend (setO s (Obj.dma.doneBytes c) (off + size : Nat)) c (seq + 1) n
    | (_, _, s) => setO s (Obj.dma.state c) 3

/-- All datagrams of a memory-to-host transfer, once no schedule runs at a cell of the range (R69). -/
def dmaRun (s : State) (c : Nat) : State :=
  let len := natO s (Obj.dma.length c)
  let at0 := natO s (Obj.dma.address c)
  let cells := match mapOf s at0 1 with
    | some (.cells, off) => ((List.range 128).map (off / 131072 + ·)).takeWhile (fun n => decide (n * 131072 < off + len))
    | _ => []
  match cells.find? (cellBusy s) with
  | some n => if len = 0 then s else putLate s n (.channel c)
  | none => dmaSend s c 0 ((len + 1407) / 1408)

/-- START is written 1: memory to host sends the range, host to memory arms the channel. (DEDUCED, log entry 51.) -/
def dmaStart (s : State) (c : Nat) : State :=
  let s := setMany s [(Obj.dma.state c, 1), (Obj.dma.doneBytes c, 0)]
  let s := { s with bus := { s.bus with dmaDone := s.bus.dmaDone.filter (·.1 != c) } }
  let len := natO s (Obj.dma.length c)
  if getO s (Obj.dma.direction c) = 0 then dmaRun s c
  else if len = 0 then setO s (Obj.dma.state c) 2
  else s

/-- The last datagram of a memory-to-host transfer has left: complete. -/
def execDmaTransferDone (channel : Fin 9) (s : State) : Ans :=
  let c := channel.val + 1
  done (if getO s (Obj.dma.state c) = 1 ∧ getO s (Obj.dma.direction c) = 0 then setO s (Obj.dma.state c) 2 else s)

/-- Offsets of a datagram that no earlier one has written. -/
def dmaFresh (s : State) (c off len : Nat) : List Nat :=
  ((List.range len).map (fun i => off + i)).filter
    (fun a => !s.bus.dmaDone.any (fun d => d.1 == c && decide (d.2.1 ≤ a) && decide (a < d.2.2)))

/-- The tag of a datagram is as AUTH_MODE asks (R56): with mode 0 it is not looked at. -/
def dmaTagOk (s : State) (auth : Bool) (b : List Byte) : Bool :=
  let body := b.take (b.length - 16)
  let good := (hmacSha256 (authKey s (session s (natO s Obj.own.ownerSession)).keySlot) body).take 16 == b.drop (b.length - 16)
  match getO s Obj.own.authMode with
  | 0 => true
  | 2 => auth && good
  | _ => !auth || good

/-- A datagram passes every check of Table 16.10 and R396 for channel c. -/
def dmaGood (s : State) (c srcAddr srcPort : Nat) (b : List Byte) : Bool :=
  let flags := fieldAt b 18 2
  let auth := flags / 2 % 2 == 1
  let len := fieldAt b 16 2
  let off := fieldAt b 8 8
  fieldAt b 0 2 == 0x444D && fieldAt b 2 1 == 1 && decide (flags < 4) && fieldAt b 20 4 == 0 && decide (1 ≤ len ∧ len ≤ 1408)
    && b.length == 24 + len + (if auth then 16 else 0) && getO s (Obj.dma.state c) == 1 && getO s (Obj.dma.direction c) == 1
    && natO s (Obj.dma.hostAddress c) == srcAddr && natO s (Obj.dma.hostPort c) == srcPort
    && decide (off + len ≤ natO s (Obj.dma.length c)) && dmaTagOk s auth b

/-- Write the fresh bytes of a datagram one by one; the first refused access ends the transfer with STATE 3. -/
def dmaWrite (s : State) (c off : Nat) (data : List Byte) : List Nat → State
  | [] => s
  | a :: r =>
    match busAccess s (dmaMaster c) (natO s (Obj.dma.address c) + a) 1 (some [data.getD (a - off) 0]) .clean with
    | (.okay, _, s) =>
      let s := bumpO s (Obj.dma.doneBytes c)
      dmaWrite { s with bus := { s.bus with dmaDone := (c, a, a + 1) :: s.bus.dmaDone } } c off data r
    | (_, _, s) => setO s (Obj.dma.state c) 3

/-- Neighbouring written intervals of a channel become one. -/
def dmaMerge (s : State) (c off len : Nat) : State :=
  let mine := s.bus.dmaDone.filter (fun d => d.1 == c && !(decide (off ≤ d.2.1) && decide (d.2.2 ≤ off + len)))
  { s with bus := { s.bus with dmaDone := s.bus.dmaDone.filter (·.1 != c) ++ mine ++ [(c, off, off + len)] } }

/-- A datagram at port GULTIN_PORT + 1; one for operand memory of a cell in its schedule waits (R69). -/
def takeDatagram (s : State) (srcAddr srcPort : Nat) (bytes : List Byte) : State :=
  let c := fieldAt bytes 3 1
  if bytes.length < 24 ∨ c = 0 ∨ 9 < c ∨ stageOf s < 2 then s
  else if !dmaGood s c srcAddr srcPort bytes then bumpO s (Obj.dma.dropped c)
  else
    let off := fieldAt bytes 8 8
    let len := fieldAt bytes 16 2
    match busyFor s (dmaMaster c) (natO s (Obj.dma.address c) + off) len true with
    | some n => putLate s n (.datagram srcAddr srcPort bytes)
    | none =>
      let s := dmaWrite s c off (bytes.drop 24) (dmaFresh s c off len)
      if getO s (Obj.dma.state c) ≠ 1 then s
      else
        let s := dmaMerge s c off len
        if natO s (Obj.dma.doneBytes c) = natO s (Obj.dma.length c) then setO s (Obj.dma.state c) 2 else s

def execDmaDatagram (srcAddr srcPort : Nat) (bytes : List Byte) (s : State) : Ans := done (takeDatagram s srcAddr srcPort bytes)

/-! ## Firmware images (R397 to R399) -/

/-- Bytes of an OTP firmware-key slot (Table 16.5). -/
def firmwareKey (s : State) (slot : Nat) : List Byte := bytesGet s.bus.otp (0x600 + 128 * slot) 96

/-- An image is no longer verified. -/
def unverifyImage (s : State) (img : Nat) : State := setO s (Obj.fw.version img) 0

/-- A chunk is written at OFFSET of the target image. -/
def firmwareChunk (s : State) (b : List Byte) : State :=
  let img := natO s Obj.fw.target
  flashPut (unverifyImage s img) (imageBase img + natO s Obj.fw.offset) b

/-- RESULT of verifying an image (Table 16.14). (DEDUCED, log entry 58.) -/
def firmwareResult (s : State) (img : Nat) : Nat :=
  let len := natO s Obj.fw.length
  let b := bytesGet s.bus.flash (imageBase img) len
  let k := firmwareKey s ((b.getD 12 0).toNat)
  let sig := b.drop (len - 96)
  if len < 112 ∨ 16777216 < len ∨ leNat (b.take 4) ≠ 0x555A4657 ∨ leNat ((b.drop 8).take 4) ≠ len ∨ 4 ≤ (b.getD 12 0).toNat
      ∨ !((b.drop 13).take 3).all (· == 0) then 1
  else if keySlotEmpty k ∨ !p384Verify (fieldAt k 0 48, fieldAt k 48 48) (fieldAt sig 0 48) (fieldAt sig 48 48) (b.take (len - 96)) then 2
  else if pairBound s ∧ s.pair.partnerMajor ≠ leNat ((b.drop 4).take 4) / 16777216 then 4
  else 0

/-- VERIFY is written: the target image is checked in the background. -/
def beginFwVerify (s : State) : State := { s with bus := { s.bus with fwVerifying := some (natO s Obj.fw.target) } }

def execFwVerifyDone (s : State) : Ans :=
  match s.bus.fwVerifying with
  | none => .next s
  | some img =>
    let r := firmwareResult s img
    let s := setO { s with bus := { s.bus with fwVerifying := none } } Obj.fw.result r
    done (setO s (Obj.fw.version img) (if r = 0 then imageVersion s img else 0 : Nat))

/-- Units a HANDOVER value names (Table 16.14). -/
def handoverNames (s : State) (v : Int) : Bool :=
  if v = 0 then true else if v = 1 then !s.pins.unitB else if v = 2 then s.pins.unitB else true

/-- A hand-over may start (R399). -/
def handoverOk (s : State) : Bool :=
  let other := 1 - natO s Obj.fw.running
  let v := natO s (Obj.fw.version other)
  v != 0 && !(pairBound s && s.pair.partnerMajor != v / 16777216)

/-- A hand-over begins: event 235, and every sequenced request is answered BUSY until it ends. (DEDUCED, log entry 83.) -/
def beginHandover (s : State) (v : Int) : State :=
  if !handoverNames s v then s
  else raise { s with ctl := { s.ctl with handover := true } } 235 noDetail

/-- The new image takes over the state in shared and backup SRAM. -/
def execHandoverDone (s : State) : Ans :=
  if !s.ctl.handover then .next s
  else
    let new := 1 - natO s Obj.fw.running
    let s := setMany s [(Obj.fw.running, new), (Obj.ident.fwVersion, natO s (Obj.fw.version new))]
    done (bumpO { s with ctl := { s.ctl with handover := false } } Obj.fw.handovers)

/-- Not done in 300 ms: RESULT 05h, and the control complex restarts the previous image. -/
def execHandoverTimeout (s : State) : Ans :=
  if !s.ctl.handover then .next s
  else done (planBlock (setO { s with ctl := { s.ctl with handover := false } } Obj.fw.result 5) (s.frame + 1) 25 0)

end Sys2Proof.Machine
end

