-- ==== Sys2Proof/Machine/Jtag.lean ====
section
/-! DEFINITION. Boundary scan: the TAP of IEEE 1149.1 with BYPASS, EXTEST, SAMPLE/PRELOAD and IDCODE (R425). -/

namespace Sys2Proof.Machine

/-- The next state of the TAP controller on a rising edge of JTAG_TCK. -/
def tapNext (t : Tap1149) (tms : Bool) : Tap1149 :=
  match t, tms with
  | .testLogicReset, true => .testLogicReset
  | .testLogicReset, false => .runTestIdle
  | .runTestIdle, true => .selectDr
  | .runTestIdle, false => .runTestIdle
  | .selectDr, true => .selectIr
  | .selectDr, false => .captureDr
  | .captureDr, true => .exit1Dr
  | .captureDr, false => .shiftDr
  | .shiftDr, true => .exit1Dr
  | .shiftDr, false => .shiftDr
  | .exit1Dr, true => .updateDr
  | .exit1Dr, false => .pauseDr
  | .pauseDr, true => .exit2Dr
  | .pauseDr, false => .pauseDr
  | .exit2Dr, true => .updateDr
  | .exit2Dr, false => .shiftDr
  | .updateDr, true => .selectDr
  | .updateDr, false => .runTestIdle
  | .selectIr, true => .testLogicReset
  | .selectIr, false => .captureIr
  | .captureIr, true => .exit1Ir
  | .captureIr, false => .shiftIr
  | .shiftIr, true => .exit1Ir
  | .shiftIr, false => .shiftIr
  | .exit1Ir, true => .updateIr
  | .exit1Ir, false => .pauseIr
  | .pauseIr, true => .exit2Ir
  | .pauseIr, false => .pauseIr
  | .exit2Ir, true => .updateIr
  | .exit2Ir, false => .shiftIr
  | .updateIr, true => .selectDr
  | .updateIr, false => .runTestIdle

/-- The IDCODE, least significant bit first. -/
def idcodeBits : List Bool := (List.range 32).map (fun i => Nat.testBit 0x12048D7F i)

/-- A list brought to a length with zeros. -/
def fitBits (n : Nat) (l : List Bool) : List Bool := (l ++ List.replicate (n - l.length) false).take n

/-- What Capture-DR loads into the selected data register. -/
def captureDr (s : State) : List Bool :=
  match s.jtag.ir with
  | .bypass => [false]
  | .idcode => idcodeBits
  | .extest => fitBits Config.boundaryLength s.pins.boundary
  | .sample => fitBits Config.boundaryLength s.pins.boundary

/-- The instruction a code selects; all ones is BYPASS. -/
def jtagInstr (l : List Bool) : JtagIr :=
  if l.all (fun b => b) then .bypass
  else
    match Config.jtagDecode l % 4 with
    | 1 => .extest
    | 2 => .sample
    | 3 => .idcode
    | _ => .bypass

/-- Shift one bit in at the TDI end; the bit next to TDO leaves. -/
def shiftBit (l : List Bool) (tdi : Bool) : List Bool := l.drop 1 ++ [tdi]

/-- What a state does on the edge that finds the controller in it. -/
def tapAct (s : State) (tdi : Bool) : Jtag :=
  let j := s.jtag
  match j.tap with
  | .testLogicReset => { j with ir := .idcode }
  | .captureDr => { j with dr := captureDr s }
  | .shiftDr => { j with dr := shiftBit j.dr tdi, tdo := j.dr.headD false }
  | .captureIr => { j with irShift := fitBits Config.jtagIrLength [true, false] }
  | .shiftIr => { j with irShift := shiftBit j.irShift tdi, tdo := j.irShift.headD false }
  | _ => j

/-- What entering a state does: Update-DR latches the boundary cells, Update-IR the instruction. -/
def tapEnter (j : Jtag) (t : Tap1149) : Jtag :=
  match t with
  | .updateDr => if j.ir = .extest ∨ j.ir = .sample then { j with tap := t, latched := j.dr } else { j with tap := t }
  | .updateIr => { j with tap := t, ir := jtagInstr j.irShift }
  | .testLogicReset => { j with tap := t, ir := .idcode }
  | _ => { j with tap := t }

/-- One rising edge of JTAG_TCK; JTAG_TRST_N low holds Test-Logic-Reset. -/
def execJtagTck (tms tdi trstN : Bool) (s : State) : Ans :=
  if !trstN then .next { s with jtag := { s.jtag with tap := .testLogicReset, ir := .idcode } }
  else .next { s with jtag := tapEnter (tapAct s tdi) (tapNext s.jtag.tap tms) }

end Sys2Proof.Machine
end

