-- ==== Sys2Proof/Machine/Live.lean ====
section
/-! DEFINITION. What a READ finds: objects whose value follows from other state, the bytes of BLOB and STR objects, the reads
a home chapter refuses, and the block an object belongs to (R34, R43, R55, Table 2.18). -/

namespace Sys2Proof.Machine

/-! ## Blocks of objects (R55, Table 2.18) -/

/-- The block an object belongs to, by code of Table 14.6. -/
def blockOfKey (s : State) (k : Nat) : Option Nat :=
  let i := keyIndex k
  let e := keyElem k
  let sub := keySub k
  if 0x6000 ≤ i ∧ i ≤ 0x9FFF then
    (s.prog.running.bind (fun im => imageDecl im i e sub)).map (fun d => (d.place e).1 / 8)
  else
    match i with
    | 0x4100 => if getO s (Obj.eddy.state e) = 0 then none else some (natO s (Obj.eddy.homeCluster e))
    | 0x4010 => if sub = 1 then none else some e
    | 0x5000 => some 16
    | 0x5100 => some 16
    | 0x5200 => some 16
    | 0x5300 => some 16
    | 0x2800 =>
      if e ≤ 3 then (if sub = 4 then none else some (17 + e / 2))
      else if e = ifcElem s 0 then some 17
      else if e = ifcElem s 1 then some 18
      else none
    | 0x2100 => if sub ≤ 16 then some 17 else none
    | 0x2101 => some 18
    | 0x2110 => if e ≤ 3 then some (17 + e / 2) else none
    | 0x3000 => if sub = 4 then none else some (19 + e)
    | 0x3010 => some (19 + e / 10)
    | _ => none

/-- The block of an object is under block reset. -/
def keyBlocked (s : State) (k : Nat) : Bool :=
  match blockOfKey s k with
  | none => false
  | some c => inReset s c

/-- The information of NAK ISO_ERR: the block object of Table 14.6. -/
def blockInfo (c : Nat) : Nat :=
  if c ≤ 15 then 0x4010 else if c = 16 then 0x5100 else if c ≤ 18 then 0x2800 else 0x3000

/-! ## Groups as 4300h shows them (Tables 6.1 and 6.7) -/

/-- Wire length of a value. -/
def valLength (s : State) (c : Change) : Nat :=
  match c.value with
  | .bytes b => b.length
  | .num _ =>
    match declAt s (keyIndex c.object) (keyElem c.object) (keySub c.object) with
    | some d => d.typ.size
    | none =>
      match s.prog.staged.bind (fun im => imageDecl im (keyIndex c.object) (keyElem c.object) (keySub c.object)) with
      | some d => ((tyOf d.typ).map Ty.size).getD 0
      | none => 0

def dataBytes (s : State) (l : List Change) : Nat := l.foldl (fun a c => a + valLength s c) 0

/-- Elements of an index written by a set of changes. -/
def elemsOf (l : List Change) (p : Nat → Nat → Bool) : List Nat :=
  ((l.filter (fun c => p (keyIndex c.object) (keySub c.object))).map (fun c => keyElem c.object)).eraseDups

def routeChanges (l : List Change) : Nat := (elemsOf l (fun i _ => i == 0x4200)).length
def eddyChanges (l : List Change) : Nat := (elemsOf l (fun i _ => i == 0x4100)).length

/-- Sub-indices of a beam's steering and weight objects. -/
def beamSetSub (i sub : Nat) : Bool := i == 0x5300 && (sub == 5 || sub == 6 || sub == 7)
def beamChanges (l : List Change) : Nat := (elemsOf l beamSetSub).length

/-- STORE_USED: the parameter data held for the open and the committed groups. (DEDUCED, log entry 30.) -/
def storeUsed (s : State) : Nat :=
  dataBytes s s.slu.openSet + (committed s).foldl (fun a g => a + dataBytes s g.all) 0

/-- Insert a group behind those that apply no later. -/
def insertGroup (g : Group) : List Group → List Group
  | [] => [g]
  | h :: r => if g.target < h.target then g :: h :: r else h :: insertGroup g r

/-- Groups in application order: by target, then as acknowledged (R139). -/
def inOrder (l : List Group) : List Group := l.foldl (fun a g => insertGroup g a) []

/-- The 16 bytes of a waiting group in QUEUE. -/
def queueBytes (s : State) (g : Group) : List Byte :=
  let st := if s.slu.heldFed == some g then 3 else g.phase
  let fl := (if g.firstFeasible then 1 else 0) + (if g.sequential then 2 else 0) + (if g.fedTag ≠ 0 then 4 else 0)
  natBE g.tag 4 ++ natBE g.target 8 ++ natBE st 1 ++ natBE fl 1 ++ [0x00, 0x00]

/-! ## Numbers that follow from other state -/

/-- STATE of a cluster (Table 4.12). -/
def clusterState (s : State) (c : Nat) : Nat :=
  if inReset s c then 2
  else if getO s (Obj.pwr.state c) = 1 then 3
  else if getO s (Obj.pwr.state c) ≠ 0 then 4
  else if (codeCells s).any (fun n => n / 8 == c) then 1
  else 0

/-- STATE of the program (Table 4.5): a waiting swap prepares (2) or is prepared (3). -/
def progState (s : State) : Nat :=
  match (committed s).find? (fun g => g.all.any (fun c => c.object == Obj.prog.swapTo)) with
  | some g => if g.prepared then 3 else 2
  | none => if s.prog.running.isSome then 1 else 0

/-- Key slots of the OTP that are not blank (R391): program keys in bits 3:0, firmware keys in bits 7:4. -/
def keysPresent (s : State) : Nat :=
  (List.range 8).foldl
    (fun a i => if (bytesGet s.bus.otp (0x400 + 128 * i) 128).all (· == 0) then a else a + 2 ^ i) 0

/-- A reading of a sensor: no rule gives it, a free value of its type. -/
def sensor (s : State) (signedWord : Bool) : Int :=
  let v := Config.free s.fresh % 65536
  if signedWord then signed 16 v else (v : Int)

def boolNum (b : Bool) : Int := if b then 1 else 0

/-- IN_FLIGHT: requests held, waiting for the partner's confirmation, for the end of an election, or for the active unit's
decision (Table 2.7). -/
def inFlight (s : State) (n : Nat) : Nat :=
  (session s n).held.length + s.ctl.await.countP (fun a => a.envelope.session == n)
    + s.ctl.candidates.countP (fun c => c.session == n && c.waiting.isSome)
    + s.ctl.forwarded.countP (fun h => h.envelope.session == n)

/-- The path whose interface of this unit is element e of 2800h, none for the other unit's elements. -/
def pathOfIfc (s : State) (e : Nat) : Option Nat := (List.range 2).find? (fun p => ifcElem s p == e)

/-- The value a READ of a numeric object finds. -/
def liveNum (s : State) (k : Nat) : Int :=
  let e := keyElem k
  match keyIndex k, keySub k with
  | 0x1000, 7 => boolNum s.pins.unitB
  | 0x1110, 6 => (inFlight s (e + 1) : Nat)
  | 0x1110, 8 => ((session s (e + 1)).subs.length : Nat)
  | 0x1120, 2 => (journalUsed s : Nat)
  | 0x1120, 4 => (journalPending s : Nat)
  | 0x1200, 5 => (inResetBits s : Nat)
  | 0x1380, 6 => (producers s e : Nat)
  | 0x1510, 1 => (healthState s : Nat)
  | 0x1510, 2 => (worstEvent s : Nat)
  | 0x1510, 3 => ((stickyOf s 1).length : Nat)
  | 0x1510, 4 => ((stickyOf s 2).length : Nat)
  | 0x1510, 5 => ((stickyOf s 3).length : Nat)
  | 0x1510, 7 => sensor s true
  | 0x1510, 8 => sensor s true
  | 0x1510, 9 => sensor s false
  | 0x1510, 14 => getO s Obj.pair.scrubPasses
  | 0x1510, 15 => (linksDegraded s : Nat)
  | 0x1510, 16 => getO s Obj.pair.exposed
  | 0x1510, 17 => (s.rst.upFrames / 6000 : Nat)
  | 0x1600, 7 => if e = 0 then (keysPresent s : Nat) else getO s k
  | 0x1610, 1 => ((regionOf s e).1 : Nat)
  | 0x1610, 2 => ((regionOf s e).2.1 : Nat)
  | 0x1610, 3 => ((regionOf s e).2.2 : Nat)
  | 0x2000, 3 => (selectorState s : Nat)
  | 0x2000, 4 => match s.sel.pending with
    | some p => (p.entry : Nat)
    | none => 255
  | 0x2000, 5 => match s.sel.pending with
    | some p => (p.frame : Nat)
    | none => 0
  | 0x2010, 11 => (refState s e : Nat)
  | 0x2010, 14 => (entryStep3 s e).fdiv 3
  | 0x2010, 15 => (waitLeft s e : Nat)
  | 0x2010, 17 => (agreesBits s e : Nat)
  | 0x2100, 11 => max 0 ((ptpOf s 0).counter / 4294967296)
  | 0x2101, 11 => max 0 ((ptpOf s 1).counter / 4294967296)
  | 0x2100, 73 => (min (timeError s) 4294967295 : Nat)
  | 0x2200, 1 => (s.frame : Nat)
  | 0x2200, 6 => frameStart s
  | 0x2200, 17 => (pllState s : Nat)
  | 0x2800, 4 => if 5 ≤ e then ((Config.macAddress e % 2 ^ 48 : Nat) : Int) else getO s k
  | 0x2800, 7 => if 5 ≤ e then (((pathOfIfc s e).map (ringState s)).getD 0 : Nat) else getO s k
  | 0x2800, 10 => (((pathOfIfc s e).map (fun p => (pathOf s p).macs.length)).getD 0 : Nat)
  | 0x2900, 15 => (txState s e : Nat)
  | 0x2A00, 14 => (rxState s e : Nat)
  | 0x3000, 14 => (upSeconds s e : Nat)
  | 0x3900, 2 => (s.pins.fedId : Nat)
  | 0x4000, 1 => (progState s : Nat)
  | 0x4010, 1 => (clusterState s e : Nat)
  | 0x4010, 11 => (eddyWordsOf s e : Nat)
  | 0x4100, 8 => (eddyOldest s e : Nat)
  | 0x4200, 9 => (destState (destOf s e) : Nat)
  | 0x4200, 10 => (outgoing (destOf s e) : Nat)
  | 0x4210, 7 => (rillState s e : Nat)
  | 0x4300, 1 => boolNum (s.slu.openSession != 0)
  | 0x4300, 2 => (s.slu.openTag : Nat)
  | 0x4300, 3 => (dataBytes s s.slu.openSet : Nat)
  | 0x4300, 4 => (routeChanges s.slu.openSet : Nat)
  | 0x4300, 5 => (eddyChanges s.slu.openSet : Nat)
  | 0x4300, 6 => (beamChanges s.slu.openSet : Nat)
  | 0x4300, 9 => ((committed s).length : Nat)
  | 0x4300, 11 => (storeUsed s : Nat)
  | 0x5000, 11 => (elemState s e : Nat)
  | 0x5000, 12 => (settledOf s e : Nat)
  | 0x5200, 8 => (corrState s : Nat)
  | 0x5200, 22 => (ledger s : Nat)
  | 0x5200, 23 => (hbmTotal : Int) - ledger s
  | 0x5300, 10 => (beamState (beamOf s e) : Nat)
  | 0x5300, 12 => (fadeLeft (beamOf s e) : Nat)
  | _, _ =>
    if 0x6000 ≤ keyIndex k ∧ keyIndex k ≤ 0x9FFF then
      match s.prog.running.bind (fun im => imageDecl im (keyIndex k) e (keySub k)) with
      | none => 0
      | some d => if d.access ≠ 1 ∧ keyBlocked s k then progCopy s d k else progRead s d e
    else getO s k

/-! ## Bytes -/

def i32Bytes (f : Nat → Int) (n : Nat) : List Byte := (List.range n).flatMap (fun i => encodeNum .i32 (f i))

/-- BULK: PEAK, RMS and CLIPS of the destinations from BULK_FIRST (Table 5.5). (DEDUCED, log entry 29.) -/
def bulkBytes (s : State) : List Byte :=
  let first := natO s Obj.meter.bulkFirst
  (((List.range (natO s Obj.meter.bulkCount)).map (fun i => first + i)).filter
      (fun d => (fixedDecl 0x4200 d 12).isSome && destOk s.rst.rate d)).flatMap
    fun d => encodeNum .i16 (getO s (Obj.dest.peak d)) ++ encodeNum .i16 (getO s (Obj.dest.rms d))
      ++ encodeNum .u32 ((destOf s d).clips : Nat)

/-- MARK_DATA: samples from mark + MARK_READ_OFFSET to W − 1, at most 65,536 bytes (R105). -/
def markData (s : State) (d : Nat) : List Byte :=
  let from_ := natO s (Obj.eddy.mark d) + natO s (Obj.eddy.markReadOffset d)
  let ch := natO s (Obj.eddy.channels d)
  let n := min (natO s (Obj.eddy.writeCount d) - from_) (16384 / max ch 1)
  (List.range n).flatMap fun i => (List.range ch).flatMap fun c =>
    natBE (eddySample s d (eddyOf s d) ((from_ + i : Nat) : Int) c).toNat 4

/-- The slot that READ_SLOT names (R184). -/
def readSnapshot (s : State) : Snapshot :=
  ((s.array.corr.areas.head?).bind (fun a => a.snaps[natO s Obj.corr.readSlot]?)).getD Snapshot.none

/-- BLOCK_DATA (R184): none where the read is answered NAK RANGE. -/
def blockData (s : State) : Option (List Byte) :=
  let x := readSnapshot s
  let n := natO s Obj.corr.readBlock
  let b := natO s Obj.corr.readBand
  let row := natO s Obj.corr.readRow
  if blockCount x.groups.length ≤ n ∨ bandCount x.mode ≤ b ∨ ¬(row = 0 ∨ row = 64) then none
  else some (rowsBytes x n b row)

/-- MAP_DATA (R210): none where the read is answered NAK RANGE. -/
def mapData (s : State) : Option (List Byte) :=
  let b := natO s Obj.scan.mapBand
  match s.array.lastMap with
  | none => none
  | some m =>
    if !m.bands.testBit b then none
    else some ((List.range (m.nx * m.ny)).flatMap fun g => natBE (Sparse.get (fun _ => 0) m.values (4096 * b + g)) 4)

/-- Bytes without the zeros that pad them. -/
def unpad (b : List Byte) : List Byte := (b.reverse.dropWhile (· == 0)).reverse

/-- The bytes a READ of a STR or BLOB object finds. (DEDUCED, log entry 31.) -/
def liveBytes (s : State) (k : Nat) : List Byte :=
  let e := keyElem k
  match keyIndex k, keySub k with
  | 0x1000, 6 => unpad (bytesGet s.bus.otp 0x800 128)
  | 0x1100, 17 => List.replicate 32 0
  | 0x1100, 18 => List.replicate 32 0
  | 0x1100, 19 => List.replicate 32 0
  | 0x1100, 20 => List.replicate 32 0
  | 0x1220, 2 => s.rst.options
  | 0x1300, 66 => eventBytes s Obj.evt.status
  | 0x1300, 67 => eventBytes s Obj.evt.sticky
  | 0x1380, 5 => driftData s e
  | 0x1500, 1 => moraineBytes s
  | 0x1500, 7 => mirrorBytes s
  | 0x2900, 18 => sdpBytes s e
  | 0x3010, 5 => rxEqBytes s e
  | 0x4100, 29 => markData s e
  | 0x4220, 5 => bulkBytes s
  | 0x4300, 10 => (inOrder (committed s)).flatMap (queueBytes s)
  | 0x5100, 7 => i32Bytes (fun n => protoH.getD n 0) 2048
  | 0x5200, 28 => (blockData s).getD []
  | 0x5200, 29 => headerOf (readSnapshot s)
  | 0x5300, 76 => (mapData s).getD []
  | 0x5300, 80 => i32Bytes (fun n => protoF.getD n 0) 2048
  | 0x5300, 81 => i32Bytes (fun n => halfBand.getD n 0) 24
  | _, _ => getB s k

/-- A value as it lies on the wire. -/
def liveValue (s : State) (d : Decl) (k : Nat) : List Byte :=
  if d.access = .wo then (if d.typ.size = 0 then [] else encodeNum d.typ 0)
  else if d.typ.size = 0 then liveBytes s k else encodeNum d.typ (liveNum s k)

/-- A READ that a home chapter refuses (R105, R184, R210): NAK code and information. -/
def readRefused (s : State) (k : Nat) : Option (Nat × Nat) :=
  let e := keyElem k
  match keyIndex k, keySub k with
  | 0x4100, 29 => match natO s (Obj.eddy.markState e) with
    | 0 => some (7, 0)
    | 2 => some (11, eddyOldest s e)
    | _ => none
  | 0x5200, 28 => if (blockData s).isNone then some (7, 0) else none
  | 0x5300, 76 => if (mapData s).isNone then some (7, 0) else none
  | _, _ => none

/-- The value of a persistent object is saved in the configuration area (R32); those of program objects under the program's
hash (R93). (DEDUCED, log entry 96.) -/
def saveObject (s : State) (k : Nat) (d : Decl) : State :=
  if !d.persistent then s
  else if 0x6000 ≤ keyIndex k then
    let h := natO s Obj.ident.programHash
    let old := if s.ctl.savedHash = h then s.ctl.savedNum else s.ctl.savedNum.filter (fun e => decide (keyIndex e.1 < 0x6000))
    { s with ctl := { s.ctl with savedHash := h, savedNum := Sparse.insert (Sparse.drop old k) k (liveNum s k) } }
  else if d.typ.size = 0 then
    { s with ctl := { s.ctl with savedBlob := Sparse.insert (Sparse.drop s.ctl.savedBlob k) k (getB s k) } }
  else { s with ctl := { s.ctl with savedNum := Sparse.insert (Sparse.drop s.ctl.savedNum k) k (getO s k) } }

/-- An orderly shutdown saves every persistent object again (R32): those that differ from their defaults or were saved before, and
those of the running program. -/
def saveAll (s : State) : State :=
  let progs := match s.prog.running with
    | some im => im.dict.flatMap (fun d => (List.range (max d.elements 1)).map (fun e => okey d.index e d.sub))
    | none => []
  let keys := s.obj.map (·.1) ++ s.blob.map (·.1) ++ s.ctl.savedNum.map (·.1) ++ s.ctl.savedBlob.map (·.1) ++ progs
  keys.eraseDups.foldl (fun s k => match declAt s (keyIndex k) (keyElem k) (keySub k) with
    | some d => saveObject s k d
    | none => s) s

end Sys2Proof.Machine
end

