-- ==== Sys2Proof/Machine/Owner.lean ====
section
/-! DEFINITION. Answers to controllers and their copies to the partner, how a commit group leaves the open state or is withdrawn
(R130, R134), sessions, ownership and elections (R41, R46 to R49). -/

namespace Sys2Proof.Machine

/-! ## Answers (Tables 2.12 and 2.14) -/

/-- KEY_SLOT of a tagged request. -/
def tagOf (e : Envelope) : Option Nat := if e.flags.getLsbD 0 then some e.keySlot else none

/-- REPLAYED in the header flags. -/
def replayedFlag (b : Bool) : BitVec 16 := if b then 0x0004 else 0

def sendAck (s : State) (e : Envelope) (payload : List Byte) (replayed : Bool) : State :=
  sendGultin s e.srcAddr e.srcPort e.session e.sequence 11 (replayedFlag replayed) payload (tagOf e)

def nakPayload (code info : Nat) : List Byte := natBE code 2 ++ [0x00, 0x00] ++ natBE info 8

/-- A NAK goes to the session's controller, and is counted there (Table 2.7). -/
def sendNak (s : State) (e : Envelope) (code info : Nat) (replayed : Bool) : State :=
  let s := if 1 ≤ e.session ∧ e.session ≤ 32 ∧ sessState s e.session ≠ 0 then bumpO s (Obj.sess.naks (e.session - 1)) else s
  sendGultin s e.srcAddr e.srcPort e.session e.sequence 12 (replayedFlag replayed) (nakPayload code info) (tagOf e)

/-- FRAME_NO and OWNER_EPOCH: the ACK to HEARTBEAT, CLAIM and YIELD. -/
def ownerAck (s : State) : List Byte := natBE s.frame 8 ++ natBE (natO s Obj.own.ownerEpoch) 4

/-- The retry hint of a NAK BUSY for which no rule gives a number. -/
def busyHint : Nat := Config.busyHint % 2 ^ 64

/-- Keep the result of a sequence number; 1,024 are kept (R50). -/
def recordResult (s : State) (n : Nat) (r : Result) : State :=
  if sessState s n = 0 then s
  else
    let v := session s n
    setSession s n { v with results := ((r :: v.results.filter (fun x => x.sequence != r.sequence)).take 1024) }

/-- A sequence number is consumed: NEXT_SEQ passes it and every number already answered behind it. -/
def passSeq (s : State) (n : Nat) : Nat → State
  | 0 => s
  | fuel + 1 =>
    let q := natO s (Obj.sess.nextSeq (n - 1))
    if (session s n).results.any (fun r => r.sequence == q) then passSeq (setO s (Obj.sess.nextSeq (n - 1)) (q + 1)) n fuel
    else s

def consume (s : State) (n seq : Nat) : State :=
  if sessState s n = 0 then s
  else if natO s (Obj.sess.nextSeq (n - 1)) = seq then passSeq (setO s (Obj.sess.nextSeq (n - 1)) (seq + 1)) n 128
  else s

/-- A recorded NAK: kept as the request's result, and its number consumed (R40). -/
def nakRecorded (s : State) (e : Envelope) (kind code info : Nat) : State :=
  let s := recordResult s e.session ⟨e.sequence, false, code, info, kind⟩
  sendNak (consume s e.session e.sequence) e code info false

/-! ## Refusals (R40, Table 2.14) -/

/-- FORWARDED: the copy of a message that the partner received (Table 2.10). -/
def forwarded (e : Envelope) : Bool := e.flags.getLsbD 14

/-- A sequence number taken at the partner is consumed here too. -/
def consumeTo (s : State) (n seq : Nat) : State :=
  if sessState s n = 0 then s
  else passSeq (setO s (Obj.sess.nextSeq (n - 1)) (max (natO s (Obj.sess.nextSeq (n - 1))) (seq + 1) : Nat)) n 128

/-- A NAK that is recorded, by its code (Table 2.14). -/
def recorded (code : Nat) : Bool := code != 4 && code != 5

/-- Event 165 and REJECTS for a GROUP_COMMIT that is answered with a NAK (R136, R147). -/
def commitNaked (s : State) (r : Request) : State :=
  match r with
  | .groupCommit b => raise (bumpO s Obj.slu.rejects) 165 b.tag
  | _ => s

/-- A NAK that consumes nothing. -/
def nakNow (s : State) (e : Envelope) (r : Request) (code info : Nat) : State := sendNak (commitNaked s r) e code info false

/-- A request is refused: recorded and consumed when its code says so. A forwarded one goes back over the pair link, and the
recorded result of a write, a CLAIM or a RESUME is copied to a standby that keeps the same result store. -/
def refuse (s : State) (e : Envelope) (r : Request) (code info : Nat) : State :=
  let x : Result := ⟨e.sequence, false, code, info, reqCode r⟩
  let s := commitNaked s r
  if forwarded e then
    let s := if recorded code then consumeTo (recordResult s e.session x) e.session e.sequence else s
    sendJournal s e.session e.sequence 0 r x
  else if !recorded code then sendNak s e code info false
  else
    let s := if isActive s && confirms s && (reqIsWrite r || reqCode r == 2 || reqCode r == 13)
      then sendJournal s e.session e.sequence 0 r x else s
    nakRecorded s e (reqCode r) code info

/-! ## The end of a group (R134, R147) -/

/-- A group has finished: LAST_TAG, LAST_RESULT, LAST_FRAME, LAST_FINAL. -/
def groupEnds (s : State) (tag result frame final : Nat) : State :=
  setMany s [(Obj.slu.lastTag, tag), (Obj.slu.lastResult, result), (Obj.slu.lastFrame, frame), (Obj.slu.lastFinal, final)]

/-- The open state is left: FED_TAG returns to 0. -/
def closeOpen (s : State) : State :=
  setO { s with slu := { s.slu with openTag := 0, openSession := 0, openSeq := 0, openSet := [] } } Obj.slu.fedTag 0

/-- The open group is discarded without effect, and its GROUP_BEGIN retires (R134). -/
def discardOpen (s : State) : State :=
  if s.slu.openSession = 0 then s
  else retireEntry (closeOpen (groupEnds s s.slu.openTag 6 s.frame s.frame)) s.slu.openSession s.slu.openSeq

/-- The number a set of changes gives a key last. -/
def numIn (l : List Change) (k : Nat) : Option Int :=
  ((l.filter (fun c => c.object == k)).getLast?).bind (fun c => match c.value with
    | .num v => some v
    | .bytes _ => none)

/-- Preparation is dropped: its memory is freed. -/
def dropPrep (s : State) (l : List Change) : State :=
  let s := if l.any (fun c => c.object == Obj.prog.swapTo) then { s with prog := { s.prog with prepared := false } } else s
  let s := (elemsOf l (fun i sub => i == 0x4100 && sub == 5)).foldl
    (fun s d => if getO s (Obj.eddy.state d) = 2 then setEddy (setO s (Obj.eddy.state d) 1) d { eddyOf s d with copied := false } else s) s
  let gone := (elemsOf l (fun i sub => i == 0x5300 && sub == 2)).filter
    (fun b => numIn l (Obj.beam.mode b) == some 1 && getO s (Obj.beam.mode b) != 1)
  { s with array := { s.array with bufFree := s.array.bufFree ++ gone.map (fun b => (s.frame + 1, b)) } }

def dropGroup (s : State) (g : Group) : State :=
  { s with slu := { s.slu with
    waiting := s.slu.waiting.filter (fun x => x.id != g.id)
    coord := s.slu.coord.filter (fun x => x.id != g.id)
    heldFed := s.slu.heldFed.filter (fun x => x.id != g.id) } }

/-- The journal entries of a group that has finished retire: its GROUP_BEGIN and GROUP_COMMIT, or its WRITE (R133). -/
def retireGroup (s : State) (g : Group) : State :=
  if g.single then retireEntry s g.session g.seq
  else retireIf s (fun e => e.session == g.session && (e.sequence == g.beginSeq || e.sequence == g.seq))

/-- A journaled request that turns out to be answered with a NAK is taken back as far as it is not in force: a group it
committed, a DIRECT write on its way (R48). (DEDUCED, log entry 106.) -/
def withdraw (s : State) (n q : Nat) : State :=
  let mine (g : Group) : Bool := g.session == n && g.seq == q
  let s := ((committed s).filter mine).foldl (fun s g => retireGroup (dropGroup (dropPrep s g.all) g) g) s
  retireEntry { s with slu := { s.slu with direct := s.slu.direct.filter (fun d => !(d.session == n && d.seq == q)) } } n q

/-! ## Ownership (R46 to R48, Table 2.15) -/

def ownerState (s : State) : Nat := natO s Obj.own.ownerState

/-- The session that owns, none without an owner. -/
def ownerSession (s : State) : Option Nat := if ownerState s = 2 then some (natO s Obj.own.ownerSession) else none

def isOwner (s : State) (n : Nat) : Bool := ownerSession s == some n

/-- NAK NOT_OWNER's information: the owner's station ID, or 0. -/
def ownerId (s : State) : Nat := if ownerState s = 2 then natO s Obj.own.ownerStation else 0

/-- A session stops being the owner: its open group goes, and its writes received and not yet acknowledged - held, waiting for
the partner's confirmation, or forwarded - are answered NAK OWNER_LOST with the new OWNER_EPOCH (R48). (DEDUCED, log entry 70.) -/
def leaveOwner (s : State) (n : Nat) : State :=
  let s := if s.slu.openSession = n then discardOpen s else s
  let epoch := natO s Obj.own.ownerEpoch
  let v := session s n
  let mine (h : Held) : Bool := h.envelope.session == n && reqIsWrite h.request
  let unsure := s.ctl.await.filter (fun a => a.envelope.session == n && !forwarded a.envelope && reqIsWrite a.request)
  let lost := v.held.filter mine ++ s.ctl.forwarded.filter mine
  let s := setSession { s with ctl := { s.ctl with
    await := s.ctl.await.filter (fun a => !unsure.contains a), forwarded := s.ctl.forwarded.filter (fun h => !mine h) } }
    n { v with held := v.held.filter (fun h => !mine h) }
  let s := unsure.foldl (fun s a => refuse (withdraw s n a.envelope.sequence) a.envelope a.request 1 epoch) s
  lost.foldl (fun s h => refuse s h.envelope h.request 1 epoch) s

/-- Ownership is lost: event 230, and an election opens. -/
def loseOwner (s : State) : State :=
  match ownerSession s with
  | none => s
  | some n => leaveOwner (openWindow (raise s 230 noDetail)) n

/-- The loss of the owner is decided and journaled by the active unit alone (R49). -/
def decideLoss (s : State) : State :=
  if isStandby s || (ownerSession s).isNone then s else loseOwner (journalDecision s .ownerLost)

/-- OWNER_EPOCH rises, which closes the injection window (R367). -/
def raiseEpoch (s : State) : State :=
  let s := bumpO s Obj.own.ownerEpoch
  if getO s Obj.inj.window = 0 then s else closeWindow s

/-- A session becomes owner: OWNER_EPOCH rises, event 231. -/
def takeOwner (s : State) (n prio : Nat) (preempt : Bool) : State :=
  let old := ownerSession s
  let s := setMany s [(Obj.own.ownerState, 2), (Obj.own.ownerStation, getO s (Obj.sess.station (n - 1))), (Obj.own.ownerSession, n),
    (Obj.own.ownerPriority, prio), (Obj.own.preemptible, boolNum preempt)]
  let s := raise (raiseEpoch s) 231 noDetail
  match old with
  | none => s
  | some o => if o = n then s else leaveOwner s o

/-! ## Sessions (R41) -/

/-- The objects of a session other than STATE return to their defaults. -/
def blankSession (s : State) (n : Nat) : State :=
  setMany s [(Obj.sess.station (n - 1), 0), (Obj.sess.peerAddress (n - 1), 0), (Obj.sess.peerPort (n - 1), 0),
    (Obj.sess.nextSeq (n - 1), 1), (Obj.sess.fencedAt (n - 1), 0), (Obj.sess.naks (n - 1), 0)]

/-- A session no longer takes part in an election, a BLOB series or a forwarded request. -/
def dropSession (s : State) (n : Nat) : State :=
  { s with ctl := { s.ctl with
    candidates := s.ctl.candidates.filter (fun c => c.session != n)
    series := s.ctl.series.filter (fun x => x.session != n)
    forwarded := s.ctl.forwarded.filter (fun h => h.envelope.session != n) } }

/-- A session is freed: closed, reclaimed, or 60 s dormant. The owner's session costs ownership (Table 2.15). -/
def freeSession (s : State) (n : Nat) : State :=
  let s := dropSession s n
  let s := if isOwner s n then decideLoss s else s
  setSession (setO (blankSession s n) (Obj.sess.state (n - 1)) 0) n Session.free

/-- A session goes dormant: its subscriptions end; sequence state, fence and result store are kept. -/
def sleepSession (s : State) (n : Nat) : State :=
  let s := dropSession s n
  let s := if isOwner s n then decideLoss s else s
  let v := session s n
  let s := setSession (setO s (Obj.sess.state (n - 1)) 3) n { v with held := [], subs := [], dormant := s.ctl.dormantNo }
  { s with ctl := { s.ctl with dormantNo := s.ctl.dormantNo + 1 } }

end Sys2Proof.Machine
end

