-- ==== Sys2Proof/Machine/Resync.lean ====
section
/-! DEFINITION. What a resync copies besides memories that have a bus address (R317): the pieces as the source takes them, and how
the target puts them in its state. (DESIGN CHOICE, log entries 60 and 84.) -/

namespace Sys2Proof.Machine

/-! ## Which objects are copied -/

/-- Settings and counts of the unit itself: injections, DMA and update channels, status words, and event counts (R19). -/
def unitOwn (k : Nat) : Bool :=
  [0x1400, 0x1600, 0x1620, 0x4010].contains (keyIndex k) || (keyIndex k == 0x1300 && (keySub k == 2 || keySub k == 5))

/-- Read-only objects of CONFIG that are no observations: ownership, sessions, the epoch and TS_SHIFT, the selection, the federation
and the commit state. -/
def configOnly (k : Nat) : Bool :=
  [Obj.own.ownerState, Obj.own.ownerStation, Obj.own.ownerSession, Obj.own.ownerPriority, Obj.own.ownerEpoch, Obj.clk.epoch,
    Obj.clk.epochOffset, Obj.tb.tsShift, Obj.sel.selected, Obj.fed.leader, Obj.fed.generation, Obj.fed.mismatch,
    Obj.fed.present].contains k
    || keyIndex k == 0x1110 || keyIndex k == 0x4300

/-- An object whose value CONFIG carries: a setting, or one of those. -/
def configKey (s : State) (k : Nat) : Bool :=
  configOnly k || (!unitOwn k && (declAt s (keyIndex k) (keyElem k) (keySub k)).any (·.access == .rw))

/-- An object that CATCHMENT carries: generations and snapshots, live weight buffers, and the HBM addresses (R187). -/
def catchKey (k : Nat) : Bool :=
  (keyIndex k == 0x5200 && decide (9 ≤ keySub k) && decide (keySub k ≤ 17)) || k == Obj.chan.lookbackBase
    || (keyIndex k == 0x5300 && decide (11 ≤ keySub k) && decide (keySub k ≤ 14))

/-- An object that CAPTURE carries: those of Eddy descriptors, destinations and Rill routes, and what runs. -/
def coreKey (k : Nat) : Bool :=
  [0x4100, 0x4200, 0x4210].contains (keyIndex k) || [Obj.prog.activeSlot, Obj.prog.name, Obj.prog.lastSwap].contains k

/-- The objects of a kind take the values that came, and their defaults where none came. -/
def takeNums (s : State) (kind : Nat → Bool) (l : List (Nat × Int)) : State :=
  setMany { s with obj := s.obj.filter (fun e => !kind e.1) } (l.filter (fun e => kind e.1))

def takeBlobs (s : State) (kind : Nat → Bool) (l : List (Nat × List Byte)) : State :=
  (l.filter (fun e => kind e.1)).foldl (fun s e => setB s e.1 e.2) { s with blob := s.blob.filter (fun e => !kind e.1) }

/-! ## The source -/

/-- CONFIG: settings, session table, result stores, journal and shadow store. -/
def configPiece (s : State) : ResyncPiece :=
  .config (s.obj.filter (fun e => configKey s e.1)) (s.blob.filter (fun e => configKey s e.1)) s.ctl.sessions s.ctl.journal s.slu

/-- CATCHMENT: what the array processing holds at C. -/
def catchPiece (s : State) : ResyncPiece := .catchment (s.obj.filter (fun e => catchKey e.1)) s.array

/-- BULK: Eddy rings and adaptive weight buffers; the steering table is a setting. -/
def bulkPiece (s : State) : ResyncPiece := .bulk s.eddy s.array.buffers s.array.kept

/-- CAPTURE: the state at the boundary of E, before its route pass. -/
def corePiece (s : State) : ResyncPiece :=
  .core (s.obj.filter (fun e => coreKey e.1)) (s.blob.filter (fun e => coreKey e.1)) s.cells s.bus.cluster s.eddy s.conf.dests s.conf.rills s.prog.copies s.prog.oldOut s.slu

/-- A piece goes to the partner in the bulk class. -/
def sendPiece (s : State) (p : ResyncPiece) : State := if (pairLink s).isSome then emit s (.resync p) else s

/-! ## The target -/

/-- A session as the other unit holds it: nothing is held here, and what arrived there arrived at the partner (R311). -/
def Session.across (v : Session) : Session := { v with held := [], atPartner := !v.atPartner }

/-- Two lists of what a commit store holds, the sender's first. -/
def union {α : Type} (same : α → α → Bool) (a b : List α) : List α := a ++ b.filter (fun x => !a.any (same x))

def takeConfig (s : State) (nums : List (Nat × Int)) (blobs : List (Nat × List Byte)) (sessions : Sparse Session)
    (journal : List JEntry) (shadow : Sluice) : State :=
  let s := takeBlobs (takeNums s (configKey s) nums) (configKey s) blobs
  { s with
    ctl := { s.ctl with
      sessions := sessions.map (fun e => (e.1, e.2.across)), journal := journal.map (fun e => { e with waits := false }) }
    slu := { shadow with
      waiting := union (fun x y => x.session == y.session && x.seq == y.seq) shadow.waiting s.slu.waiting } }

/-- The array processing goes on from the source's ramps, transitions and counters, with histories of its own (R317). -/
def takeCatchment (s : State) (nums : List (Nat × Int)) (v : Catch) : State :=
  let a := s.array
  let elem (e : Nat × Elem) : Nat × Elem :=
    (e.1, { Sparse.get (fun _ => Elem.idle) a.elems e.1 with live := e.2.live, g := e.2.g, ramp := e.2.ramp })
  let beam (e : Nat × BeamSt) : Nat × BeamSt :=
    (e.1, { Sparse.get (fun _ => BeamSt.idle) a.beams e.1 with live := e.2.live, fading := e.2.fading, next := e.2.next })
  let corr := { v.corr with
    corner := [], excluded := [], computing := [],
    areas := v.corr.areas.map (fun x => { x with snaps := [Snapshot.none, Snapshot.none] }) }
  { takeNums s catchKey nums with array := { a with
      elems := v.elems.map elem, beams := v.beams.map beam, corr := corr, held := v.held, allocs := v.allocs } }

/-- The core's state at E; groups and DIRECT writes that came since then are kept. -/
def takeCore (s : State) (nums : List (Nat × Int)) (blobs : List (Nat × List Byte)) (cells : Sparse Cell) (cluster : Sparse Word)
    (rings : Sparse Eddy) (dests : Sparse Dest) (rills : Sparse Rill) (copies : List (Nat × Int))
    (oldOut : Option (Sparse (List Int))) (shadow : Sluice) : State :=
  let s := takeBlobs (takeNums s coreKey nums) coreKey blobs
  { s with
    cells := cells, eddy := rings
    bus := { s.bus with cluster := cluster }
    conf := { s.conf with dests := dests, rills := rills }
    prog := { s.prog with copies := copies, oldOut := oldOut }
    slu := { shadow with
      waiting := union (fun x y => x.session == y.session && x.seq == y.seq) shadow.waiting s.slu.waiting
      direct := union (fun x y => x == y) shadow.direct s.slu.direct } }

/-- A piece takes its place in the target's state. -/
def takePiece (s : State) (p : ResyncPiece) : State :=
  match p with
  | .bytes => s
  | .config nums blobs sessions journal shadow => takeConfig s nums blobs sessions journal shadow
  | .catchment nums v => takeCatchment s nums v
  | .bulk rings buffers kept => { s with eddy := rings, array := { s.array with buffers := buffers, kept := kept } }
  | .core nums blobs cells cluster rings dests rills copies oldOut shadow =>
    takeCore s nums blobs cells cluster rings dests rills copies oldOut shadow

end Sys2Proof.Machine
end

