-- ==== Sys2Proof/Machine/Role.lean ====
section
/-! DEFINITION. The states of a unit of a pair and how it leaves them (R298, R300, R305, R309, R319), starting a resync
(R316), FORCE_ACTIVE (R320) and the role swap (R314). -/

namespace Sys2Proof.Machine

/-- PAIR_CTRL with its byte 1 and what follows (Table 13.10). (DESIGN CHOICE, log entry 63.) -/
def sendCtrl (s : State) (code : Nat) (bytes : List Byte) : State := sendPair s 0x16 (natBE code 1 ++ bytes)

/-- A path this unit transmits by its identity: A for Unit A, B for Unit B (R298). -/
def ownPath (s : State) : Nat := if s.pins.unitB then 1 else 0

/-- Paths a unit transmits on. -/
def sendsOn (s : State) (a b : Bool) : State := { s with pair := { s.pair with pathsSent := [a, b], handovers := [] } }

/-- The active unit goes on alone and takes the other path (R300, R305, R309). -/
def toAlone (s : State) : State :=
  sendsOn (setMany s [(Obj.pair.state, 1), (Obj.pair.exposed, 1)]) true true

/-- A standby leaves step in a state: it stops transmitting and changes its pattern (R298, R300). -/
def leaveStep (s : State) (st : Nat) : State :=
  let s := sendsOn (setMany s [(Obj.pair.state, st), (Obj.pair.exposed, 1)]) false false
  { s with pair := { s.pair with aliveOut := 3 } }

/-- The pair is out of step: IN_STEP becomes WAITING, PAIRED becomes ALONE. -/
def outOfStep (s : State) : State :=
  match pairState s with
  | 3 => toAlone s
  | 4 => leaveStep s 7
  | _ => s

/-- Divergence at frame g (R309). -/
def diverge (s : State) (g : Nat) : State :=
  let s := raise (bumpO s Obj.pair.divergences) 130 noDetail
  let s := { s with pair := { s.pair with waitAuto := isActive s } }
  outOfStep (setO s Obj.pair.lastDiverge g)

/-- Units that a group may swap or reshape are waiting (R316). -/
def reshapesWait (s : State) : Bool :=
  (committed s).any (fun g => g.all.any (fun c => c.object == Obj.prog.swapTo
    || (keyIndex c.object == 0x4100 && keySub c.object == 5)))

/-- A resync may start here (R316). -/
def resyncOk (s : State) : Bool :=
  pairState s == 1 && stageOf s == 3 && s.pair.resyncAsked && s.pair.versionsOk && (pairLink s).isSome && !reshapesWait s

/-- The source accepts: S is the running frame, CONFIG begins (R316, R317). -/
def startResync (s : State) : State :=
  if !resyncOk s then s
  else
    let s := setMany s [(Obj.pair.state, 2), (Obj.pair.resyncPhase, 1), (Obj.pair.resyncBytes, 0), (Obj.pair.catchupLag, 0)]
    let s := { s with pair := { s.pair with
      resyncAsked := false, agreeing := 0 } }
    let s := sendCtrl (raise s 132 noDetail) 2 (natBE 1 1 ++ natBE s.frame 6)
    sendPiece s (configPiece s)

/-- A resync starts by itself: RESYNC_AUTO is 1 and has not stopped after three aborts (R316, R319). -/
def autoResync (s : State) : State :=
  if getO s Obj.pair.resyncAuto = 1 ∧ !s.pair.autoStopped ∧ !s.pair.waitAuto then startResync s else s

/-- RESYNC is written 1 (R319, R324). -/
def askedResync (s : State) : State := startResync { s with pair := { s.pair with autoStopped := false, aborts := [] } }

/-- The running resync aborts at this unit (R319, R320); a target that has lost its source is ORPHAN, any other JOINING. -/
def abortResync (s : State) (cause : Nat) : State :=
  let st := pairState s
  if st ≠ 2 ∧ st ≠ 6 then s
  else
    let times := (s.rst.upFrames :: s.pair.aborts).filter (fun f => decide (s.rst.upFrames < f + 360000))
    let s := { s with pair := { s.pair with aborts := times, autoStopped := s.pair.autoStopped || decide (3 ≤ times.length) } }
    let s := setMany (bumpO s Obj.pair.resyncAborts) [(Obj.pair.abortCause, cause), (Obj.pair.resyncPhase, 0)]
    let s := raise s 134 noDetail
    if st = 2 then toAlone s else leaveStep s (if cause = 1 then 9 else 5)

/-- This unit aborts and tells its partner. -/
def abortBoth (s : State) (cause : Nat) : State :=
  if pairState s = 2 ∨ pairState s = 6 then sendCtrl (abortResync s cause) 3 (natBE cause 1) else s

/-- FORCE_ACTIVE at an orphan: ALONE, and BOOT_SLOT is loaded (R320). -/
def forceActive (s : State) : State := if pairState s = 9 then commitBoot (becomeActive s 1) else s

/-- The roles swap at a frame; the paths stay (R314). -/
def swapRoles (s : State) : State :=
  let paths := s.pair.pathsSent
  if pairState s = 3 then
    let s := setMany s [(Obj.pair.role, 1), (Obj.pair.state, 4)]
    raise (setDrive { s with pair := { s.pair with pullsRole := false, aliveOut := 2, pathsSent := paths } } false) 129 noDetail
  else if pairState s = 4 then
    let s := setMany s [(Obj.pair.role, 0), (Obj.pair.state, 3)]
    raise (setDrive { s with pair := { s.pair with pullsRole := true, roleHigh := false, aliveOut := 1, pathsSent := paths } } true) 129
      noDetail
  else s

/-- PARTNER_RESET: a cold reset of the partner is requested over the pair link (Table 13.12). -/
def requestPartnerReset (s : State) : State := if isActive s then sendCtrl s 6 [] else s

end Sys2Proof.Machine
end

