-- ==== Sys2Proof/Machine/Apply.lean ====
section
/-! DEFINITION. Which values a write may carry (check 11 of Table 2.13) and what a written value does when it takes effect
(R31), object by object, with the order inside one frame (R94, R102, R115, R139). -/

namespace Sys2Proof.Machine

/-! ## Values a write may carry (check 11) -/

/-- A number among others. -/
def oneOf (v : Int) (l : List Nat) : Bool := l.any (fun x => v == (x : Int))

/-- A stream's settings may be written only while ENABLE is 0 and no waiting group changes it (R258). -/
def streamFree (s : State) (i e : Nat) : Bool :=
  getO s (okey i e 1) == 0 && !(committed s).any (fun g => g.all.any (fun c => c.object == okey i e 1))

/-- The limits of a stream with one of its settings changed (R245, R246, Table 11.6). -/
def streamOk (s : State) (i e sub : Nat) (v : Int) : Bool :=
  let now (x : Nat) : Nat := if x = sub then v.toNat else natO s (okey i e x)
  let first := if sub = 2 then decide (now 2 + now 3 ≤ 4096) else true
  let count := decide (now 3 ≤ maxChannels s.rst.rate (now 4) (now 5)) && decide (now 2 + now 3 ≤ 4096)
  let offset := !(i == 0x2A00) || s.rst.rate != 0 || decide (now 13 ≤ 960)
  streamFree s i e && first && (if sub = 3 ∨ sub = 4 ∨ sub = 5 then count else true) && (if sub = 13 then offset else true)

/-- The domain of a block that a write enables is ON (R357): 16 Catchment, 17 the links and media ports. -/
def domainOn (s : State) (d : Nat) : Bool := getO s (Obj.pwr.state d) == 0

/-- A Rill route may take a setting, or be enabled (R111, R126). DIRECT writes on their way to it count. -/
def rillOk (s : State) (n sub : Nat) (v : Int) : Bool :=
  let coming := (s.slu.direct.filter (fun d => d.change.object == Obj.rill.enable n)).getLast?
  let enabled := match coming with
    | some d => d.change.value == .num 1
    | none => getO s (Obj.rill.enable n) == 1
  let slots := if s.rst.rate = 0 then 32 else 16
  let others := (List.range 256).any (fun m => m != n && rillOut s m == rillOut s n
    && (match (s.slu.direct.filter (fun d => d.change.object == Obj.rill.enable m)).getLast? with
        | some d => d.change.value == .num 1
        | none => getO s (Obj.rill.enable m) == 1))
  match sub with
  | 1 => v == 0 || (!others && decide (natO s (Obj.rill.inSlot n) < slots) && decide (natO s (Obj.rill.outSlot n) < slots))
  | 3 => !enabled && decide (v < slots)
  | 5 => !enabled && decide (v < slots)
  | _ => !enabled

/-- A region register of a DMA channel as R392 and R393 allow it: whole multiples of 4,096, and no write right over memory the
ledger has allocated but weight buffers. -/
def regionOk (s : State) (e sub : Nat) (v : Int) : Bool :=
  let b := if sub = 1 then v.toNat else natO s (Obj.reg.base e)
  let z := if sub = 2 then v.toNat else natO s (Obj.reg.size e)
  let r := if sub = 3 then v.toNat else natO s (Obj.reg.rights e)
  (sub == 3 || v % 4096 == 0) && (r / 2 % 2 == 0 || z == 0 || writable s b z)

/-- A reference input's format fits its kind (Table 12.5). -/
def formatOk (e : Nat) (v : Int) : Bool :=
  if e = 2 then decide (v ≤ 5) else if e = 3 ∨ e = 4 ∨ e = 5 ∨ e = 7 then decide (v ≤ 1) else v == 0

/-- The rules of the home chapters on single values, beyond the type and the range of the declaration. (DEDUCED, log entry 32.) -/
def homeOk (s : State) (k : Nat) (v : Int) : Bool :=
  let e := keyElem k
  match keyIndex k, keySub k with
  | 0x1200, 1 => (decide (v % 64 ≤ 25) || v % 64 == 62 || v % 64 == 63) && v / 64 % 256 == 0
  | 0x1230, 19 => oneOf v [0, 1]
  | 0x1230, _ => oneOf v [0, 1, 2]
  | 0x1300, 65 => decide (v < 16) || v == 255
  | 0x1400, 1 => v == 0 || (getO s Obj.inj.window == 2 && (!actEvents.contains e || actInstance e (natO s (Obj.inj.detail e))))
  | 0x1400, 2 => getO s (Obj.inj.arm e) == 0
  | 0x1400, 3 => getO s (Obj.inj.arm e) == 0
  | 0x1400, 7 => getO s (Obj.inj.arm e) == 0
  | 0x1600, 6 => v == 0 || getO s (Obj.ifc.gultinEnable (10 + v.toNat)) == 1
  | 0x1600, 7 => getO s (Obj.dma.state e) != 1
  | 0x1610, sub => regionOk s e sub v
  | 0x1620, 3 => natO s Obj.fw.target != natO s Obj.fw.running
  | 0x1620, 4 => v % 65536 == 0
  | 0x1620, 10 => !handoverNames s v || handoverOk s
  | 0x2010, 3 => formatOk e v
  | 0x2010, 6 => decide (v ≤ getO s (Obj.ref.hardLimit e))
  | 0x2010, 7 => decide (getO s (Obj.ref.softLimit e) ≤ v)
  | 0x2800, 1 => e == 4 || decide (4 < e) || v == 0 || domainOn s 17
  | 0x2800, 6 => oneOf v [0, 1, 255]
  | 0x2900, 1 => true
  | 0x2900, sub => streamOk s 0x2900 e sub v
  | 0x2A00, 1 => true
  | 0x2A00, sub => streamOk s 0x2A00 e sub v
  | 0x3000, 1 => v == 0 || domainOn s 17
  | 0x3000, 2 => oneOf v [1, 2, 4, 8] && decide (getO s (Obj.link.minWidth e) ≤ v)
  | 0x3000, 3 => oneOf v [1, 2, 4, 8] && decide (v ≤ getO s (Obj.link.width e))
  | 0x3010, 14 => v == 0 || laneRole s (e / 10) (e % 10) == 1 || laneRole s (e / 10) (e % 10) == 4
  | 0x3800, 8 => v == 0 || resyncOk s
  | 0x3800, 10 => v == 0 || pairState s == 9
  | 0x4000, 5 => !slotBusy s (natO s Obj.prog.storeSelect)
  | 0x4000, 6 => v % 65536 == 0
  | 0x4000, 8 => !swapPending s none
  | 0x4000, 13 => decide (v < 2) && v == getO s Obj.prog.stagedSlot && v != getO s Obj.prog.activeSlot
  | 0x4000, 14 => oneOf v [0, 1, 255]
  | 0x4100, 5 => decide (64 ≤ v) && decide (v * getO s (Obj.eddy.channels e) ≤ 2147483648)
  | 0x4100, sub => !(decide (10 ≤ sub) && decide (sub ≤ 25)) || decide ((2 * frameSamples s : Nat) ≤ v)
  | 0x4200, 1 => sourceOk s.rst.rate v.toNat
  | 0x4210, 6 => true
  | 0x4210, sub => rillOk s e sub v
  | 0x4300, 7 => s.slu.openSession != 0
  | 0x4300, 8 => s.slu.openSession != 0
  | 0x5000, 1 => decide (v < 1024) || v == 65535
  | 0x5100, 2 => v == 0 || domainOn s 16
  | 0x5200, 1 => v == 0 || domainOn s 16
  | 0x5200, 24 => oneOf v [0, 1]
  | 0x5200, 27 => oneOf v [0, 64]
  | 0x5300, 1 => v == 0 || domainOn s 16
  | 0x5300, 8 => v % 65536 == 0
  | 0x5300, 64 => v == 0 || domainOn s 16
  | _, _ => true

/-- Check 11 for a number: its type, the range of its declaration, and its home chapter. -/
def numOk (s : State) (d : Decl) (k : Nat) (v : Int) : Bool :=
  d.typ.admits v && decide (d.min ≤ v) && decide (v ≤ d.max) && homeOk s k v

/-- The staging buffer of a beam: the one that is not live, nor coming to be live in a transition (R193, R194); for a beam whose side to
come reads none, the one WEIGHT_SELECT does not name. (DEDUCED, log entry 28.) -/
def stagingBuffer (s : State) (b : Nat) : Nat :=
  let c := beamAim (beamOf s b)
  if c.mode = 1 ∧ c.buffer < 2 then 1 - c.buffer else 1 - natO s (Obj.beam.weightSelect b)

/-- A side that a transition leaves, or will leave, reads a buffer. -/
def outgoingReads (v : BeamSt) (buf : Nat) : Bool :=
  (match v.fading with
    | some (old, new, _, _) => old.reads buf || (!v.next.isEmpty && new.reads buf)
    | none => !v.next.isEmpty && v.live.reads buf)

/-- A staging write is answered NAK BUSY (R194). -/
def stagingBusy (s : State) (b : Nat) : Bool :=
  let st := stagingBuffer s b
  !hasBuffers s b
    || (committed s).any (fun g => g.all.any (fun c => c.object == Obj.beam.weightSelect b && c.value == .num st))
    || outgoingReads (beamOf s b) st

/-- How far bytes of a chunk may reach from its offset object: STORE_LENGTH (R91), LENGTH (R398), a buffer's size. None for a
BLOB that is no chunk. -/
def chunkRoom (s : State) (k : Nat) : Option Nat :=
  match keyIndex k, keySub k with
  | 0x4000, 7 => some (natO s Obj.prog.storeLength - natO s Obj.prog.storeOffset)
  | 0x1620, 5 => some (natO s Obj.fw.length - natO s Obj.fw.offset)
  | 0x5300, 9 => some (524288 - natO s (Obj.beam.stageOffset (keyElem k)))
  | _, _ => none

/-- A segment of a BLOB that is answered NAK RANGE as it arrives (R91, R194, R398). `len` is the length of the series with it. -/
def segmentRefused (s : State) (k len : Nat) : Bool :=
  let busy : Bool := match keyIndex k, keySub k with
    | 0x4000, 7 => slotBusy s (natO s Obj.prog.storeSelect)
    | 0x1620, 5 => natO s Obj.fw.target == natO s Obj.fw.running
    | _, _ => false
  busy || decide (65536 < len) || (chunkRoom s k).any (fun n => decide (n < len))

/-- A whole BLOB value has the length and the contents its table asks for. -/
def blobOk (k : Nat) (b : List Byte) : Bool :=
  match keyIndex k, keySub k with
  | 0x5000, 10 => b.length == 256
  | 0x5200, 7 => b.length == 64 && b.all (fun x => decide (x.toNat ≤ 15))
  | 0x5300, 5 => b.length == 49152
  | 0x5300, 71 => b.length == 57344
  | 0x5300, 72 => b.length == 57344
  | _, _ => true

/-! ## What a value does -/

/-- A setting of a transmit stream changes its SDP (R251). -/
def setStream (s : State) (k : Nat) (v : Int) : State :=
  if getO s k = v then s
  else
    let s := setO s k v
    if keyIndex k = 0x2900 then bumpO s (Obj.tx.sdpVersion (keyElem k)) else s

/-- A program object is written into cell memory, after the cell's schedule when that runs (R69), and the control complex keeps a copy
of RW and WO ones (R55, R109). -/
def setProg (s : State) (k : Nat) (v : Int) : State :=
  match s.prog.running.bind (fun im => imageDecl im (keyIndex k) (keyElem k) (keySub k)) with
  | none => s
  | some d =>
    let s := { s with prog := { s.prog with copies := assocPut s.prog.copies k v } }
    let c := (d.place (keyElem k)).1
    if cellBusy s c then putLate s c (.object k v) else progWrite s d (keyElem k) v

/-- The saved value of a program object, for a boot load whose values were saved under the same program hash (R93). -/
def savedFor (s : State) (im : Image) (boot : Bool) (k : Nat) : Option Int :=
  if boot ∧ s.ctl.savedHash = im.hash then assocGet s.ctl.savedNum k else none

/-- SWAP_TO takes effect: the staged image swaps in (R94). -/
def applySwapTo (s : State) (f : Nat) (v : Int) (boot : Bool) : State :=
  match s.prog.staged with
  | none => s
  | some im => setO (swapTo s f v.toNat im (savedFor s im boot)) Obj.prog.swapTo v

/-- A number takes effect at frame f. WO objects act and store nothing. -/
def applyNum (s : State) (f k : Nat) (v : Int) (boot : Bool) : State :=
  let e := keyElem k
  let sub := keySub k
  match keyIndex k with
  | 0x1110 => if v = 1 then freeSession s (e + 1) else s
  | 0x1200 => if sub = 1 then applyReset s (f + 1) v.toNat else setO s k v
  | 0x1230 => applyPower s (sub - 1) v
  | 0x1300 => match sub with
    | 2 => clearSticky s e
    | 5 => clearCount s e
    | 68 => if v = 1 then clearAllEvents s else s
    | _ => setO s k v
  | 0x1380 => if sub = 4 then (if v = 1 then flushQueue s e else s) else setO s k v
  | 0x1400 => match sub with
    | 0 => applyWindow s v
    | 1 => applyArm s (f + 1) e v
    | _ => setO s k v
  | 0x1500 => if sub = 8 then (if v = 1 then doShutdown (saveAll s) else s) else setO s k v
  | 0x1600 => if sub = 7 then (if v = 1 then dmaStart s e else s) else setO s k v
  | 0x1620 => match sub with
    | 3 => setO (unverifyImage s (natO s Obj.fw.target)) k v
    | 6 => if v = 1 then beginFwVerify s else s
    | 10 => beginHandover s v
    | _ => setO s k v
  | 0x2010 => match sub with
    | 2 => applyPriority s e v
    | 10 => applyPhaseTrim s f e v
    | _ => recheckEntry (setO s k v) e
  | 0x2100 => match sub with
    | 1 => applyPtpEnable s 0 v
    | 68 => if v = 1 then applyRebase s f else s
    | 75 => if v = 1 then clearDegrade s else s
    | _ => setO s k v
  | 0x2101 => if sub = 1 then applyPtpEnable s 1 v else setO s k v
  | 0x2200 => if sub = 4 then applyMediaOffset s f v else setO s k v
  | 0x2800 => match sub with
    | 1 => if e ≤ 4 then applyPortEnable s e v else setO s k v
    | 2 => if e ≤ 4 then applySpeed s e v else setO s k v
    | 6 => applyRingBlock s e v
    | _ => setO s k v
  | 0x2900 => if sub = 1 then applyTxEnable s f e v else setStream s k v
  | 0x2A00 => if sub = 1 then applyRxEnable s f e v else setStream s k v
  | 0x3000 => match sub with
    | 1 => applyLinkEnable s e v
    | 9 => if v = 1 then retrainLink s e else s
    | _ => setO s k v
  | 0x3010 => if sub = 14 then (if v = 1 then retrainLane s (e / 10) (e % 10) else s) else setO s k v
  | 0x3800 => match sub with
    | 8 => if v = 1 then askedResync s else s
    | 9 => if v = 1 then swapRoles s else s
    | 10 => if v = 1 then forceActive s else s
    | 12 => if v = 1 then requestPartnerReset s else s
    | _ => setO s k v
  | 0x4000 => match sub with
    | 5 => setO (unverify s (natO s Obj.prog.storeSelect)) k v
    | 8 => if v = 1 then { s with prog := { s.prog with verifying := some (natO s Obj.prog.storeSelect) } } else s
    | 13 => applySwapTo s f v boot
    | _ => setO s k v
  | 0x4010 => setO s k (clearSeen (natO s k) v.toNat : Nat)
  | 0x4100 => if getO s (Obj.eddy.state e) = 0 then s else match sub with
    | 5 => eddyLength s f e v.toNat
    | 26 => eddyMark s f e v.toNat
    | _ => setO s k v
  | 0x4200 => match sub with
    | 1 => applySource s f e v.toNat
    | 2 => applyGain s e v
    | 6 => applyLink s e v.toNat
    | _ => setO s k v
  | 0x4210 => match sub with
    | 1 => applyRillEnable (setO s (Obj.rill.origin e) 0) e v
    | 6 => applyRillGain (setO s (Obj.rill.origin e) 0) e v
    | _ => setO (setO s (Obj.rill.origin e) 0) k v
  | 0x4300 => if sub = 8 then (if v = 1 then discardOpen s else s) else setO s k v
  | 0x5000 => if 6 ≤ sub ∧ sub ≤ 8 then setO s k v else applyCatchNum s f k v
  | 0x5100 => applyCatchNum s f k v
  | 0x5200 => if sub ≤ 6 then applyCatchNum s f k v else setO s k v
  | 0x5300 => if sub = 8 ∨ sub = 73 ∨ sub = 75 then setO s k v else applyCatchNum s f k v
  | i => if 0x6000 ≤ i then setProg s k v else setO s k v

/-- A whole BLOB takes effect at frame f: chunks are copied where they belong (R91, R194, R398). -/
def applyBlob (s : State) (f k : Nat) (b : List Byte) : State :=
  match keyIndex k, keySub k with
  | 0x4000, 7 =>
    let slot := natO s Obj.prog.storeSelect
    flashPut (unverify s slot) (storeBase slot + natO s Obj.prog.storeOffset) b
  | 0x1620, 5 => firmwareChunk s b
  | 0x5300, 9 =>
    let n := keyElem k
    let buf := stagingBuffer s n
    let old := bufferOf s n buf
    let off := natO s (Obj.beam.stageOffset n)
    setBuffer s n buf (old.take off ++ b ++ old.drop (off + b.length))
  | 0x5000, _ => applyCatchBlob s f k b
  | 0x5200, _ => applyCatchBlob s f k b
  | 0x5300, _ => applyCatchBlob s f k b
  | _, _ => setB s k b

def applyChange (s : State) (f : Nat) (c : Change) (boot : Bool) : State :=
  match c.value with
  | .num v => applyNum s f c.object v boot
  | .bytes b => applyBlob s f c.object b

/-! ## The changes of one frame boundary -/

/-- The place of a change among those of one group: the swap first (R94), then program objects; link groups and settings of a
destination before its source and gain (R115); a length before taps and mark (R102). -/
def rank (k : Nat) : Nat :=
  match keyIndex k, keySub k with
  | 0x4000, 13 => 0
  | 0x4100, 5 => 2
  | 0x4100, 26 => 4
  | 0x4100, _ => 3
  | 0x4200, 6 => 2
  | 0x4200, 7 => 2
  | 0x4200, 1 => 4
  | 0x4200, 2 => 5
  | 0x4200, _ => 3
  | i, _ => if 0x6000 ≤ i then 1 else 6

/-- Changes in the order in which they apply. -/
def ranked (l : List Change) : List Change := (List.range 7).flatMap (fun r => l.filter (fun c => rank c.object == r))

/-- Catchment objects whose changes are placed at commit frames. -/
def isCatch (k : Nat) : Bool := decide (0x5000 ≤ keyIndex k) && decide (keyIndex k ≤ 0x5300)

/-- What a key holds now, in the form of a change. -/
def holdsNow (s : State) (c : Change) : Change :=
  match c.value with
  | .num _ => ⟨c.object, .num (getO s c.object)⟩
  | .bytes _ => ⟨c.object, .bytes (getB s c.object)⟩

/-- The changes of a set take effect at frame f, one after another; those of a block under reset are held (R53, R141). Answers
the state and how many were held. -/
def applyEach (s : State) (f : Nat) (boot : Bool) : List Change → State × Nat
  | [] => (s, 0)
  | c :: l =>
    match (if keyBlocked s c.object then blockOfKey s c.object else none) with
    | some b =>
      let (s, n) := applyEach { s with slu := { s.slu with heldBlock := s.slu.heldBlock ++ [⟨b, 0, 0, c⟩] } } f boot l
      (s, n + 1)
    | none => applyEach (applyChange s f c boot) f boot l

/-- A set of changes takes effect together at frame f (R139). -/
def applySet (s : State) (f : Nat) (boot : Bool) (l : List Change) : State × Nat :=
  let l := ranked l
  let before := (l.filter (fun c => isCatch c.object && !keyBlocked s c.object)).map (holdsNow s)
  let (s, n) := applyEach s f boot l
  (if before.isEmpty then s else finishCatch s f before, n)

end Sys2Proof.Machine
end

