-- ==== Sys2Proof/Machine/Sluice.lean ====
section
/-! DEFINITION. Sluice: the checks of a commit (Table 6.3), preparation bounds (Tables 6.2 and 9.1), room (R96, R103, R187),
the split of a sequential commit (R142), the test at F - 2 and the application of groups and DIRECT writes (R135 to R144). -/

namespace Sys2Proof.Machine

/-! ## The state as earlier groups will leave it (R137) -/

/-- Changes of the DIRECT writes on their way and of every committed group, in the order in which they apply. -/
def comingChanges (s : State) : List Change := s.slu.direct.map (·.change) ++ (inOrder (committed s)).flatMap Group.all

/-- The slot a set swaps in. -/
def swapOf (l : List Change) : Option Int := numIn l Obj.prog.swapTo

/-- The image that a committed group will swap in, before the changes checked now apply. -/
def comingImage (s : State) : Option Image := if (swapOf (comingChanges s)).isSome then s.prog.staged else none

/-- The changes that apply with a waiting swap or after it; all of them without one. -/
def afterSwap (s : State) : List Change :=
  if (comingImage s).isNone then comingChanges s
  else ((inOrder (committed s)).dropWhile (fun g => (swapOf g.all).isNone)).flatMap Group.all

/-- An Eddy object as a swap leaves it: as the image declares it, while a carried ring keeps what it holds (R95, R99). -/
def swappedNum (s : State) (im : Image) (k : Nat) : Int :=
  let d := keyElem k
  match im.eddy.find? (fun x => x.id == d) with
  | none => 0
  | some x =>
    if im.carry.any (fun c => c.kind == 4 && c.target == d) && getO s (Obj.eddy.state d) != 0 then getO s k
    else match keySub k with
      | 1 => 1
      | 2 => (x.location : Nat)
      | 3 => (x.writeCell / 8 : Nat)
      | 4 => (x.channels : Nat)
      | 5 => (x.length : Nat)
      | sub => if 10 ≤ sub ∧ sub ≤ 25 then ((x.taps.getD (sub - 10) ⟨0, 0, 0⟩).age : Nat) else 0

/-- The value of a key once every committed group has applied. -/
def comingNum (s : State) (k : Nat) : Int :=
  match comingImage s with
  | some im => if keyIndex k = 0x4100 then (numIn (afterSwap s) k).getD (swappedNum s im k) else (numIn (comingChanges s) k).getD (getO s k)
  | none => (numIn (comingChanges s) k).getD (getO s k)

/-- The value of a key once a set of changes has applied as well. -/
def afterNum (s : State) (l : List Change) (k : Nat) : Int := (numIn l k).getD (comingNum s k)

/-- The Eddy descriptors there will be once every committed group has applied. -/
def comingEddies (s : State) : List Nat :=
  match comingImage s with
  | some im => im.eddy.map (·.id)
  | none => (eddyIds s).filter (fun d => getO s (Obj.eddy.state d) != 0)

/-- A set writes a key. -/
def writes (l : List Change) (k : Nat) : Bool := l.any (fun c => c.object == k)

def hasCatch (l : List Change) : Bool := l.any (fun c => isCatch c.object)

/-- The value of a key on which a set of changes works: a swap in the set comes first (R94). -/
def baseNum (s : State) (l : List Change) (k : Nat) : Int :=
  match (swapOf l).bind (fun _ => s.prog.staged) with
  | some im => if keyIndex k = 0x4100 then swappedNum s im k else comingNum s k
  | none => comingNum s k

/-- Descriptors whose LENGTH a set changes, with the new length. -/
def newLengths (s : State) (l : List Change) : List (Nat × Nat) :=
  (elemsOf l (fun i sub => i == 0x4100 && sub == 5)).filterMap fun d =>
    match numIn l (Obj.eddy.length d) with
    | some v => if v = baseNum s l (Obj.eddy.length d) then none else some (d, v.toNat)
    | none => none

/-- Beams whose weight set a group reshapes (R203). -/
def reshapedBeams (l : List Change) : List Nat :=
  elemsOf l (fun i sub => i == 0x5300 && (sub == 1 || sub == 2 || sub == 5 || sub == 6))

/-- Beams that a set makes ADAPTIVE. -/
def newAdaptive (s : State) (l : List Change) : List Nat :=
  (elemsOf l (fun i sub => i == 0x5300 && sub == 2)).filter
    (fun b => numIn l (Obj.beam.mode b) == some 1 && comingNum s (Obj.beam.mode b) != 1)

/-! ## Check 3: rules that span objects -/

/-- Link groups after a set: at most 16 members and exactly one lead each (R123). -/
def linksOk (s : State) (l : List Change) : Bool :=
  if !l.any (fun c => keyIndex c.object == 0x4200 && (keySub c.object == 6 || keySub c.object == 7)) then true
  else
    let touched := (comingChanges s ++ l).filter (fun c => keyIndex c.object == 0x4200 && keySub c.object == 6)
    let ds := ((s.obj.filter (fun e => keyIndex e.1 == 0x4200 && keySub e.1 == 6)).map (fun e => keyElem e.1)
      ++ touched.map (fun c => keyElem c.object)).eraseDups
    let held := (ds.map (fun d => (d, afterNum s l (Obj.dest.linkGroup d)))).filter (fun e => e.2 != 0)
    (held.map (·.2)).eraseDups.all fun g =>
      let ms := held.filter (fun e => e.2 == g)
      decide (ms.length ≤ 16) && ms.countP (fun e => afterNum s l (Obj.dest.linkLead e.1) == 1) == 1

/-- A program object that a swap's group writes is declared by the incoming image, writable, and takes the value (R94). -/
def incomingOk (im : Image) (c : Change) : Bool :=
  !(decide (0x6000 ≤ keyIndex c.object) && decide (keyIndex c.object ≤ 0x9FFF))
    || (match (imageDecl im (keyIndex c.object) (keyElem c.object) (keySub c.object)).bind DictDecl.decl, c.value with
        | some d, .num v => d.effect == .sluice && (d.access == .rw || d.access == .wo) && d.typ.admits v
        | _, _ => false)

/-- A swap names the staged slot, not the active one, and its blocks' domains are ON (R94, R357). (DEDUCED, log entry 67.) -/
def swapOk (s : State) (l : List Change) : Bool :=
  match swapOf l with
  | none => true
  | some v =>
    decide (v < 2) && v == getO s Obj.prog.stagedSlot && v != getO s Obj.prog.activeSlot
      && (match s.prog.staged with
          | none => false
          | some im => l.all (incomingOk im) && im.code.all (fun c => afterNum s l (Obj.pwr.target (c.1 / 8)) == 0)
              && (im.eddy.all (fun d => d.location == 0) || afterNum s l (Obj.pwr.target 18) == 0))

/-- Tap ages against the length in force at the frame of the group (R100, R102). -/
def tapsOk (s : State) (l : List Change) : Bool :=
  l.all fun c =>
    let d := keyElem c.object
    !(keyIndex c.object == 0x4100 && decide (10 ≤ keySub c.object) && decide (keySub c.object ≤ 25))
      || (match c.value with
          | .num v => decide (v < (numIn l (Obj.eddy.length d)).getD (baseNum s l (Obj.eddy.length d)))
          | .bytes _ => true)

/-- FINE_GROUPS and FINE_FIRST while MODE is 1 (R170). -/
def fineOk (s : State) (l : List Change) : Bool :=
  if !(writes l Obj.corr.mode || writes l Obj.corr.fineGroups || writes l Obj.corr.fineFirst || writes l Obj.chan.groupEnable)
      || afterNum s l Obj.corr.mode != 1 then true
  else
    let gs := groupList (afterNum s l Obj.corr.fineGroups).toNat
    decide (1 ≤ gs.length) && decide (gs.length ≤ 16)
      && gs.all (fun g => (afterNum s l Obj.chan.groupEnable).toNat.testBit g)
      && decide (afterNum s l Obj.corr.fineFirst ≤ 64)

/-- Beams whose WEIGHT_SELECT fails R195: the CRC does not match (true), or the beam will not be ADAPTIVE or has no CRC.
(DEDUCED, log entry 66.) -/
def weightsBad (s : State) (l : List Change) : List (Nat × Bool) :=
  (elemsOf l (fun i sub => i == 0x5300 && sub == 6)).filterMap fun b =>
    match numIn l (Obj.beam.weightSelect b) with
    | none => none
    | some v =>
      if afterNum s l (Obj.beam.mode b) ≠ 1 then some (b, false)
      else if v = comingNum s (Obj.beam.weightSelect b) then none
      else match numIn l (Obj.beam.weightCrc b) with
        | none => some (b, false)
        | some c =>
          let bytes := bufferOf s b v.toNat
          let bytes := if bytes.isEmpty then List.replicate 524288 0 else bytes
          if (crc32 bytes : Int) = c then none else some (b, true)

/-- Streams after a set: at most 4,096 transmit channels, no overlap of receive streams (R246, R252). -/
def streamsOk (s : State) (l : List Change) : Bool :=
  let on (k : Nat → Nat) : List Nat := (List.range 512).filter (fun n => afterNum s l (k n) == 1)
  (!l.any (fun c => keyIndex c.object == 0x2900)
      || decide ((on Obj.tx.enable).foldl (fun a n => a + afterNum s l (Obj.tx.channels n)) 0 ≤ 4096))
    && (!l.any (fun c => keyIndex c.object == 0x2A00)
      || (on Obj.rx.enable).all fun n => (on Obj.rx.enable).all fun m =>
          let first (x : Nat) := afterNum s l (Obj.rx.firstChannel x)
          let last (x : Nat) := first x + afterNum s l (Obj.rx.channels x)
          n == m || decide (last n ≤ first m) || decide (last m ≤ first n))

/-- A domain that a set takes out of ON is in use at its frame (R358). -/
def domainBusy (s : State) (l : List Change) (d : Nat) : Bool :=
  let images := s.prog.running.toList ++ (if (swapOf (comingChanges s ++ l)).isSome then s.prog.staged.toList else [])
  if d < 16 then
    images.any (fun im => im.code.any (fun c => c.1 / 8 == d) || im.clusters.any (fun c => c.1 == d)
      || im.eddy.any (fun e => e.writeCell / 8 == d))
      || (eddyIds s).any (fun e => getO s (Obj.eddy.state e) != 0 && natO s (Obj.eddy.homeCluster e) == d)
  else if d = 16 then
    afterNum s l Obj.chan.groupEnable != 0 || (List.range 256).any (fun b => afterNum s l (Obj.beam.enable b) == 1)
  else if d = 17 then
    (List.range 6).any (fun x => getO s (Obj.link.enable x) == 1) || (List.range 4).any (fun p => getO s (Obj.port.enable p) == 1)
  else
    s.prog.running.isSome || (swapOf (comingChanges s ++ l)).isSome || afterNum s l (Obj.pwr.target 16) != 2
      || (eddyIds s).any (fun e => getO s (Obj.eddy.state e) != 0 && getO s (Obj.eddy.location e) == 1)

/-- Power targets (R358), and blocks that a set enables in a domain that will not be ON (R357). -/
def powerOk (s : State) (l : List Change) : Bool :=
  (List.range 19).all (fun d => match numIn l (Obj.pwr.target d) with
    | none => true
    | some v => v == 0 || !domainBusy s l d)
    && (afterNum s l (Obj.pwr.target 16) == 0
      || !(l.any (fun c => (c.object == Obj.chan.groupEnable && c.value != .num 0)
        || ((c.object == Obj.corr.enable || c.object == Obj.scan.scanEnable
          || (keyIndex c.object == 0x5300 && keySub c.object == 1)) && c.value == .num 1))))

/-- Check 3 of Table 6.3, weight CRCs apart: a re-base needs EPOCH 2 (R269), a role swap a pair in step (R314). -/
def spansOk (s : State) (l : List Change) : Bool :=
  linksOk s l && swapOk s l && tapsOk s l && fineOk s l && streamsOk s l && powerOk s l
    && (numIn l Obj.tb.rebase != some 1 || getO s Obj.clk.epoch == 2)
    && (numIn l Obj.pair.roleSwap != some 1 || pairState s == 3)

/-! ## Check 5: what waits already -/

/-- A committed group reshapes the same descriptor or weight set, or swaps the program when this one does. -/
def collides (s : State) (l : List Change) : Bool :=
  let w := comingChanges s
  (swapOf l).isSome && (swapOf w).isSome
    || (newLengths s l).any (fun d => writes w (Obj.eddy.length d.1))
    || (reshapedBeams l).any (fun b => (reshapedBeams w).contains b)

/-! ## Check 6: room -/

/-- The incoming image's rings that are newly allocated at a location: those the carry map does not keep. -/
def imageRings (s : State) (im : Image) : List EddyDecl :=
  im.eddy.filter (fun d => d.location == 1
    && !(im.carry.any (fun c => c.kind == 4 && c.target == d.id) && getO s (Obj.eddy.state d.id) != 0))

/-- Bytes of a ring of `len` sample times in the state on which a set works. -/
def ringBytes (s : State) (l : List Change) (d len : Nat) : Nat := len * (baseNum s l (Obj.eddy.channels d)).toNat * 4

/-- The ring of a descriptor lies in HBM, in the state on which a set works. -/
def inHbm (s : State) (l : List Change) (d : Nat) : Bool := baseNum s l (Obj.eddy.location d) == 1

/-- Active slots and look-back bytes after a set. -/
def activeAfter (s : State) (l : List Change) : Nat := 128 * (groupList (afterNum s l Obj.chan.groupEnable).toNat).length

/-- The set retunes a correlator that will be enabled (R172). -/
def retuneAfter (s : State) (l : List Change) : Bool :=
  afterNum s l Obj.corr.enable == 1
    && l.any (fun c => retunes c.object && (match c.value with
      | .num v => v != comingNum s c.object
      | .bytes _ => false))

/-- Size of a snapshot slot under the settings that `num` gives. -/
def slotUnder (num : Nat → Int) : Nat :=
  let mode := (num Obj.corr.mode).toNat
  slotSize mode (groupList (num (if mode = 1 then Obj.corr.fineGroups else Obj.chan.groupEnable)).toNat).length

/-- SLOT_BYTES once every committed group has applied. -/
def comingSlot (s : State) : Nat :=
  if comingNum s Obj.corr.enable = 1 ∧ (comingChanges s).any (fun c => retunes c.object) then slotUnder (comingNum s)
  else newestSlot s

/-- Bytes of new snapshot slots when a retune changes their size (R181). -/
def newSlotBytes (s : State) (l : List Change) : Nat :=
  let size := slotUnder (afterNum s l)
  if size = comingSlot s then 0 else 2 * size

/-- Bytes of HBM that the preparation of a set allocates (Table 8.5), weight buffers apart. -/
def prepBytes (s : State) (l : List Change) : Nat :=
  ((newLengths s l).filter (fun d => inHbm s l d.1)).foldl (fun a d => a + ringBytes s l d.1 d.2) 0
    + (match swapOf l, s.prog.staged with
        | some _, some im => (imageRings s im).foldl (fun a d => a + d.length * d.channels * 4) 0
        | _, _ => 0)
    + (if retuneAfter s l then 2 * (afterNum s l Obj.corr.l).toNat * activeAfter s l * 384 + newSlotBytes s l else 0)

/-- Beams that need new weight buffers (R193). -/
def newBuffers (s : State) (l : List Change) : List Nat := (newAdaptive s l).filter (fun b => !hasBuffers s b || s.array.bufFree.any (fun e => e.2 == b))

/-- Bytes of the look-back ring once a set of changes has applied to the present state. -/
def lookbackAfter (s : State) (l : List Change) : Nat :=
  ((numIn l Obj.chan.lookbackLength).getD (getO s Obj.chan.lookbackLength)).toNat
    * (128 * (groupList ((numIn l Obj.chan.groupEnable).getD (getO s Obj.chan.groupEnable)).toNat).length) * 384

/-- Bytes that committed groups allocate at their frames and free behind them: the look-back ring at F, an old ring and the
buffers of a beam that becomes STEERED at F + 1 (Table 8.5). `done` has applied before them. -/
def groupShifts (s : State) (done : List Change) : List Group → List (Nat × Int)
  | [] => []
  | g :: r =>
    let all := done ++ g.all
    let rings := ((elemsOf g.all (fun i sub => i == 0x4100 && sub == 5)).filter (fun d => getO s (Obj.eddy.state d) == 2
      && getO s (Obj.eddy.location d) == 1)).foldl (fun a d => a + natO s (Obj.eddy.length d) * natO s (Obj.eddy.channels d) * 4) 0
    let beams := ((elemsOf g.all (fun i sub => i == 0x5300 && sub == 2)).filter
      (fun b => numIn g.all (Obj.beam.mode b) == some 0 && getO s (Obj.beam.mode b) == 1 && hasBuffers s b)).length
    (g.target, ((lookbackAfter s all : Nat) : Int) - (lookbackAfter s done : Nat))
      :: (g.target + 1, -((rings + 1048576 * beams : Nat) : Int)) :: groupShifts s all r

/-- The old slots go at the first ready frame of the running generation (R181). -/
def areaShifts (s : State) : List (Nat × Int) :=
  match s.array.corr.gens.getLast? with
  | some g =>
    if g.stop.isSome then []
    else
      let old := s.array.corr.areas.length - (areasFrom g.number s.array.corr.areas).length
      [(readyAt s (g.g0 + g.len - 1) g.len, -(((s.array.corr.areas.take old).foldl (fun a x => a + 2 * x.bytes) 0 : Nat) : Int))]
  | none => []

/-- Every change of the ledger that is already settled, by frame: areas and buffers held to a frame, and committed groups. -/
def ledgerShifts (s : State) : List (Nat × Int) :=
  (s.array.held.filter (fun e => decide (e.1 < 16))).map (fun e => (e.2.2, -((e.2.1 : Nat) : Int))) ++ s.array.bufFree.map (fun e => (e.1, (-1048576 : Int)))
    ++ areaShifts s ++ groupShifts s [] (inOrder (committed s))

/-- Bytes by which a set that applies at frame f would exceed the HBM stack at some frame until then, while `shift` bytes more or
less are held than the ledger says (R187). -/
def hbmLack (s : State) (l : List Change) (shift : Int) (f : Nat) : Nat :=
  let now := ((ledger s : Nat) : Int) + shift + (prepBytes s l + 1048576 * (newBuffers s l).length : Nat)
  let shifts := (ledgerShifts s).filter (fun e => decide (s.frame < e.1) && decide (e.1 ≤ f))
  let at_ (x : Nat) : Int := (shifts.filter (fun e => decide (e.1 ≤ x))).foldl (fun a e => a + e.2) now
  let own : Int := ((lookbackAfter s (comingChanges s ++ l) : Nat) : Int) - (lookbackAfter s (comingChanges s) : Nat)
  let peak := (shifts.map (·.1)).foldl (fun a x => max a (at_ x)) (max now (at_ f + own))
  (peak - hbmTotal).toNat

/-- Bytes by which the Eddy rings in HBM would exceed 8 GiB once every group, then `done`, then a set has applied (R99). -/
def eddyLack (s : State) (l done : List Change) : Nat :=
  let all := done ++ l
  let ids : List Nat := match swapOf all, s.prog.staged with
    | some _, some im => im.eddy.map (fun d => d.id)
    | _, _ => comingEddies s
  (ids.filter (inHbm s all)).foldl
    (fun a d => a + ringBytes s all d ((numIn all (Obj.eddy.length d)).getD (baseNum s all (Obj.eddy.length d))).toNat) 0
    - 8589934592

/-- Words of the rings that committed groups will allocate in the memory of a cluster and do not hold yet. -/
def waitingWords (s : State) (cl : Nat) : Nat :=
  let all := afterSwap s
  ((elemsOf all (fun i sub => i == 0x4100 && sub == 5)).filter (fun d => getO s (Obj.eddy.state d) != 2
      && comingNum s (Obj.eddy.location d) == 0 && comingNum s (Obj.eddy.homeCluster d) == (cl : Int))).foldl
    (fun a d => match numIn all (Obj.eddy.length d) with
      | some v => if v = getO s (Obj.eddy.length d) then a else a + v.toNat * (comingNum s (Obj.eddy.channels d)).toNat
      | none => a) 0

/-- Words of rings in the memory of a cluster on which a set works: after a swap, those of its image. -/
def ringWordsAfter (s : State) (l : List Change) (cl : Nat) : Nat :=
  match (if (swapOf l).isSome then s.prog.staged else comingImage s) with
  | some im => (im.eddy.filter (fun d => d.location == 0 && d.writeCell / 8 == cl)).foldl
      (fun a d => a + (swappedNum s im (Obj.eddy.length d.id)).toNat * d.channels) 0
  | none => eddyWordsOf s cl

/-- Words by which the changes in `done`, once applied, grow the rings in the memory of a cluster. -/
def grownWords (s : State) (cl : Nat) (done : List Change) : Int :=
  ((newLengths s done).filter (fun d => !inHbm s done d.1 && baseNum s done (Obj.eddy.homeCluster d.1) == (cl : Int))).foldl
    (fun a d => a + ((d.2 : Int) - baseNum s done (Obj.eddy.length d.1)) * baseNum s done (Obj.eddy.channels d.1)) 0

/-- Bytes by which rings being reshaped in cluster memory would not fit beside the old ones once `done` has applied (R103). -/
def clusterLack (s : State) (l done : List Change) : Nat :=
  let all := (newLengths s l).filter (fun d => !inHbm s l d.1)
  (List.range 16).foldl (fun (a cl : Nat) =>
    let mine := all.filter (fun d => baseNum s l (Obj.eddy.homeCluster d.1) == (cl : Int))
    if mine.isEmpty then a
    else
      let taken := match (match (swapOf l).bind (fun _ => s.prog.staged) with
          | some im => some im
          | none => (comingImage s).orElse (fun _ => s.prog.running)) with
        | some im => (clusterTaken cl im).eraseDups.length
        | none => 0
      let rings := ((ringWordsAfter s l cl + waitingWords s cl : Nat) : Int) + grownWords s cl done
      a + 4 * (rings + (taken + mine.foldl (fun a d => a + d.2 * (baseNum s l (Obj.eddy.channels d.1)).toNat) 0 : Nat) - 262144).toNat) 0

/-- Words of records that a swap writes at its frame: those in vectors the outgoing USAGE does not mark unused, carried words
apart (R94, R96). `bitmap` is the offset of the memory's bitmap in USAGE. (DEDUCED, log entry 64.) -/
def framedWords (s : State) (keep : List (Nat × Nat)) (recs : List InitRec) (bitmap : Nat) : Nat :=
  let used := outgoingUses s.prog.running bitmap
  recs.foldl (fun n r => n + ((List.range r.words.length).filter (fun i => used (r.addr + i) && !inRanges keep (r.addr + i))).length)
    0

/-- Bytes by which initial values written at the frame of a swap exceed R96. -/
def swapLack (s : State) (l : List Change) : Nat :=
  match swapOf l, s.prog.staged with
  | some _, some im =>
    im.cells.foldl (fun a c => a + 4 * (framedWords s (carriedRanges im 1 c.cell) c.recs (cellBitmap c.cell) - 16384)) 0
      + im.clusters.foldl (fun a c => a + 4 * (framedWords s (carriedRanges im 3 c.1) c.2 (clusterBitmap c.1) - 65536)) 0
  | _, _ => 0

/-- What a sub-group leaves allocated beyond what was, once the memory it replaces is freed. -/
def netBytes (s : State) (l : List Change) : Int :=
  ((newLengths s l).filter (fun d => inHbm s l d.1)).foldl
      (fun a d => a + ((ringBytes s l d.1 d.2 : Nat) - (ringBytes s l d.1 (baseNum s l (Obj.eddy.length d.1)).toNat : Nat) : Int)) 0
    + ((1048576 * (newBuffers s l).length : Nat) : Int)

/-- Bytes lacking for a set that applies at frame f, once `done` has applied; 0 when it fits (check 6). (DEDUCED, log entry 25.) -/
def lack (s : State) (l done : List Change) (f : Nat) : Nat :=
  max (max (swapLack s l) (clusterLack s l done)) (max (eddyLack s l done) (hbmLack s l (netBytes s done) f))

/-! ## Preparation bounds (Tables 6.2 and 9.1, R358) -/

def eddyBound (s : State) (l : List Change) : Nat :=
  (newLengths s l).foldl (fun a d =>
    if inHbm s l d.1 then
      a + (ringBytes s l d.1 (min d.2 (baseNum s l (Obj.eddy.length d.1)).toNat) + 2666666) / 2666667
    else a + 1) 0

def catchBound (s : State) (l : List Change) : Nat :=
  let steer := ((elemsOf l (fun i sub => i == 0x5300 && sub == 5)).length + 63) / 64
  max steer (max (if (newAdaptive s l).isEmpty then 0 else 2) (if retuneAfter s l then 2 else 0))

/-- A wake from OFF takes 30 frames, any other power change 1. (DEDUCED, log entry 65.) -/
def powerBound (s : State) (l : List Change) : Nat :=
  (List.range 19).foldl (fun a d => match numIn l (Obj.pwr.target d) with
    | none => a
    | some v => if v = comingNum s (Obj.pwr.target d) then a
      else max a (if v ≠ 2 ∧ comingNum s (Obj.pwr.target d) = 2 then 30 else 1)) 0

/-- P of R135. -/
def prepBound (s : State) (l : List Change) : Nat :=
  max (if (swapOf l).isSome then 120 else 0) (max (catchBound s l) (powerBound s l)) + eddyBound s l

/-! ## The plan of a group -/

/-- The sub-group that applies at F with its bound, and the later ones with theirs. -/
structure Plan where
  first : List Change
  bound : Nat
  rest  : List (List Change × Nat)
  deriving DecidableEq, Repr

def Plan.whole (s : State) (l : List Change) : Plan := ⟨l, prepBound s l, []⟩

/-- The objects of a beam's weight set (R199, R203), WEIGHT_CRC with WEIGHT_SELECT. -/
def weightSetSub (sub : Nat) : Bool := [1, 2, 5, 6, 7].contains sub

/-- The later sub-groups of R142: one Eddy descriptor with taps and mark, or one weight set that becomes ADAPTIVE. -/
def laterParts (s : State) (l : List Change) : List (List Change) :=
  let eddies := (List.range 4096).filter (fun d => (newLengths s l).any (fun e => e.1 == d))
  let beams := (List.range 256).filter (fun b => (newAdaptive s l).contains b)
  eddies.map (fun d => l.filter (fun c => keyIndex c.object == 0x4100 && keyElem c.object == d))
    ++ beams.map (fun b => l.filter (fun c => keyIndex c.object == 0x5300 && keyElem c.object == b && weightSetSub (keySub c.object)))

def Plan.split (s : State) (l : List Change) : Plan :=
  let parts := laterParts s l
  let first := l.filter (fun c => !parts.any (fun p => p.contains c))
  ⟨first, prepBound s first, parts.map (fun p => (p, prepBound s p))⟩

/-- Bytes by which the first sub-group that does not fit is too large, each judged as the earlier ones leave memory.
(DEDUCED, log entry 24.) -/
def partsLack (s : State) (f : Nat) : List (List Change) → List Change → Nat
  | [], _ => 0
  | p :: r, done => let n := lack s p done f; if n ≠ 0 then n else partsLack s f r (done ++ p)

/-! ## Committing (R135, R136, R144) -/

/-- The next frame number divisible by 16. -/
def up16 (f : Nat) : Nat := (f + 15) / 16 * 16

/-- What a commit comes to. -/
inductive Verdict where
  /-- NAK code, information, and the beams that raise event 200. -/
  | nak (code info : Nat) (beams : List Nat)
  /-- The frame acknowledged (0 for a held group), the resolved target and the plan. -/
  | accept (ack target : Nat) (plan : Plan)
  deriving DecidableEq, Repr

/-- This engine leads its federation. -/
def leads (s : State) : Bool := getO s Obj.fed.enable == 1 && natO s Obj.fed.leader == s.pins.fedId

/-- The first block under reset that a set targets. -/
def blockedIn (s : State) (l : List Change) : Option Nat :=
  ((l.filter (fun c => keyBlocked s c.object)).map (fun c => (blockOfKey s c.object).getD 0)).head?

/-- The frame at which a set would apply with a preparation bound: its target, or E when that is later (R135). -/
def frameAsked (s : State) (l : List Change) (bound target : Nat) : Nat :=
  let e := s.frame + bound + 2
  max target (if hasCatch l then up16 e else e)

/-- Checks 2 to 7 of Table 6.3 for a set of changes in frame s.frame. `fed` is FED_TAG. -/
def judge (s : State) (l : List Change) (target : Nat) (firstOk seqOk : Bool) (fed : Nat) : Verdict :=
  let a := s.frame
  let bad := weightsBad s l
  let held := fed != 0 && !leads s
  if a + 21600000 < target ∨ (target % 16 ≠ 0 ∧ hasCatch l) ∨ (seqOk ∧ fed ≠ 0) then .nak 7 0 []
  else if !spansOk s l then .nak 7 0 []
  else if !bad.isEmpty then .nak 7 0 ((bad.filter (·.2)).map (·.1))
  else match blockedIn s l with
  | some b => .nak 12 (blockInfo b) []
  | none =>
    if (pairState s = 2 ∨ pairState s = 6) ∧ ((swapOf l).isSome ∨ !(newLengths s l).isEmpty) then .nak 5 500 []
    else if fed ≠ 0 ∧ (if held then s.slu.heldFed.isSome else s.slu.coord.isSome) then .nak 5 1000 []
    else if 16 ≤ (committed s).length ∨ collides s l then .nak 5 busyHint []
    else
      let n := lack s l [] (frameAsked s l (prepBound s l) target)
      let split := Plan.split s l
      let lackSplit := partsLack s (frameAsked s l split.bound target) (split.first :: split.rest.map (·.1)) []
      if n ≠ 0 ∧ !seqOk then .nak 9 n []
      else if n ≠ 0 ∧ lackSplit ≠ 0 then .nak 9 lackSplit []
      else
        let p := if n = 0 then Plan.whole s l else split
        let e := a + p.bound + 2
        let e := if fed ≠ 0 ∧ !held then max e (a + 12) else e
        let e := if hasCatch l then up16 e else e
        if held then .accept 0 0 p
        else if target = 0 then .accept e e p
        else if e ≤ target then .accept target target p
        else if firstOk then .accept e e p
        else .nak 10 e []

/-- Preparation begins: rings being reshaped, weight buffers allocated and cleared. -/
def beginPrep (s : State) (l : List Change) : State :=
  let s := (newBuffers s l).foldl allocBuffers s
  (newLengths s l).foldl (fun s d => setO s (Obj.eddy.state d.1) 2) s

/-- A group joins those that wait, with its plan (R138): nothing to prepare is prepared at once. -/
def newGroup (s : State) (tag sess seq ack target : Nat) (firstOk seqOk : Bool) (fed : Nat) (single : Bool) (p : Plan) : Group × State :=
  let g : Group := ⟨s.slu.nextId, tag, sess, target, ack, firstOk, seqOk, fed, p.first, p.rest, p.bound == 0, false, false, 1,
    prepBytes s p.first, single, s.slu.openSeq, seq, false, none, none, 0⟩
  (g, { beginPrep s p.first with slu := { s.slu with nextId := s.slu.nextId + 1 } })

/-- Put a group back into the list of waiting groups. -/
def putGroup (s : State) (g : Group) : State :=
  { s with slu := { s.slu with waiting := s.slu.waiting.map (fun x => if x.id == g.id then g else x) } }

/-- The key a WRITE names. -/
def writeKey (r : Request) : Option Nat :=
  match r with
  | .write i sub w => some (okey i w.element sub)
  | _ => none

/-- A group waiting for its frame, by id; none after a reset until the replay of the journal brings the groups back (R51).
(DEDUCED, log entry 18.) -/
def waitingGroup (s : State) (id : Nat) : Option Group :=
  if s.ctl.replay ∨ stageOf s < 2 then none else s.slu.waiting.find? (fun g => g.id == id)

/-! ## The commands -/

/-- A group leaves the coordinating or the held place for those that wait, with frame F and the new generation: GO (R145). -/
def releaseGroup (s : State) (g : Group) (f gen : Nat) : State :=
  let s := dropGroup s g
  { s with slu := { s.slu with
    waiting := s.slu.waiting ++ [{ g with target := f, asked := f, phase := 2, isReady := true }]
    goAt := some (g.id, gen), fedAsk := none } }

/-- A FEDCTRL message of this member's active unit, both ways round its ring, journaled in its pair before it leaves (R145, R332,
Table 13.10): phase, tag, F, value. -/
def sendFed (s : State) (phase tag f value : Nat) : State :=
  let m := natBE phase 1 ++ natBE s.pins.fedId 1 ++ [0x00] ++ natBE tag 4 ++ natBE f 6 ++ [0x00, 0x00] ++ natBE value 8
  if isActive s then
    let s := journalDecision s (.fedPhase true phase tag f value)
    sendBraid (sendBraid s 4 1 0x21 m) 5 1 0x21 m
  else s

/-- Members of the federation other than this one. -/
def otherMembers (s : State) : List Nat :=
  (List.range 8).filter (fun k => (natO s Obj.fed.members).testBit k && k != s.pins.fedId)

/-- The coordinating group is discarded (Table 6.5). -/
def abortCoord (s : State) : State :=
  match s.slu.coord with
  | none => s
  | some g =>
    let s := retireGroup (dropGroup (dropPrep s g.all) g) g
    bumpO (groupEnds s g.tag 5 s.frame s.frame) Obj.slu.rejects

/-- ABORT is decided and sent. -/
def decideAbort (s : State) : State :=
  match s.slu.coord with
  | none => s
  | some g => abortCoord (sendFed s 5 g.fedTag g.target 0)

/-- Every other member has answered READY. -/
def allReady (s : State) : Bool := (otherMembers s).all s.slu.answers.contains

/-- GO with the next generation. -/
def decideGo (s : State) (g : Group) : State :=
  let gen := natO s Obj.fed.generation + 1
  releaseGroup (sendFed s 4 g.fedTag g.target gen) g g.target gen

/-- The leader decides once all answers are READY: GO when its own preparation is complete, otherwise ABORT (Table 6.5). A leader
alone in its federation has no answer to wait for and decides when its preparation completes or at F - 6.
(DEDUCED, log entry 85.) -/
def decideFed (s : State) : State :=
  match s.slu.coord with
  | none => s
  | some g =>
    if isStandby s ∨ !allReady s then s
    else if g.prepared then decideGo s g
    else if (otherMembers s).isEmpty then s
    else decideAbort s

/-- A member answers READY when its held group is prepared (Table 6.5). -/
def answerReady (s : State) : State :=
  match s.slu.heldFed, s.slu.fedAsk with
  | some g, some (tag, f) => if g.prepared ∧ g.fedTag = tag then sendFed s 2 tag f 0 else s
  | _, _ => s

/-- Background preparation of a group completes, also of a coordinating or a held one (R138, R145). (DEDUCED, log entry 23.) -/
def execPreparationDone (group : Nat) (s : State) : Ans :=
  let s := match (committed s).find? (fun g => g.id == group && g.prepAt.isNone && !g.prepared), s.prog.staged with
    | some g, some im => if (swapOf g.changes).isSome then prepareSwap s im else s
    | _, _ => s
  let mark (g : Group) : Group := if g.id == group && g.prepAt.isNone then { g with prepared := true } else g
  let held := s.slu.heldFed.any (fun g => g.id == group && !g.prepared)
  let alone := s.slu.coord.any (fun g => g.id == group) && (otherMembers s).isEmpty
  let s := { s with slu := { s.slu with
    waiting := s.slu.waiting.map mark
    coord := s.slu.coord.map mark
    heldFed := s.slu.heldFed.map mark } }
  let s := if held then answerReady s else s
  done (if alone then decideFed s else s)

/-- Both units are complete: the partner counts while the pair keeps two journals (R143). -/
def complete (s : State) (g : Group) (partnerReady : Bool) : Bool := g.prepared && (partnerReady || !confirms s)

/-- Catchment changes bind the frame at which a group, or a later sub-group, may apply (R138, R142). -/
def catchFrame (g : Group) : Bool := hasCatch (if g.phase = 4 then g.changes else g.all)

/-- A group moves to a later frame, with event 166 the first time. (DEDUCED, log entry 68.) -/
def moveGroup (s : State) (g : Group) (f : Nat) : State :=
  let f := if catchFrame g then up16 f else f
  let s := journalDecision s (.groupMoved g.session g.seq f)
  let s := if g.moved then s else raise s 166 g.tag
  putGroup s { g with target := f, moved := true, isReady := false }

/-- The first frame whose test is still to come. -/
def nextTest (s : State) (g : Group) : Nat := if catchFrame g then up16 (s.frame + 3) else s.frame + 3

/-- What is left of a group's preparation bound when its target has been skipped, judged without the group itself. -/
def boundLeft (s : State) (g : Group) : Nat := if g.prepared then 0 else prepBound (dropGroup s g) g.changes

/-- Late groups before this one in the order of their original targets (R140). -/
def lateBefore (s : State) (g : Group) : List Group :=
  s.slu.waiting.filter (fun h => h.late && h.id != g.id && (decide (h.asked < g.asked) || (h.asked == g.asked && decide (h.id < g.id))))

/-- A group whose target has been skipped applies as if committed for "next" with FIRST_FEASIBLE, and not before the late groups
whose original targets come first; event 166 (R140). (DEDUCED, log entry 67.) -/
def lateGroup (s : State) (g : Group) : State :=
  let f := s.frame + boundLeft s g + 2
  let f := (lateBefore s g).foldl (fun a h => max a h.target) f
  moveGroup s { g with firstFeasible := true, moved := false, late := true } f

/-- A group is rejected: nothing in it applies, its memory is freed, event 165 (R138). -/
def rejectGroup (s : State) (g : Group) : State :=
  let s := journalDecision s (.groupRejected g.session g.seq)
  let s := retireGroup (dropGroup (dropPrep s g.changes) g) g
  raise (bumpO (groupEnds s g.tag 4 g.target g.target) Obj.slu.rejects) 165 g.tag

/-- A group has passed its test; the TS_SHIFT of a re-base in it is journaled with the outcome (R269). -/
def readyGroup (s : State) (g : Group) : State :=
  let s := if g.changes.any (fun c => c.object == Obj.tb.rebase) then decideRebase s g.target else s
  putGroup (journalDecision s (.groupReady g.session g.seq g.target)) { g with isReady := true, phase := if g.phase = 4 then 4 else 2 }

/-- The test of a group at F - 2 (R138), of the first sub-group. -/
def testGroup (s : State) (g : Group) (partnerReady : Bool) : State :=
  if complete s g partnerReady then readyGroup (setO s Obj.slu.lastEarliest g.target) g
  else
    let s := setO s Obj.slu.lastEarliest (nextTest s g)
    if g.firstFeasible then moveGroup s g (nextTest s g) else rejectGroup s g

/-- The target of a group has passed without its application. -/
def skipped (s : State) (g : Group) : Bool := decide (g.target ≤ s.frame) || (!g.isReady && decide (g.target < s.frame + 2))

/-- Insert a group by its original target, then by acknowledgement. -/
def insertAsked (g : Group) : List Group → List Group
  | [] => [g]
  | h :: r => if g.asked < h.asked ∨ (g.asked = h.asked ∧ g.id < h.id) then g :: h :: r else h :: insertAsked g r

/-- Every group whose target has been skipped takes its new frame, in the order of the original targets (R140). -/
def lateAll (s : State) : State :=
  ((s.slu.waiting.filter (skipped s)).foldl (fun a g => insertAsked g a) []).foldl lateGroup s

/-- What a standby tells the active unit during F - 2: whether a group is prepared (R143). PAIR_CTRL with byte 1 = 7, SESSION,
SEQUENCE and 1 for complete. (DESIGN CHOICE, log entry 63.) -/
def reportPrepared (s : State) (g : Group) : State :=
  sendPair s 0x16 (natBE 7 1 ++ natBE g.session 2 ++ natBE g.seq 4 ++ natBE (if g.prepared then 1 else 0) 1)

/-- COMMIT_TEST: the active unit decides, from its own state and what its partner reported; a standby reports (R138, R143). -/
def execCommitTest (group : Nat) (partnerReady : Bool) (s : State) : Ans :=
  match waitingGroup s group with
  | none => .next s
  | some g =>
    if g.phase = 4 ∨ inReset s 25 then .next s
    else if isStandby s then (if g.target = s.frame + 2 then done (reportPrepared s g) else .next s)
    else if decidesNothing s then .next s
    else
      let s := if skipped s g then lateAll s else s
      match waitingGroup s group with
      | none => done s
      | some h => if h.target = s.frame + 2 ∧ !h.isReady then done (testGroup s h partnerReady) else done s

/-- LAST_RESULT of a group that applied at F with n changes held (Table 6.7). -/
def resultOf (late : Bool) (held : Nat) : Nat :=
  if held = 0 then (if late then 2 else 1) else (if late then 7 else 3)

/-- Rings that a set replaces are freed at F + 1 (R103): in HBM bytes of the ledger, in cluster memory words of the cluster. -/
def holdOldRings (s : State) (f : Nat) (l : List Change) : State :=
  (elemsOf l (fun i sub => i == 0x4100 && sub == 5)).foldl (fun s d =>
    if getO s (Obj.eddy.state d) ≠ 2 then s
    else
      let words := natO s (Obj.eddy.length d) * natO s (Obj.eddy.channels d)
      if getO s (Obj.eddy.location d) = 1 then holdArea s 2 (4 * words) (f + 1)
      else holdArea s (16 + natO s (Obj.eddy.homeCluster d)) words (f + 1)) s

/-- The load of BOOT_SLOT on reaching Flowing (R93): a group of one without a session. -/
def isBoot (g : Group) : Bool := g.single && g.session == 0

/-- A group that has applied its last sub-group at frame f has finished; `first` is the frame of sub-group 1. -/
def finishGroup (s : State) (g : Group) (first f held : Nat) : State :=
  let late := decide (g.asked < first)
  let s := raiseAt (bumpO (groupEnds s g.tag (resultOf late held) first f) Obj.slu.commits) f 164 g.tag
  let s := if late then bumpO s Obj.slu.late else s
  retireGroup (dropGroup s g) g

/-- A federated group that applies takes the generation its GO carried (R331). -/
def fedApplied (s : State) (g : Group) : State :=
  if g.fedTag = 0 then s
  else match s.slu.goAt with
    | some (id, gen) =>
      if id = g.id then
        let s := settle (setO s Obj.fed.generation gen) 137 false
        { setO s Obj.fed.mismatch (natO s Obj.fed.mismatch / 2 * 2 : Nat) with slu := { s.slu with goAt := none } }
      else s
    | none => s

/-- The next sub-group takes its frame, F + 3 and its bound on; it begins to prepare at F + 1, when the memory of the one before it
is freed. Catchment changes act at a frame divisible by 16 (R142). -/
def nextPart (s : State) (g : Group) (f first held : Nat) : List (List Change × Nat) → State
  | [] => finishGroup s g first f held
  | (p, bound) :: r =>
    let fk := f + 3 + bound
    let fk := if hasCatch p then up16 fk else fk
    let g : Group := { g with
      changes := p, rest := r, prepared := false, isReady := false, moved := false, bytes := 0
      phase := 4, firstAt := some first, heldCount := held, target := fk, prepAt := some (f + 1) }
    { s with slu := { s.slu with waiting := s.slu.waiting ++ [g] } }

/-- At the tick that opens F_(k-1) + 1 the preparation of a later sub-group begins; one without a bound is prepared (R142). -/
def startParts (s : State) : State :=
  (s.slu.waiting.filter (fun g => g.prepAt.any (fun f => decide (f ≤ s.frame)))).foldl
    (fun s g =>
      let free := dropGroup s g
      let s := putGroup s { g with prepAt := none, bytes := prepBytes free g.changes, prepared := prepBound free g.changes == 0 }
      beginPrep s g.changes) s

/-- A ready group or sub-group takes effect at the boundary of frame F = s.frame + 1 (R139). (DESIGN CHOICE, log entry 17.) -/
def applyGroup (s : State) (g : Group) : State :=
  let f := s.frame + 1
  let s := dropGroup s g
  let (s, n) := applySet (holdOldRings s f g.changes) f (isBoot g) g.changes
  nextPart (fedApplied s g) g f (g.firstAt.getD f) (g.heldCount + n) g.rest

/-- A DIRECT write takes effect; one to a block under reset is held, and its entry stays (R20, R31, R53). -/
def applyDirect (s : State) (f : Nat) (d : Direct) : State :=
  if keyBlocked s d.change.object then
    { s with slu := { s.slu with heldBlock :=
      s.slu.heldBlock ++ [⟨(blockOfKey s d.change.object).getD 0, d.session, d.seq, d.change⟩] } }
  else retireEntry (applySet s f false [d.change]).1 d.session d.seq

/-- What takes effect at one frame boundary. -/
inductive Due where
  | direct (d : Direct)
  | group (g : Group)
  deriving DecidableEq, Repr

/-- Place in the order of acknowledgement. -/
def Due.order : Due → Nat
  | .direct d => d.order
  | .group g => g.id

def Due.isLate : Due → Bool
  | .direct _ => false
  | .group g => g.late

/-- Original target, for late groups. -/
def Due.asked : Due → Nat
  | .direct d => d.frame
  | .group g => g.asked

def insertDue (le : Due → Due → Bool) (x : Due) : List Due → List Due
  | [] => [x]
  | y :: r => if le y x then y :: insertDue le x r else x :: y :: r

/-- Put late groups, in the order of their original targets, into the places that late groups hold (R140). -/
def refill : List Due → List Due → List Due
  | [], _ => []
  | x :: r, late =>
    if x.isLate then match late with
      | y :: more => y :: refill r more
      | [] => x :: refill r []
    else x :: refill r late

/-- What is due at the boundary of frame f, in the order of acknowledgement, which is journal order (R139). -/
def dueAt (s : State) (f : Nat) : List Due :=
  let l := (s.slu.direct.filter (fun d => decide (d.frame ≤ f))).map Due.direct
    ++ (s.slu.waiting.filter (fun g => g.isReady && g.target == f)).map Due.group
  let l := l.foldl (fun a x => insertDue (fun y x => decide (y.order ≤ x.order)) x a) []
  refill l ((l.filter Due.isLate).foldl
    (fun a x => insertDue (fun y x => decide (y.asked < x.asked) || (y.asked == x.asked && decide (y.order ≤ x.order))) x a) [])

def applyDue (s : State) (f : Nat) : Due → State
  | .direct d => applyDirect { s with slu := { s.slu with direct := s.slu.direct.filter (fun x => x.order != d.order) } } f d
  | .group g => applyGroup s g

/-- Apply what is due up to the last element that `p` picks: what was acknowledged earlier goes first (R139). -/
def applyUpTo (s : State) (p : Due → Bool) : State :=
  let f := s.frame + 1
  ((dueAt s f).reverse.dropWhile (fun x => !p x)).reverse.foldl (fun s x => applyDue s f x) s

def isGroup (id : Nat) : Due → Bool
  | .direct _ => false
  | .group g => g.id == id

def Due.isDirect : Due → Bool
  | .direct _ => true
  | .group _ => false

def execGroupApply (group : Nat) (s : State) : Ans :=
  match waitingGroup s group with
  | none => .next s
  | some g => if g.isReady ∧ g.target = s.frame + 1 ∧ g.phase ≠ 4 then done (applyUpTo s (isGroup group)) else .next s

/-- The test of a later sub-group at F_k - 2: it moves, and is never rejected (R142). -/
def execSubgroupTest (group : Nat) (partnerReady : Bool) (s : State) : Ans :=
  match waitingGroup s group with
  | none => .next s
  | some g =>
    if g.phase ≠ 4 then .next s
    else if isStandby s then (if g.target = s.frame + 2 then done (reportPrepared s g) else .next s)
    else if decidesNothing s then .next s
    else
      let s := if skipped s g then lateAll s else s
      match waitingGroup s group with
      | none => done s
      | some h =>
        if h.target ≠ s.frame + 2 ∨ h.isReady then done s
        else if complete s h partnerReady then done (readyGroup s h)
        else done (moveGroup s h (nextTest s h))

def execSubgroupApply (group : Nat) (s : State) : Ans :=
  match waitingGroup s group with
  | none => .next s
  | some g => if g.isReady ∧ g.target = s.frame + 1 ∧ g.phase = 4 then done (applyUpTo s (isGroup group)) else .next s

/-- A held group is discarded as if it had never been: event 165, LAST_RESULT 6 (R144). -/
def discardHeld (s : State) (g : Group) : State :=
  let s := retireGroup (dropGroup (dropPrep s g.all) g) g
  raise (groupEnds s g.tag 6 s.frame s.frame) 165 g.tag

/-- A held federated group without a PREPARE naming its tag within 10 s of its commit is discarded, as the active unit decides
(R143, R144). (DESIGN CHOICE, log entry 10.) -/
def execHeldGroupTimeout (s : State) : Ans :=
  match s.slu.heldFed with
  | none => .next s
  | some g =>
    if s.slu.prepareSeen || isStandby s then .next s
    else done (discardHeld (journalDecision s (.groupRejected g.session g.seq)) g)

/-- DIRECT writes whose frame begins at this boundary take effect, with what was acknowledged before them (R20, R139). -/
def execDirectApply (s : State) : Ans :=
  if s.ctl.replay ∨ stageOf s < 2 then .next s else done (applyUpTo s Due.isDirect)

/-- A test outcome that the active unit has journaled (R143). -/
def takeOutcome (s : State) (n q : Nat) (act : State → Group → State) : State :=
  match s.slu.waiting.find? (fun g => g.session == n && g.seq == q) with
  | some g => act s g
  | none => s

end Sys2Proof.Machine
end

