-- ==== Sys2Proof/Machine/Control.lean ====
section
/-! DEFINITION. Gultin: the checks of a message (R37 to R42, R56, R426), sessions (R41), ownership (R46 to R49, R427), writes
and their effects (R31, R50), reads and subscriptions (R43, R44), fencing (R53, R54), and the timers of the control plane. -/

namespace Sys2Proof.Machine

/-! ## Header and tag (R37, R56) -/

/-- The LENGTH that Table 2.12 fixes for a request. -/
def fixedLength : Request → Nat
  | .write _ _ w => 12 + w.length
  | r => (reqPayload r).length

/-- A check of R37 fails; a type that no controller sends, or that does not exist, is one that no row acts on.
(DESIGN CHOICE, log entry 94.) -/
def headerBad (e : Envelope) (r : Request) : Bool :=
  let tag := if e.flags.getLsbD 0 then 16 else 0
  e.magic != 0x474C || e.version != 1 || e.typ != reqCode r || e.flags &&& 0xFFFC != 0
    || decide (3 < e.keySlot) || (!e.flags.getLsbD 0 && e.keySlot != 0)
    || (reqCode r == 1 && e.session != 0)
    || e.length + 16 + tag != e.udpLength || decide (1440 < e.length)
    || e.length != fixedLength r || e.length != (reqPayload r).length || e.reserved != 0

/-- The tag is as AUTH_MODE asks (R56). -/
def tagOk (s : State) (e : Envelope) (r : Request) : Bool :=
  let mode := getO s Obj.own.authMode
  if mode = 0 then true
  else if !e.flags.getLsbD 0 then mode == 1
  else
    e.tag == (hmacSha256 (authKey s e.keySlot)
      (headerBytes (reqCode r) e.session e.sequence e.flags e.length e.keySlot ++ reqPayload r)).take 16

/-! ## Answers -/

/-- Where the engine serves Gultin: at its port, on CTL0 and on GULTIN_VLAN of a path that GULTIN_ENABLE opens (R36, R243). -/
def servedAt (s : State) (e : Envelope) : Bool :=
  e.dstPort == gultinPort s && (e.ifc == 2 || (decide (e.ifc < 2) && !inReset s (17 + e.ifc)
    && getO s (Obj.ifc.gultinEnable (11 + e.ifc)) == 1 && e.vlan == natO s (Obj.ifc.gultinVlan (11 + e.ifc))))

/-- Payload of an ACK: effective frame, ownership, a subscription's number (Table 2.12). The result store keeps no FRAME_NO and
no OWNER_EPOCH: a CLAIM or YIELD answered again carries those in force. (DESIGN CHOICE, log entry 108.) -/
def ackPayload (s : State) (kind info : Nat) : List Byte :=
  match kind with
  | 2 => ownerAck s
  | 3 => ownerAck s
  | 6 => natBE info 8
  | 8 => natBE info 8
  | 9 => natBE info 2
  | _ => []

/-- Answer from a result. -/
def sendResult (s : State) (e : Envelope) (r : Result) (replayed : Bool) : State :=
  if r.ack then sendAck s e (ackPayload s r.kind r.info) replayed else sendNak s e r.code r.info replayed

/-- A request is done: its result is kept, its number consumed, and it is acknowledged; one that stands in the journal waits for
the partner's confirmation (R50). -/
def acknowledge (s : State) (e : Envelope) (r : Request) (info : Nat) (journaled : Bool) : State :=
  let x : Result := ⟨e.sequence, true, 0, info, reqCode r⟩
  let s := recordResult s e.session x
  if forwarded e then
    let s := sendJournal (consumeTo s e.session e.sequence) e.session e.sequence info r x
    if journaled && confirms s then { s with ctl := { s.ctl with await := s.ctl.await ++ [⟨e, r, x⟩] } } else s
  else
    let s := consume s e.session e.sequence
    let s := if reqCode r == 2 && confirms s then sendJournal s e.session e.sequence info r x else s
    if journaled && confirms s then
      let s := sendJournal s e.session e.sequence info r x
      { s with ctl := { s.ctl with await := s.ctl.await ++ [⟨e, r, x⟩] } }
    else sendResult s e x false

/-- Answers that waited for a confirmation are sent: those that `p` picks. -/
def releaseAwait (s : State) (p : AwaitAck → Bool) : State :=
  let due := s.ctl.await.filter p
  let s := { s with ctl := { s.ctl with await := s.ctl.await.filter (fun a => !p a) } }
  due.foldl (fun s a => if forwarded a.envelope then s else sendResult s a.envelope a.result false) s

/-! ## HELLO (R41) -/

/-- HELLO fields out of range (R426). -/
def helloBad (b : HelloBody) : Bool :=
  b.station == 0 || b.station == 0xFFFFFFFFFFFFFFFF || decide (32 < b.resume) || b.reserved != 0

/-- The session becomes OPEN for a station. -/
def openSession (s : State) (n station : Nat) : State :=
  setSession (setMany (blankSession s n) [(Obj.sess.state (n - 1), 1), (Obj.sess.station (n - 1), station)]) n Session.free

/-- The session a new HELLO gets: the lowest FREE one, else the one DORMANT longest. -/
def newSession (s : State) : Option Nat :=
  match sessionNumbers.find? (fun n => sessState s n == 0) with
  | some n => some n
  | none =>
    (sessionNumbers.filter (fun n => sessState s n == 3)).foldl
      (fun a n => match a with
        | none => some n
        | some m => if (session s n).dormant < (session s m).dormant then some n else some m) none

/-- Open, reopen or reattach a session: its number, or a NAK code with information. A HELLO that names another station's session
is answered as at check 3, with FFFFFFFFh. (DESIGN CHOICE, log entry 109.) -/
def helloState (s : State) (b : HelloBody) : (Nat ⊕ (Nat × Nat)) × State :=
  if b.resume = 0 ∨ sessState s b.resume = 0 then
    match newSession s with
    | none => (.inr (5, busyHint), s)
    | some n => (.inl n, openSession (if sessState s n = 0 then s else freeSession s n) n b.station)
  else if natO s (Obj.sess.station (b.resume - 1)) ≠ b.station then (.inr (8, 0xFFFFFFFF), s)
  else if sessState s b.resume = 3 then
    (.inl b.resume, setO s (Obj.sess.state (b.resume - 1)) (if getO s (Obj.sess.fencedAt (b.resume - 1)) = 0 then 1 else 2))
  else (.inl b.resume, s)

/-- What every message of a session leaves: peer address and port, the slot of a tag, and where it arrived. -/
def touch (s : State) (n : Nat) (e : Envelope) : State :=
  let s := setMany s [(Obj.sess.peerAddress (n - 1), e.srcAddr), (Obj.sess.peerPort (n - 1), e.srcPort)]
  let v := session s n
  let v := { v with atPartner := forwarded e }
  setSession s n (if e.flags.getLsbD 0 then { v with keySlot := e.keySlot, tagged := true } else v)

/-- Pass a message on to the partner with FORWARDED set (R36, R49). -/
def forward (s : State) (e : Envelope) (r : Request) : State :=
  sendPair s 0x15 (headerBytes (reqCode r) e.session e.sequence (e.flags ||| 0x4000) e.length e.keySlot ++ reqPayload r
    ++ (if e.flags.getLsbD 0 then e.tag else []))

/-- HELLO opens, reopens or reattaches a session and is answered with its state (R41, R49) (DEDUCED, log entry 73). -/
def doHello (s : State) (e : Envelope) (b : HelloBody) : State :=
  if helloBad b then sendNak s e 7 0 false
  else
    match helloState s b with
    | (.inr (code, info), s) => sendNak s e code info false
    | (.inl n, s) =>
      let s := touch s n e
      let s := if s.rst.pairEnable && !forwarded e then forward s e (.hello { b with resume := n }) else s
      sendAck s { e with session := n }
        (natBE n 2 ++ natBE (if s.pins.unitB then 1 else 0) 1 ++ natBE (stageOf s) 1 ++ natBE (natO s (Obj.sess.nextSeq (n - 1))) 4
          ++ natBE (ownerId s) 8 ++ natBE (natO s Obj.own.ownerEpoch) 4 ++ natBE s.frame 8) false

/-! ## Where decisions are made (R49, R52) -/

/-- A standby that cannot reach its partner over either pair link. -/
def cutOff (s : State) : Bool := isStandby s && (pairLink s).isNone

/-- A session is open for requests (check 3). -/
def sessionOpen (s : State) (n : Nat) : Bool :=
  decide (1 ≤ n) && decide (n ≤ 32) && (sessState s n == 1 || sessState s n == 2)

/-- HEARTBEAT (R427): every unit answers from the ownership it knows. NAK ACCESS carries FFFFFFFFh as at check 3.
(DESIGN CHOICE, log entry 109.) -/
def doHeartbeat (s : State) (e : Envelope) : State :=
  let n := e.session
  if cutOff s then sendNak s e 5 busyHint false
  else if !sessionOpen s n then sendNak s e 8 0xFFFFFFFF false
  else
    let s := touch s n e
    if isOwner s n then sendAck s e (ownerAck s) false else sendNak s e 2 (ownerId s) false

/-! ## Writes: the checks -/

/-- What the checks of Table 2.13 make of a request. -/
inductive Dec where
  | nak (code info : Nat)
  /-- NAK ISO_ERR: the session is fenced (R53). -/
  | fence (info : Nat)
  /-- The journal has no room: NAK BUSY and event 233 (R50). -/
  | full
  /-- The effective frame acknowledged. -/
  | ok (frame : Nat)
  deriving DecidableEq, Repr

/-- The declaration of an object for a write: while the open group swaps the program, a program object that the incoming
image declares SLUICE, since such a write is part of the group (R94, R130); otherwise the running program's object when it
is not SLUICE, since that write is no part of the group (R130). (DEDUCED, log entry 21.) -/
def declFor (s : State) (i e sub : Nat) : Option Decl :=
  if (swapOf s.slu.openSet).isSome ∧ 0x6000 ≤ i ∧ i ≤ 0x9FFF then
    match s.prog.staged.bind (fun im => (imageDecl im i e sub).bind DictDecl.decl) with
    | some d => if d.effect = .sluice then some d else (declAt s i e sub).filter (fun d => d.effect != .sluice)
    | none => (declAt s i e sub).filter (fun d => d.effect != .sluice)
  else declAt s i e sub

/-- Access of an object: SPEED of CTL0 refuses writes (Table 11.3). -/
def accessOf (d : Decl) (k : Nat) : Access := if k = Obj.port.speed 4 then .ro else d.access

def seriesOf (s : State) (k : Nat) : Option (List Byte) := (s.ctl.series.find? (fun x => x.object == k)).map (·.bytes)

/-- The series a segment continues, with it: none when the segment breaks R38. -/
def continued (s : State) (k : Nat) (w : WriteBody) : Option (List Byte) :=
  match seriesOf s k with
  | none => if w.offset = 0 then some w.value else none
  | some b => if w.offset = b.length then some (b ++ w.value) else none

/-- The value of a WRITE: none when it is out of range; the inner none for a segment that is not the last. -/
def writeValue (s : State) (d : Decl) (k : Nat) (w : WriteBody) (last : Bool) : Option (Option Val) :=
  if d.typ.size = 0 then
    match continued s k w with
    | none => none
    | some b => if !last then some none else if blobOk k b then some (some (.bytes b)) else none
  else
    match decodeNum d.typ w.value with
    | none => none
    | some v => if numOk s d k v then some (some (.num v)) else none

/-- A change enters a shadow set in place of an earlier one to the same object (R131). -/
def stageIn (l : List Change) (c : Change) : List Change := l.filter (fun x => x.object != c.object) ++ [c]

/-- Room for a change in the open group and in the shadow store (R132, R133). -/
def shadowCheck (s : State) (c : Change) : Dec :=
  let l := stageIn s.slu.openSet c
  let bytes := dataBytes s l
  if 1048576 < bytes then .nak 9 (bytes - 1048576)
  else if 16384 < routeChanges l ∨ 4096 < eddyChanges l ∨ 256 < beamChanges l then .nak 9 0
  else if 4194304 < storeUsed s - dataBytes s s.slu.openSet + bytes then .nak 5 busyHint
  else .ok 0

/-- A WRITE to a SLUICE object outside a group commits a group of one (R31, R135). -/
def singleCheck (s : State) (c : Change) : Dec :=
  if 4194304 < storeUsed s + dataBytes s [c] then .nak 5 busyHint
  else match judge s [c] 0 true false 0 with
  | .accept f _ _ => .ok f
  | .nak code info _ => if code = 12 then .fence info else .nak code info

/-- Checks 12 and 13 and the class of the object. -/
def placeCheck (s : State) (n : Nat) (r : Request) (d : Decl) (k : Nat) (v : Option Val) : Dec :=
  if keyBlocked s k then .fence (blockInfo ((blockOfKey s k).getD 0))
  else if keyIndex k = 0x5300 ∧ keySub k = 9 ∧ stagingBusy s (keyElem k) then .nak 5 busyHint
  else if !journalFits s r then .full
  else match v with
  | none => .ok 0
  | some v =>
    match d.effect with
    | .control => .ok s.frame
    | .direct => .ok (s.frame + 1)
    | .sluice => if s.slu.openSession = n then shadowCheck s ⟨k, v⟩ else singleCheck s ⟨k, v⟩

/-- Checks 6 to 13 of a WRITE. -/
def writeCheck (s : State) (n i sub : Nat) (w : WriteBody) (last : Bool) : Dec :=
  let k := okey i w.element sub
  if sessState s n = 2 then .nak 3 (natO s (Obj.sess.fencedAt (n - 1)))
  else match declFor s i w.element sub with
  | none => .nak 7 0
  | some d =>
    if d.typ ≠ .blob ∧ w.offset ≠ 0 then .nak 7 0
    else if w.typ ≠ d.typ.code then .nak 6 d.typ.code
    else if accessOf d k ≠ .rw ∧ accessOf d k ≠ .wo then .nak 8 (accessOf d k).code
    else if !isOwner s n then .nak 2 (ownerId s)
    else
      if d.typ.size = 0 ∧ (continued s k w).any (fun b => segmentRefused s k b.length) then .nak 7 0
      else match writeValue s d k w last with
      | none => .nak 7 0
      | some v => placeCheck s n (.write i sub w) d k v

/-- Checks 6 to 13 of a GROUP_BEGIN (R130). -/
def beginCheck (s : State) (n : Nat) (b : BeginBody) : Dec :=
  if sessState s n = 2 then .nak 3 (natO s (Obj.sess.fencedAt (n - 1)))
  else if b.reserved ≠ 0 then .nak 7 0
  else if !isOwner s n then .nak 2 (ownerId s)
  else if s.slu.openSession ≠ 0 then .nak 7 0
  else if !journalFits s (.groupBegin b) then .full
  else .ok s.frame

/-- Checks 6 to 13 of a GROUP_COMMIT with those of Table 6.3, and the beams whose weights fail R195. -/
def commitCheck (s : State) (n : Nat) (b : CommitBody) : Dec × List Nat :=
  if sessState s n = 2 then (.nak 3 (natO s (Obj.sess.fencedAt (n - 1))), [])
  else if b.reserved ≠ 0 ∨ b.options &&& 0xFFFC ≠ 0 ∨ 2 ^ 48 ≤ b.target then (.nak 7 0, [])
  else if !isOwner s n then (.nak 2 (ownerId s), [])
  else if s.slu.openSession ≠ n ∨ s.slu.openTag ≠ b.tag then (.nak 7 0, [])
  else match judge s s.slu.openSet b.target (b.options.getLsbD 0) (b.options.getLsbD 1) (natO s Obj.slu.fedTag) with
  | .nak code info beams => (if code = 12 then .fence info else .nak code info, beams)
  | .accept f _ _ => (if journalFits s (.groupCommit b) then .ok f else .full, [])

/-- The session a YIELD hands over to: OPEN, of the station named, and not the owner's (Table 2.15). -/
def successor (s : State) (n station : Nat) : Option Nat :=
  if natO s (Obj.sess.station (n - 1)) = station then none
  else sessionNumbers.find? (fun m => sessState s m == 1 && natO s (Obj.sess.station (m - 1)) == station)

def yieldCheck (s : State) (n station : Nat) : Dec :=
  if !isOwner s n then .nak 2 (ownerId s)
  else if (successor s n station).isNone then .nak 7 0
  else if !journalFits s (.yield station) then .full
  else .ok s.frame

/-- RESUME lifts the fence (R54). -/
def resumeCheck (s : State) (n q fencedAt : Nat) : Dec :=
  let next := natO s (Obj.sess.nextSeq (n - 1))
  if sessState s n ≠ 2 ∨ natO s (Obj.sess.fencedAt (n - 1)) ≠ fencedAt ∨ q < next ∨ next + 127 < q
      ∨ (session s n).results.any (fun r => decide (q ≤ r.sequence)) then .nak 7 0
  else if !journalFits s (.resume fencedAt) then .full
  else .ok s.frame

/-! ## What an accepted request does, at every unit that holds its entry -/

/-- A commit group leaves the open state with its frame (R135); a federated one coordinates or is held (R144). (DEDUCED, log entry 71.) -/
def commitGroup (s : State) (n q : Nat) (b : CommitBody) (frame : Nat) : State :=
  let l := s.slu.openSet
  let fed := natO s Obj.slu.fedTag
  let p := if lack s l [] (frameAsked s l (prepBound s l) frame) = 0 then Plan.whole s l else Plan.split s l
  let (g, s) := newGroup s b.tag n q frame frame (b.options.getLsbD 0) (b.options.getLsbD 1) fed false p
  let s := closeOpen s
  if fed = 0 then { s with slu := { s.slu with waiting := s.slu.waiting ++ [g] } }
  else if leads s then
    let s := { s with slu := { s.slu with coord := some g, answers := [] } }
    decideFed (sendFed s 1 fed frame (natO s Obj.fed.generation))
  else
    { s with slu := { s.slu with
      heldFed := some { g with phase := 3 }, prepareSeen := false, fedAsk := none, fedReady := s.frame + p.bound } }

/-- The effect of a complete value by the class of its object (R31). (DEDUCED, log entry 69.) -/
def placeValue (s : State) (n q k frame : Nat) (d : Decl) (v : Val) : State :=
  match d.effect with
  | .control => applyChange s s.frame ⟨k, v⟩ false
  | .direct => { s with slu := { s.slu with direct := s.slu.direct ++ [⟨s.slu.nextId, frame, n, q, ⟨k, v⟩⟩], nextId := s.slu.nextId + 1 } }
  | .sluice =>
    if s.slu.openSession = n then { s with slu := { s.slu with openSet := stageIn s.slu.openSet ⟨k, v⟩ } }
    else
      let (g, s) := newGroup s 0 n q frame frame true false 0 true (Plan.whole s [⟨k, v⟩])
      { s with slu := { s.slu with waiting := s.slu.waiting ++ [g] } }

/-- A refused last segment ends its series (R38) (DEDUCED, log entry 75). -/
def dropSeries (s : State) (k : Nat) : State :=
  { s with ctl := { s.ctl with series := s.ctl.series.filter (fun x => x.object != k) } }

/-- The effect of a WRITE. -/
def writeEffect (s : State) (n q i sub : Nat) (w : WriteBody) (frame : Nat) (last : Bool) : State :=
  let k := okey i w.element sub
  match declFor s i w.element sub with
  | none => s
  | some d =>
    if d.typ.size = 0 then
      let b := (continued s k w).getD w.value
      let s := dropSeries s k
      if last then placeValue s n q k frame d (.bytes b)
      else { s with ctl := { s.ctl with series := s.ctl.series ++ [⟨n, k, b⟩] } }
    else
      match decodeNum d.typ w.value with
      | none => s
      | some v => placeValue s n q k frame d (.num v)

/-- The fence is lifted: numbers up to q are skipped, and held requests below q are answered STALE (R42, R54). -/
def resumeEffect (s : State) (n q : Nat) : State :=
  let v := session s n
  let next := natO s (Obj.sess.nextSeq (n - 1))
  let stale := v.held.filter (fun h => decide (h.envelope.sequence < q))
  let low := (v.results.map (·.sequence)).foldl min next
  let s := setSession s n { v with
    held := v.held.filter (fun h => !decide (h.envelope.sequence < q))
    skipped := if next < q then v.skipped ++ [(next, q - 1)] else v.skipped }
  let s := stale.foldl (fun s h => refuse s h.envelope h.request 4 low) s
  setMany s [(Obj.sess.state (n - 1), 1), (Obj.sess.fencedAt (n - 1), 0), (Obj.sess.nextSeq (n - 1), q)]

/-- What an accepted request does. -/
def effectOf (s : State) (n q : Nat) (r : Request) (frame : Nat) (last : Bool) : State :=
  match r with
  | .write i sub w => writeEffect s n q i sub w frame last
  | .groupBegin b => { s with slu := { s.slu with openTag := b.tag, openSession := n, openSeq := q, openSet := [] } }
  | .groupCommit b => commitGroup s n q b frame
  | .yield st => match successor s n st with
    | none => s
    | some m => takeOwner s m 0 false
  | .resume _ => resumeEffect s n q
  | .hello _ => s
  | .claim _ => s
  | .heartbeat _ => s
  | .read _ => s
  | .subscribe _ => s

/-- The entry of a request stays in the journal until its effect comes at a later frame: a commit group, a DIRECT write, a
SLUICE write of its own (R50, R133). (DEDUCED, log entry 61.) -/
def staysOpen (s : State) (n : Nat) (r : Request) (last : Bool) : Bool :=
  match r with
  | .groupBegin _ => true
  | .groupCommit _ => true
  | .write i sub w =>
    match declFor s i w.element sub with
    | none => false
    | some d => (d.effect == .direct || (d.effect == .sluice && s.slu.openSession != n)) && (last || d.typ.size != 0)
  | _ => false

/-- An accepted request is journaled and takes its effect (R50). -/
def journalAndDo (s : State) (n q : Nat) (r : Request) (frame : Nat) (last : Bool) : State :=
  let stays := staysOpen s n r last
  let s := effectOf (journalAdd s n q frame r) n q r frame last
  if stays then s else retireEntry s n q

/-! ## Carrying a request out -/

/-- A request that passed or failed its checks is carried out or refused. -/
def conclude (s : State) (e : Envelope) (r : Request) (d : Dec) : State :=
  let n := e.session
  match d with
  | .nak code info => refuse s e r code info
  | .full => refuse (raise s 233 noDetail) e r 5 busyHint
  | .fence info =>
    let s := setMany s [(Obj.sess.state (n - 1), 2), (Obj.sess.fencedAt (n - 1), e.sequence)]
    refuse (raise s 232 n) e r 12 info
  | .ok frame =>
    acknowledge (journalAndDo s n e.sequence r frame (e.flags.getLsbD 1)) e r frame true

/-- RESET with UNIT 00b names the unit that received the request (Table 14.14). -/
def nameUnit (s : State) (e : Envelope) (r : Request) : Request :=
  match r with
  | .write 0x1200 1 w =>
    let v := beNat w.value
    if w.value.length = 2 ∧ v / 16384 = 0 ∧ s.rst.pairEnable then
      .write 0x1200 1 { w with value := natBE (v + 16384 * (if s.pins.unitB != forwarded e then 2 else 1)) 2 }
    else r
  | .write 0x1620 10 w =>
    if beNat w.value = 0 ∧ w.value.length = 1 ∧ s.rst.pairEnable then
      .write 0x1620 10 { w with value := natBE (if s.pins.unitB != forwarded e then 2 else 1) 1 }
    else r
  | _ => r

def doWrite (s : State) (e : Envelope) (i sub : Nat) (w : WriteBody) : State :=
  match nameUnit s e (.write i sub w) with
  | .write i sub w =>
    let d := writeCheck s e.session i sub w (e.flags.getLsbD 1)
    let s := match d with
      | .nak 7 _ => dropSeries s (okey i w.element sub)
      | _ => s
    conclude s e (.write i sub w) d
  | _ => s

def doCommit (s : State) (e : Envelope) (b : CommitBody) : State :=
  let (d, beams) := commitCheck s e.session b
  let s := beams.foldl (fun s x => raise s 200 x) s
  conclude s e (.groupCommit b) d

/-! ## CLAIM (R46, R47) -/

def claimBad (b : ClaimBody) : Bool := b.bits.toNat / 8 != 0 || (b.bits.getLsbD 1 && b.bits.getLsbD 2)

/-- A CLAIM of the owner's own session takes effect on its fields. -/
def ownClaim (s : State) (b : ClaimBody) : State :=
  setMany s [(Obj.own.ownerPriority, b.priority), (Obj.own.preemptible, boolNum (b.bits.getLsbD 0))]

/-- A CLAIM joins the running election. -/
def joinElection (s : State) (e : Envelope) (b : ClaimBody) : State :=
  let c : Candidate := ⟨e.session, b.priority, b.bits.getLsbD 0, some ⟨e, .claim b⟩⟩
  { s with ctl := { s.ctl with candidates := s.ctl.candidates.filter (fun x => x.session != e.session) ++ [c] } }

def doClaim (s : State) (e : Envelope) (b : ClaimBody) : State :=
  let n := e.session
  let r : Request := .claim b
  if claimBad b then refuse s e r 7 0
  else if b.bits.getLsbD 2 then
    let s := setSession s n { session s n with standing := none }
    if isOwner s n then acknowledge s e r 0 false else refuse s e r 2 (ownerId s)
  else
    let s := if b.bits.getLsbD 1 then setSession s n { session s n with standing := some (b.priority, b.bits.getLsbD 0) } else s
    if isOwner s n then acknowledge (ownClaim s b) e r 0 false
    else if ownerState s = 0 then joinElection (openWindow (journalDecision s .electing)) e b
    else if ownerState s = 1 then joinElection s e b
    else if getO s Obj.own.preemptible = 1 ∧ natO s Obj.own.ownerPriority < b.priority then
      acknowledge (takeOwner s n b.priority (b.bits.getLsbD 0)) e r 0 false
    else refuse s e r 2 (ownerId s)

/-! ## READ and SUBSCRIBE (R43, R44) -/

/-- The value of a READ, or its NAK. -/
def readCheck (s : State) (b : ReadBody) : (Nat × Nat) ⊕ List Byte :=
  let k := okey b.index b.element b.sub
  match declAt s b.index b.element b.sub with
  | none => .inl (7, 0)
  | some d =>
    let refused := readRefused s k
    let v := liveValue s d k
    if (d.typ ≠ .blob ∧ b.offset ≠ 0) ∨ (d.typ = .blob ∧ refused = none ∧ v.length < b.offset) then .inl (7, 0)
    else if b.typ ≠ d.typ.code then .inl (6, d.typ.code)
    else if d.access = .ro ∧ keyBlocked s k then .inl (12, blockInfo ((blockOfKey s k).getD 0))
    else match refused with
    | some (code, info) => .inl (code, info)
    | none => .inr v

/-- What a READ leaves: BULK records the frame of its values, a sensor reading is a fresh free value. (DEDUCED, log entry 93.) -/
def readDone (s : State) (b : ReadBody) : State :=
  let s := { s with fresh := s.fresh + 1 }
  if b.index = 0x4220 ∧ b.sub = 5 then setO s Obj.meter.bulkFrame s.conf.meterFrame else s

/-- The payload of an ACK to READ (Table 2.12). -/
def readPayload (s : State) (b : ReadBody) (v : List Byte) : List Byte :=
  let want := if b.maxLen = 0 then 1416 else min b.maxLen 1416
  let part := (v.drop b.offset).take want
  natBE b.index 2 ++ natBE b.element 2 ++ natBE b.sub 1 ++ natBE b.typ 1 ++ natBE b.offset 4 ++ natBE part.length 2 ++ natBE s.frame 8
    ++ natBE v.length 4 ++ part

/-- A READ is served; the second time with REPLAYED (R42). -/
def doRead (s : State) (e : Envelope) (b : ReadBody) (replayed : Bool) : State :=
  match readCheck s b with
  | .inl (code, info) => if replayed then sendNak s e code info true else nakRecorded s e 5 code info
  | .inr v =>
    let p := readPayload s b v
    let s := readDone s b
    if replayed then sendAck s e p true
    else sendAck (consume (recordResult s e.session ⟨e.sequence, true, 0, 0, 5⟩) e.session e.sequence) e p false

def subscribeBad (b : SubscribeBody) : Bool :=
  decide (2 < b.kind) || (b.kind != 2 && decide (1 < b.mode))
    || (b.kind != 2 && (if b.mode = 1 then b.period == 0 || decide (60000 < b.period) else b.period != 0))
    || (b.kind == 1 && (decide (b.element < b.index) || decide (255 < b.element) || b.sub != 0 || b.typ != 0))
    || (b.kind == 2 && (b.mode != 0 || b.period != 0 || b.index != 0 || b.element != 0 || b.sub != 0 || b.typ != 0))

def doSubscribe (s : State) (e : Envelope) (b : SubscribeBody) : State :=
  let n := e.session
  let r : Request := .subscribe b
  let k := okey b.index b.element b.sub
  let v := session s n
  if subscribeBad b then refuse s e r 7 0
  else if b.kind = 2 then acknowledge (setSession s n { v with subs := [] }) e r 0 false
  else
    let d := declAt s b.index b.element b.sub
    let code : Option (Nat × Nat) := if b.kind = 1 then none else match d with
      | none => some (7, 0)
      | some d => if b.typ ≠ d.typ.code then some (6, d.typ.code) else none
    match code with
    | some (c, i) => refuse s e r c i
    | none =>
      match ((List.range 64).map (· + 1)).find? (fun id => !v.subs.any (fun u => u.id == id)) with
      | none => refuse s e r 9 0
      | some id =>
        let seen := match d with
          | some d => if b.kind = 0 then liveValue s d k else []
          | none => []
        let u : Sub := ⟨id, b.kind, b.mode, b.period, k, b.index, b.element, seen⟩
        acknowledge (setSession s n { v with subs := v.subs ++ [u] }) e r id false

/-! ## Execution in sequence (R39, R42) -/

/-- Check 5: a hand-over or a replay runs. -/
def paused (s : State) : Bool := s.ctl.replay || s.ctl.handover

/-- The owner's FORCE_ACTIVE at an orphan, which no partner can decide (R320). (DEDUCED, log entry 72.) -/
def isForce (s : State) (r : Request) : Bool :=
  match r with
  | .write i sub _ => i == 0x3800 && sub == 10 && pairState s == 9
  | _ => false

/-- A request that a standby leaves to the active unit (R49, R52, R143). -/
def decidedByActive (s : State) (r : Request) : Bool :=
  isStandby s && (reqCode r == 2 || reqIsWrite r || reqCode r == 13) && !isForce s r

/-- Carry out the next request of a session, from check 5 on. A unit that watches for its role takes no decision and has no one
to ask: NAK BUSY. (DESIGN CHOICE, log entry 110.) -/
def execute (s : State) (e : Envelope) (r : Request) : State :=
  if paused s then refuse s e r 5 busyHint
  else if decidedByActive s r then
    if cutOff s || s.pair.watching != 0 then nakNow s e r 5 busyHint
    else { forward s e r with ctl := { s.ctl with forwarded := s.ctl.forwarded ++ [⟨e, r⟩] } }
  else match r with
  | .hello _ => s
  | .heartbeat _ => s
  | .claim b => doClaim s e b
  | .yield st => conclude s e r (yieldCheck s e.session st)
  | .read b => doRead s e b false
  | .write i sub w => doWrite s e i sub w
  | .groupBegin b => conclude s e r (beginCheck s e.session b)
  | .groupCommit b => doCommit s e b
  | .subscribe b => doSubscribe s e b
  | .resume f => conclude s e r (resumeCheck s e.session e.sequence f)

/-- Request q of session n is in the window and on its way to its answer: it waits for an election, for the partner's confirmation
or for the active unit. -/
def answering (s : State) (n q : Nat) : Bool :=
  let same (x : Envelope) : Bool := x.session == n && x.sequence == q
  s.ctl.await.any (fun a => same a.envelope) || s.ctl.forwarded.any (fun h => same h.envelope)
    || s.ctl.candidates.any (fun c => match c.waiting with
      | some h => same h.envelope
      | none => false)

/-- The first number from q on whose request has not come to its turn yet (R42). -/
def turnFrom (s : State) (n : Nat) : Nat → Nat → Nat
  | 0, q => q
  | fuel + 1, q =>
    if (session s n).results.any (fun x => x.sequence == q) || answering s n q then turnFrom s n fuel (q + 1) else q

/-- The number whose turn it is: requests behind one that waits only for its answer go on (R40, R42). -/
def turn (s : State) (n : Nat) : Nat := turnFrom s n 128 (natO s (Obj.sess.nextSeq (n - 1)))

/-- Held requests whose turn has come are carried out in ascending order. -/
def drain (s : State) (n : Nat) : Nat → State
  | 0 => s
  | fuel + 1 =>
    let v := session s n
    let q := turn s n
    match v.held.find? (fun h => h.envelope.sequence == q) with
    | none => s
    | some h =>
      let s := setSession s n { v with held := v.held.filter (fun x => x.envelope.sequence != q) }
      drain (execute s h.envelope h.request) n fuel

/-- Take over the source address and port of a later copy (R42). -/
def readdress (e : Envelope) (x : Envelope) : Envelope :=
  if x.session = e.session ∧ x.sequence = e.sequence then { x with srcAddr := e.srcAddr, srcPort := e.srcPort } else x

/-- The same request has been received and is not yet answered. -/
def inHand (s : State) (e : Envelope) : Bool :=
  (session s e.session).held.any (fun h => h.envelope.session == e.session && h.envelope.sequence == e.sequence)
    || answering s e.session e.sequence

def secondCopy (s : State) (e : Envelope) : State :=
  let h (x : Held) : Held := { x with envelope := readdress e x.envelope }
  let v := session s e.session
  let s := setSession s e.session { v with held := v.held.map h }
  { s with ctl := { s.ctl with
    await := s.ctl.await.map (fun a => { a with envelope := readdress e a.envelope })
    forwarded := s.ctl.forwarded.map h
    candidates := s.ctl.candidates.map (fun c => { c with waiting := c.waiting.map h }) } }

/-- A number already consumed or answered is answered from the store (R42). -/
def fromStore (s : State) (e : Envelope) (r : Request) : State :=
  let v := session s e.session
  let low := (v.results.map (·.sequence)).foldl min (natO s (Obj.sess.nextSeq (e.session - 1)))
  if natO s (Obj.sess.nextSeq (e.session - 1)) > e.sequence + 1024 then nakNow s e r 4 low
  else match v.results.find? (fun x => x.sequence == e.sequence) with
  | none => nakNow s e r 4 low
  | some x =>
    match r with
    | .read b => if x.kind = 5 then doRead s e b true else sendResult s e x true
    | _ => sendResult s e x true

/-- Check 4 and what follows, for a sequenced request of an open session. -/
def sequenced (s : State) (e : Envelope) (r : Request) : State :=
  let n := e.session
  let q := e.sequence
  let next := natO s (Obj.sess.nextSeq (n - 1))
  let v := session s n
  if inHand s e then secondCopy s e
  else if q < next ∨ v.results.any (fun x => x.sequence == q) ∨ v.skipped.any (fun k => decide (k.1 ≤ q) && decide (q ≤ k.2)) then
    fromStore s e r
  else if next + 127 < q then nakNow s e r 5 busyHint
  else if q = turn s n ∧ v.held.isEmpty then execute s e r
  else if reqCode r = 13 ∧ sessState s n = 2 then drain (execute s e r) n 129
  else
    drain (setSession s n { v with held := v.held ++ [⟨e, r⟩] }) n 129

/-- A unit of a pair passes on every HEARTBEAT, and every CLAIM that it does not leave to its partner in its turn (R49). -/
def passOn (s : State) (e : Envelope) (r : Request) : State :=
  let claims := reqCode r == 2 && (isActive s || !sessionOpen s e.session)
  if s.rst.pairEnable && (reqCode r == 4 || claims) then forward s e r else s

/-- A message from a controller reaches the engine (Table 2.13). The control complex serves Gultin from Rising on, and not while
it is in reset (R348). (DEDUCED, log entry 99.) -/
def gultin (s : State) (e : Envelope) (r : Request) : State :=
  if stageOf s < 2 || inReset s 25 || !servedAt s e then s
  else if headerBad e r then bumpO s Obj.own.malformedDrops
  else if !tagOk s e r then bumpO s Obj.own.authDrops
  else
    let s := passOn s e r
    match r with
    | .hello b => doHello s e b
    | .heartbeat _ => doHeartbeat s e
    | _ => if !sessionOpen s e.session then nakNow s e r 8 0xFFFFFFFF else sequenced (touch s e.session e) e r

/-! ## The rows of Table 2.11 -/

def execHello (e : Envelope) (b : HelloBody) (s : State) : Ans := done (gultin s e (.hello b))
def execClaim (e : Envelope) (b : ClaimBody) (s : State) : Ans := done (gultin s e (.claim b))
def execYield (e : Envelope) (station : Nat) (s : State) : Ans := done (gultin s e (.yield station))
def execHeartbeat (e : Envelope) (epoch : Nat) (s : State) : Ans := done (gultin s e (.heartbeat epoch))
def execRead (e : Envelope) (b : ReadBody) (s : State) : Ans := done (gultin s e (.read b))
def execWrite (e : Envelope) (index sub : Nat) (w : WriteBody) (s : State) : Ans := done (gultin s e (.write index sub w))
def execGroupBegin (e : Envelope) (b : BeginBody) (s : State) : Ans := done (gultin s e (.groupBegin b))
def execGroupCommit (e : Envelope) (b : CommitBody) (s : State) : Ans := done (gultin s e (.groupCommit b))
def execSubscribe (e : Envelope) (b : SubscribeBody) (s : State) : Ans := done (gultin s e (.subscribe b))
def execResume (e : Envelope) (fencedAt : Nat) (s : State) : Ans := done (gultin s e (.resume fencedAt))

/-! ## Writes with rows of their own -/

def execClose (e : Envelope) (w : WriteBody) (s : State) : Ans := done (gultin s e (.write 0x1110 10 w))
def execCellStatusClear (e : Envelope) (sub : Fin 8) (w : WriteBody) (s : State) : Ans :=
  done (gultin s e (.write 0x4010 (2 + sub.val) w))
def execStoreLength (e : Envelope) (w : WriteBody) (s : State) : Ans := done (gultin s e (.write 0x4000 5 w))
def execStoreChunk (e : Envelope) (w : WriteBody) (s : State) : Ans := done (gultin s e (.write 0x4000 7 w))
def execVerify (e : Envelope) (w : WriteBody) (s : State) : Ans := done (gultin s e (.write 0x4000 8 w))
def execGroupDiscard (e : Envelope) (w : WriteBody) (s : State) : Ans := done (gultin s e (.write 0x4300 8 w))
def execStageChunk (e : Envelope) (w : WriteBody) (s : State) : Ans := done (gultin s e (.write 0x5300 9 w))
def execLinkRetrain (e : Envelope) (w : WriteBody) (s : State) : Ans := done (gultin s e (.write 0x3000 9 w))
def execLaneRetrain (e : Envelope) (w : WriteBody) (s : State) : Ans := done (gultin s e (.write 0x3010 14 w))
def execAsymClear (e : Envelope) (w : WriteBody) (s : State) : Ans := done (gultin s e (.write 0x2100 75 w))
def execResync (e : Envelope) (w : WriteBody) (s : State) : Ans := done (gultin s e (.write 0x3800 8 w))
def execForceActive (e : Envelope) (w : WriteBody) (s : State) : Ans := done (gultin s e (.write 0x3800 10 w))
def execPartnerReset (e : Envelope) (w : WriteBody) (s : State) : Ans := done (gultin s e (.write 0x3800 12 w))
def execResetBlock (e : Envelope) (w : WriteBody) (s : State) : Ans := done (gultin s e (.write 0x1200 1 w))
def execResetWarm (e : Envelope) (w : WriteBody) (s : State) : Ans := done (gultin s e (.write 0x1200 1 w))
def execResetCold (e : Envelope) (w : WriteBody) (s : State) : Ans := done (gultin s e (.write 0x1200 1 w))
def execStickyClear (e : Envelope) (w : WriteBody) (s : State) : Ans := done (gultin s e (.write 0x1300 2 w))
def execCountClear (e : Envelope) (w : WriteBody) (s : State) : Ans := done (gultin s e (.write 0x1300 5 w))
def execClearAll (e : Envelope) (w : WriteBody) (s : State) : Ans := done (gultin s e (.write 0x1300 68 w))
def execInjectionWindow (e : Envelope) (w : WriteBody) (s : State) : Ans := done (gultin s e (.write 0x1400 0 w))
def execArm (e : Envelope) (w : WriteBody) (s : State) : Ans := done (gultin s e (.write 0x1400 1 w))
def execDriftFlush (e : Envelope) (w : WriteBody) (s : State) : Ans := done (gultin s e (.write 0x1380 4 w))
def execShutdown (e : Envelope) (w : WriteBody) (s : State) : Ans := done (gultin s e (.write 0x1500 8 w))
def execDmaStart (e : Envelope) (w : WriteBody) (s : State) : Ans := done (gultin s e (.write 0x1600 7 w))
def execFwChunk (e : Envelope) (w : WriteBody) (s : State) : Ans := done (gultin s e (.write 0x1620 5 w))
def execFwVerify (e : Envelope) (w : WriteBody) (s : State) : Ans := done (gultin s e (.write 0x1620 6 w))
def execFwHandover (e : Envelope) (w : WriteBody) (s : State) : Ans := done (gultin s e (.write 0x1620 10 w))

/-! ## Timers of the control plane -/

/-- 50 ms after the first held request a gap is still open: every held request is answered NAK BUSY (R42). -/
def execSequenceGapTimeout (sess : Fin 32) (s : State) : Ans :=
  let n := sess.val + 1
  let v := session s n
  done (v.held.foldl (fun s h => refuse s h.envelope h.request 5 busyHint) (setSession s n { v with held := [] }))

/-- An open series without a segment for 1 s is discarded (R38). -/
def execBlobSeriesTimeout (sess : Fin 32) (index element sub : Nat) (s : State) : Ans :=
  done { s with ctl := { s.ctl with
    series := s.ctl.series.filter (fun x => !(x.session == sess.val + 1 && x.object == okey index element sub)) } }

/-- No message for 5 s: OPEN or FENCED goes DORMANT (R41). -/
def execSessionDormant (sess : Fin 32) (s : State) : Ans :=
  let n := sess.val + 1
  if sessState s n = 1 ∨ sessState s n = 2 then done (sleepSession s n) else .next s

/-- 60 s dormant: the session is freed (R41). -/
def execSessionFree (sess : Fin 32) (s : State) : Ans :=
  let n := sess.val + 1
  if sessState s n = 3 then done (freeSession s n) else .next s

/-- The candidates at the close of the window: CLAIMs, and the standing claims of OPEN sessions (R47). -/
def allCandidates (s : State) : List Candidate :=
  s.ctl.candidates ++ sessionNumbers.filterMap (fun n =>
    match (session s n).standing with
    | some (p, pre) =>
      if sessState s n = 1 ∧ !s.ctl.candidates.any (fun c => c.session == n) then some ⟨n, p, pre, none⟩ else none
    | none => none)

/-- The winner: highest priority, ties to the lower station ID. -/
def winner (s : State) (l : List Candidate) : Option Candidate :=
  l.foldl (fun a c => match a with
    | none => some c
    | some w =>
      if w.priority < c.priority ∨ (w.priority = c.priority
          ∧ natO s (Obj.sess.station (c.session - 1)) < natO s (Obj.sess.station (w.session - 1))) then some c
      else some w) none

/-- The election ends, as the active unit alone decides (R49, Table 2.15): CLAIMs that waited are answered, and what waited behind them goes on. -/
def execClaimWindowClose (s : State) : Ans :=
  if ownerState s ≠ 1 || decidesNothing s || isStandby s then .next s
  else
    let l := allCandidates s
    let s := { s with ctl := { s.ctl with candidates := [] } }
    match winner s l with
    | none => done (enterNoOwner (raiseEpoch (journalDecision s (.elected none))))
    | some w =>
      let s := journalDecision s (.elected (some (w.session, w.priority, w.preemptible)))
      let s := takeOwner s w.session w.priority w.preemptible
      done (l.foldl (fun s c => match c.waiting with
        | none => s
        | some h =>
          let s := if c.session = w.session then acknowledge s h.envelope h.request 0 false
            else refuse s h.envelope h.request 2 (ownerId s)
          drain s c.session 129) s)

/-- 100 ms without a heartbeat or a request of the owner (Table 2.15); a hand-over holds the timer (R399). -/
def execOwnerLossTimeout (s : State) : Ans :=
  if s.ctl.handover || inReset s 25 then .next s else done (decideLoss s)

/-- A periodic subscription pushes the current value, or one message for each unmasked event of its range (R44). -/
def execSubscriptionPeriod (sess : Fin 32) (id : Nat) (s : State) : Ans :=
  let n := sess.val + 1
  match (session s n).subs.find? (fun u => u.id == id && u.mode == 1) with
  | none => .next s
  | some u =>
    if inReset s 25 then .next s
    else if u.kind = 0 then
      match declAt s (keyIndex u.object) (keyElem u.object) (keySub u.object) with
      | none => .next s
      | some d => done (pushTo s n 0 (objectPayload s u.id u.object d.typ (liveValue s d u.object)))
    else
      done (((List.range 256).filter (fun x => decide (u.first ≤ x) && decide (x ≤ u.last) && getO s (Obj.evt.mask x) == 0)).foldl
        (fun s x => pushTo s n (injectedFlag (getO s (Obj.evt.injected x) == 1))
          (eventPayload s u.id x (natO s (Obj.evt.severity x)) (natO s (Obj.evt.count x)) (natO s (Obj.evt.lastFrame x))
            (natO s (Obj.evt.detail x)))) s)

/-- No confirmation in 2 ms (400 ms while the standby hands over its firmware): the partner is out of step, and the active unit
acknowledges alone (R306, R399). -/
def execJournalConfirmTimeout (sess : Fin 32) (sequence : Nat) (s : State) : Ans :=
  let mine (a : AwaitAck) : Bool := a.envelope.session == sess.val + 1 && a.envelope.sequence == sequence
  if s.ctl.await.any mine then done (releaseAwait (settleEntries (outOfStep s) (fun _ => true)) (fun _ => true)) else .next s

def execPersistSave (index element sub : Nat) (s : State) : Ans :=
  match declAt s index element sub with
  | none => .next s
  | some d => if inReset s 25 || stageOf s < 2 then .next s else done (saveObject s (okey index element sub) d)

end Sys2Proof.Machine
end

