-- ==== Sys2Proof/Machine/Svc.lean ====
section
/-! DEFINITION. The service port (R353 to R355): its frames, and the SVC objects only it may write: option bytes (R342), key slots
(R391), AUTH_MODE and the HMAC keys (R56), and the clears of the reset counters (R360) and of Moraine (R380). -/

namespace Sys2Proof.Machine

/-- A service request behind its checks (Table 14.11): OP, TAG, address, offset, value. -/
structure SvcReq where
  op     : Nat
  tag    : Nat
  index  : Nat
  elem   : Nat
  sub    : Nat
  typ    : Nat
  offset : Nat
  value  : List Byte
  deriving DecidableEq, Repr

/-- A big-endian field of a service frame. -/
def svcField (b : List Byte) (off n : Nat) : Nat := beNat ((b.drop off).take n)

/-- A request frame that is whole, of a known OP and with a correct CRC (R354). (DEDUCED, log entry 77.) -/
def svcParse (b : List Byte) : Option SvcReq :=
  let body := b.take (b.length - 4)
  let op := svcField b 0 1
  let len := svcField b 2 2
  if b.length < 18 || !oneOf op [1, 2, 0x82] || decide (4096 < len) || b.length != 18 + len || (op == 1 && len != 0)
      || beNat (b.drop (b.length - 4)) != crc32 body then none
  else
    some ⟨op, svcField b 1 1, svcField b 4 2, svcField b 6 2, svcField b 8 1, svcField b 9 1, svcField b 10 4, body.drop 14⟩

/-- An answer (Table 14.12). -/
def svcBytes (tag code frame : Nat) (value : List Byte) : List Byte :=
  let b := [0x01] ++ natBE tag 1 ++ natBE code 2 ++ natBE frame 8 ++ natBE value.length 2 ++ value
  b ++ natBE (crc32 b) 4

/-- The answer waits for a FETCH; a new request discards an answer that has not been fetched (R353). -/
def svcAnswer (s : State) (tag code : Nat) (value : List Byte) : State :=
  { s with rst := { s.rst with svcAnswer := some (svcBytes tag code s.frame value) } }

/-- Objects that hardware serves in Trickle (R355). -/
def trickleServes (r : SvcReq) : Bool :=
  (r.index == 0x1000 && r.elem == 0 && oneOf r.sub [1, 2, 3, 6, 7]) || oneOf r.index [0x1201, 0x1210, 0x1220, 0x1500]

/-! ## SVC objects -/

/-- Each field of an option slot that Table 14.5 or 14.7 reserves holds 0, and no coding it reserves is used. -/
def optionReservedOk (b : List Byte) : Bool :=
  let u (i : Nat) : Nat := (b.getD i 0).toNat
  let route (i : Nat) : Bool :=
    u (24 + 6 * i) / 16 % 8 == 0 && u (25 + 6 * i) / 32 == 0 && u (26 + 6 * i) / 16 == 0 && u (27 + 6 * i) / 32 == 0
  decide (u 3 < 3) && (List.range 16).all route && decide (u 120 < 16) && decide (u 121 < 16)
    && (List.range 4).all (fun g => u 122 / 4 ^ g % 4 != 3) && u 123 == 0

/-- The lowest blank option slot. -/
def blankSlot (s : State) : Option Nat := (List.range 8).find? (fun k => optionBlank (optionSlot s k))

/-- An option slot as R342 admits it. (DEDUCED, log entry 76.) -/
def optionOk (s : State) (b : List Byte) : Bool :=
  b.length == 128 && optionValid b && optionReservedOk b && (blankSlot s).isSome

/-- Program the lowest blank slot; it takes effect at the next cold or warm reset (R342). -/
def programOption (s : State) (b : List Byte) : State :=
  match blankSlot s with
  | none => s
  | some k =>
    let s := { s with bus := { s.bus with otp := bytesPut s.bus.otp (128 * k) b } }
    setO s Obj.opt.blank (blankSlots s : Nat)

/-- Offset of a key slot in the OTP (Table 16.5): kind 0 program key, 1 firmware key. -/
def keyOffset (kind slot : Nat) : Nat := 0x400 + 512 * kind + 128 * slot

/-- A point on P-384: X and Y in the field, on the curve. -/
def onP384 (x y : Nat) : Bool :=
  decide (x < p384P) && decide (y < p384P) && (y * y) % p384P == (x * x * x + (p384P - 3) * x + p384B) % p384P

/-- A KEY_WRITE value as R391 admits it. -/
def keyOk (s : State) (b : List Byte) : Bool :=
  let kind := svcField b 0 1
  let slot := svcField b 1 1
  b.length == 98 && decide (kind < 2) && decide (slot < 4) && optionBlank (bytesGet s.bus.otp (keyOffset kind slot) 128)
    && onP384 (svcField b 2 48) (svcField b 50 48)

/-- Program a key slot (R391). -/
def burnKey (s : State) (b : List Byte) : State :=
  { s with bus := { s.bus with otp := bytesPut s.bus.otp (keyOffset (svcField b 0 1) (svcField b 1 1)) (b.drop 2) } }

/-- CLEAR of the reset counters: sub-indices 1 to 8 of 1201h (Table 14.15). -/
def clearCounters (s : State) : State :=
  setMany s (((List.range 8).map (fun i => (okey 0x1201 0 (i + 1), (0 : Int)))))

/-- A whole BLOB of an SVC object is in order. -/
def svcBlobOk (s : State) (k : Nat) (b : List Byte) : Bool :=
  match keyIndex k with
  | 0x1100 => b.length == 32
  | 0x1220 => optionOk s b
  | 0x1600 => keyOk s b
  | _ => false

/-- A whole BLOB of an SVC object takes effect. -/
def svcPutBlob (s : State) (k : Nat) (b : List Byte) : State :=
  match keyIndex k with
  | 0x1100 => setB s k b
  | 0x1220 => programOption s b
  | 0x1600 => burnKey s b
  | _ => s

/-- A number of an SVC object takes effect. -/
def svcPutNum (s : State) (k : Nat) (v : Int) : State :=
  match keyIndex k with
  | 0x1100 => setO s k v
  | 0x1201 => if v = 1 then clearCounters s else s
  | 0x1500 => if v = 1 then clearMoraine s else s
  | _ => s

/-! ## Requests -/

/-- The series a segment continues, with it (R38); none when it breaks the rule. -/
def svcSeriesBytes (s : State) (k offset : Nat) (v : List Byte) : Option (List Byte) :=
  match s.rst.svcSeries.find? (fun x => x.object == k) with
  | none => if offset = 0 then some v else none
  | some x => if offset = x.bytes.length then some (x.bytes ++ v) else none

def svcDropSeries (s : State) (k : Nat) : State :=
  { s with rst := { s.rst with svcSeries := s.rst.svcSeries.filter (fun x => x.object != k) } }

/-- A READ: the NAK code, or the value from OFFSET, at most 4,096 bytes. -/
def svcRead (s : State) (r : SvcReq) : State :=
  let b : ReadBody := ⟨r.index, r.elem, r.sub, r.typ, r.offset, 0⟩
  match readCheck s b with
  | .inl (code, _) => svcAnswer s r.tag code []
  | .inr v => readDone (svcAnswer s r.tag 0 ((v.drop r.offset).take 4096)) b

/-- A segment of an SVC BLOB: it joins its series, or ends it. -/
def svcSegment (s : State) (r : SvcReq) (k : Nat) : State :=
  match svcSeriesBytes s k r.offset r.value with
  | none => svcAnswer (svcDropSeries s k) r.tag 7 []
  | some b =>
    let s := svcDropSeries s k
    if r.op = 2 then
      svcAnswer { s with rst := { s.rst with svcSeries := ⟨0, k, b⟩ :: s.rst.svcSeries } } r.tag 0 []
    else if svcBlobOk s k b then svcAnswer (svcPutBlob s k b) r.tag 0 []
    else svcAnswer s r.tag 7 []

/-- A WRITE: only SVC objects are accepted (R354). -/
def svcWrite (s : State) (r : SvcReq) : State :=
  let k := okey r.index r.elem r.sub
  match declAt s r.index r.elem r.sub with
  | none => svcAnswer s r.tag 7 []
  | some d =>
    if d.typ ≠ .blob ∧ r.offset ≠ 0 then svcAnswer s r.tag 7 []
    else if r.typ ≠ d.typ.code then svcAnswer s r.tag 6 []
    else if d.access ≠ .svc then svcAnswer s r.tag 8 []
    else if d.typ.size = 0 then svcSegment s r k
    else
      match decodeNum d.typ r.value with
      | none => svcAnswer s r.tag 7 []
      | some v => if numOk s d k v then svcAnswer (svcPutNum s k v) r.tag 0 [] else svcAnswer s r.tag 7 []

/-- A service-port frame other than a FETCH. The port answers from Trickle on; while the control complex is in reset what
arrives is dropped (R348). -/
def svcRequest (s : State) (b : List Byte) : State :=
  if stageOf s = 0 || (stageOf s != 1 && inReset s 25) then s
  else
    match svcParse b with
    | none => svcAnswer s (svcField b 1 1) 0xFFFF []
    | some r =>
      if stageOf s = 1 && !trickleServes r then svcAnswer s r.tag 5 []
      else if r.op = 1 then svcRead s r
      else svcWrite s r

/-- FETCH: the answer, or STATE 02h when none is outstanding (Table 14.12). -/
def svcFetch (s : State) : State :=
  if stageOf s = 0 || (stageOf s != 1 && inReset s 25) then s
  else
    match s.rst.svcAnswer with
    | none => emit s (.svc [0x02])
    | some b => emit { s with rst := { s.rst with svcAnswer := none } } (.svc b)

/-- Any frame of the port, by its OP. -/
def svcFrame (f : SvcFrame) (s : State) : State :=
  if svcField f.bytes 0 1 = 3 ∧ !f.bytes.isEmpty then svcFetch s else svcRequest s f.bytes

def execSvcRead (f : SvcFrame) (s : State) : Ans := done (svcFrame f s)
def execSvcWrite (f : SvcFrame) (s : State) : Ans := done (svcFrame f s)
def execSvcWriteLast (f : SvcFrame) (s : State) : Ans := done (svcFrame f s)
def execSvcFetch (f : SvcFrame) (s : State) : Ans := done (svcFrame f s)
def execOptionProgram (f : SvcFrame) (s : State) : Ans := done (svcFrame f s)
def execKeyWrite (f : SvcFrame) (s : State) : Ans := done (svcFrame f s)
def execCounterClear (f : SvcFrame) (s : State) : Ans := done (svcFrame f s)
def execMoraineClear (f : SvcFrame) (s : State) : Ans := done (svcFrame f s)

end Sys2Proof.Machine
end

