-- ==== Sys2Proof/Machine/Fed.lean ====
section
/-! DEFINITION. Federations (R325 to R334): contributions and their forwarding, inclusion, presence, the leader, mismatches, and
the federated commit of R144 to R146. -/

namespace Sys2Proof.Machine

def fedOn (s : State) : Bool := getO s Obj.fed.enable == 1

/-! ## Parts (Table 13.11) -/

/-- The slots a SLOT_MAP names, by number. -/
def mapSlots (part : Nat) (m : List Byte) : List Nat :=
  (List.range 256).filterMap (fun b => if (m.getD (b / 8) 0).getLsbD (b % 8) then some (256 * part + b) else none)

/-- SLOT_MAP of the slots carried. -/
def slotBits (part : Nat) (slots : List Nat) : List Byte :=
  (List.range 32).map (fun i =>
    BitVec.ofNat 8 (((List.range 8).filter (fun j => slots.contains (256 * part + 8 * i + j))).foldl (fun a j => a + 2 ^ j) 0))

/-- The fields of a FEDFRAME message. -/
def parsePart (b : List Byte) : FedPart :=
  let v := bytesField b 1 1
  ⟨v % 8, v.testBit 3, v.testBit 4, v.testBit 5, v.testBit 6, bytesField b 2 6, bytesField b 8 1, bytesField b 9 1, bytesField b 10 1,
    bytesField b 11 1, bytesField b 12 4, bytesField b 16 8, bytesField b 24 8, bytesField b 32 4, bytesField b 36 1,
    mapSlots (bytesField b 8 1) ((b.drop 40).take 32), (pieces 3 (b.drop 72)).map (fun x => signed 24 (beNat x)), crc32 b⟩

/-- The bytes of a part behind KIND. -/
def partBytes (p : FedPart) : List Byte :=
  let flag (b : Bool) (n : Nat) : Nat := if b then n else 0
  natBE (p.member + flag p.unitB 8 + flag p.active 16 + flag p.muted 32 + flag p.leader 64) 1 ++ natBE p.frame 6 ++ natBE p.part 1
    ++ natBE p.epoch 1 ++ natBE p.major 1 ++ natBE p.hops 1 ++ natBE p.timeError 4 ++ natBE p.gen 8 ++ natBE p.hash 8
    ++ natBE p.layout 4 ++ natBE p.members 1 ++ [0x00, 0x00, 0x00] ++ slotBits p.part p.slots
    ++ p.samples.flatMap (fun x => natBE (wrapTo 24 x) 3)

/-- A part is as Table 13.11 lays it out. -/
def partOk (s : State) (b : List Byte) : Bool :=
  let p := parsePart b
  decide (72 ≤ b.length) && decide (p.part < 8) && bytesField b 37 3 == 0 && !(bytesField b 1 1).testBit 7
    && b.length == 72 + 3 * frameSamples s * p.slots.length

/-- The ring link opposite to one. -/
def oppositeLink (l : Nat) : Nat := if l = 4 then 5 else 4

/-- Forward a part of another member out of the opposite ring link (R326). -/
def forwardPart (s : State) (l : Nat) (p : FedPart) : State :=
  if 7 ≤ p.hops then s else sendBraid s (oppositeLink l) 0 0x20 (partBytes { p with hops := p.hops + 1 })

/-- Copies of the same part from the same unit. -/
def samePart (a b : FedPart) : Bool := a.member == b.member && a.unitB == b.unitB && a.frame == b.frame && a.part == b.part

/-- A member's part 0 tells its GENERATION; the leader's tells how far ahead its FRAME is (R329, R331). -/
def hearPart (s : State) (p : FedPart) : State :=
  if p.part ≠ 0 then s
  else
    let s := { s with fed := { s.fed with gens := s.fed.gens.set p.member p.gen } }
    if p.leader ∧ p.member = natO s Obj.fed.leader then { s with fed := { s.fed with ahead := p.frame - s.frame } } else s

/-- A part is held for the route pass of its frame + 2; one that misses its deadline is not received (R327, R328). -/
def holdPart (s : State) (p : FedPart) : State :=
  if p.frame + 1 ≤ s.frame then bumpO s Obj.fed.lateParts
  else
    let s := hearPart s p
    if s.frame + 6 < p.frame then
      if p.part = 0 ∧ !s.fed.heard.contains p.member then { s with fed := { s.fed with heard := p.member :: s.fed.heard } } else s
    else if s.fed.parts.any (samePart p) then s
    else { s with fed := { s.fed with parts := s.fed.parts ++ [p] } }

/-- A FEDFRAME arrives (R326, R327). -/
def execFedframe (f : BraidFrame) (s : State) : Ans :=
  done (onMessage s f 0x20 (fun s =>
    let p := parsePart (frameBytes f)
    if !fedOn s || !(f.link.val == 4 || f.link.val == 5) || !partOk s (frameBytes f) || p.member == s.pins.fedId then s
    else holdPart (forwardPart s f.link p) p))

/-! ## The frame's work (R327 to R331) -/

/-- The copy used of a part: that of the sender's ACTIVE unit, otherwise its Unit A's (R303). -/
def chosenPart (s : State) (g member part : Nat) : Option FedPart :=
  let cs := s.fed.parts.filter (fun p => p.frame == g && p.member == member && p.part == part)
  match cs.find? (fun p => p.active) with
  | some p => some p
  | none => match cs.find? (fun p => !p.unitB) with
    | some p => some p
    | none => cs.head?

def memberBit (s : State) (key k : Nat) : Bool := (natO s key).testBit k

def setMemberBit (s : State) (key k : Nat) (v : Bool) : State :=
  setO s key (natO s key - (if memberBit s key k then 2 ^ k else 0) + (if v then 2 ^ k else 0) : Nat)

/-- Presence of a member after the parts of a frame (R328). (DEDUCED, log entry 86.) -/
def presence (s : State) (g k : Nat) : State :=
  if (chosenPart s g k 0).isSome ∨ s.fed.heard.contains k then
    setMemberBit { s with fed := { s.fed with missing := s.fed.missing.set k 0 } } Obj.fed.present k true
  else
    let n := s.fed.missing.getD k 0 + 1
    let s := { s with fed := { s.fed with missing := s.fed.missing.set k n } }
    if 6 ≤ n then bumpO (setMemberBit s Obj.fed.present k false) (Obj.fed.memberLost k) else s

/-- Members present, this one included, with their GENERATION. -/
def presentGens (s : State) : List (Nat × Nat) :=
  (List.range 8).filterMap (fun k =>
    if k = s.pins.fedId then some (k, natO s Obj.fed.generation)
    else if memberBit s Obj.fed.present k then some (k, s.fed.gens.getD k 0)
    else none)

/-- The leader: the lowest-numbered present member of the highest GENERATION (R329). -/
def leaderOf (s : State) : Nat :=
  let l := presentGens s
  let top := l.foldl (fun a e => max a e.2) 0
  ((l.find? (fun e => e.2 == top)).map (·.1)).getD s.pins.fedId

/-- Bits [31:24] of 1000h.4. -/
def fwMajor (s : State) : Nat := natO s Obj.ident.fwVersion / 16777216

/-- A mismatch of Table 13.13 is found: its bit, and its event when it begins. -/
def mismatch (s : State) (bit : Nat) (found : Bool) : State :=
  if found && !memberBit s Obj.fed.mismatch bit then
    raiseLasting (setMemberBit s Obj.fed.mismatch bit true) (137 + bit) noDetail
  else s

/-- A member compares itself with the leader's part 0 of a frame (R330). -/
def compareLeader (s : State) (g leader : Nat) : State :=
  let p := chosenPart s g leader 0
  let differs := p.any (fun p => p.layout != natO s Obj.fed.layout || p.members != natO s Obj.fed.members || p.major != fwMajor s
    || (getO s Obj.fed.hashCheck == 1 && p.hash != natO s Obj.ident.programHash))
  let bad := if p.isSome then 0 else s.fed.badTime + 1
  let e := selectedEntry s
  let late := decide (6 ≤ bad) || p.any (fun p => p.epoch != natO s Obj.clk.epoch)
    || ((e == some 0 || e == some 1) && decide (natO s Obj.fed.timeLimit < timeError s))
    || (e == some 6 && decide (natO s Obj.fed.phaseLimit < (getO s (Obj.ref.phaseNs 6)).natAbs))
  let s := { s with fed := { s.fed with
    badTime := bad
    goodVersion := if differs then 0 else s.fed.goodVersion + 1
    goodTime := if late then 0 else s.fed.goodTime + 1 } }
  let s := mismatch s 0 (p.any (fun p => p.gen != natO s Obj.fed.generation))
  mismatch (mismatch s 1 differs) 2 late

/-- The leader compares the MEMBERS of every part 0 with its own (R330). -/
def leaderChecks (s : State) (g : Nat) : State :=
  (otherMembers s).foldl
    (fun s k =>
      match chosenPart s g k 0 with
      | none => s
      | some p =>
        let was := s.fed.differ.contains k
        let now := p.members != natO s Obj.fed.members
        if was = now then s
        else if now then raise { s with fed := { s.fed with differ := k :: s.fed.differ } } 138 k
        else { s with fed := { s.fed with differ := s.fed.differ.filter (· != k) } }) s

/-- A part is included in the inbound sums (R327). -/
def included (s : State) (p : FedPart) : Bool :=
  memberBit s Obj.fed.members p.member && p.member != s.pins.fedId && !p.muted && p.gen == natO s Obj.fed.generation
    && getO s Obj.fed.mismatch == 0 && !s.fed.differ.contains p.member

/-- The samples a part carries for a slot. -/
def partSlot (n : Nat) (p : FedPart) (slot : Nat) : List Int :=
  match p.slots.idxOf? slot with
  | none => []
  | some i => (List.range n).map (fun j => p.samples.getD (j * p.slots.length + i) 0)

/-- Inbound samples of a slot: the exact sum over the included parts, saturated, and how many saturated (R327). -/
def inboundSlot (n : Nat) (ps : List FedPart) (slot : Nat) : List Int × Nat :=
  let vs := (ps.map (fun p => partSlot n p slot)).filter (fun v => !v.isEmpty)
  let sums := (List.range n).map (fun j => vs.foldl (fun a v => a + v.getD j 0) 0)
  (sums.map (sat (-8388608) 8388607), sums.countP (fun x => decide (x < -8388608) || decide (8388607 < x)))

/-- The inbound sources of the route pass that reads frame g. -/
def inbound (s : State) (g : Nat) : Sparse (List Int) × State :=
  let ps := ((otherMembers s).flatMap (fun k => (List.range 8).filterMap (chosenPart s g k))).filter (included s)
  let slots := (ps.flatMap (·.slots)).eraseDups
  slots.foldl
    (fun a i =>
      let (v, clips) := inboundSlot (frameSamples s) (ps.filter (fun p => p.part == i / 256)) i
      (Sparse.put (fun _ => []) a.1 (4928 + i) v, if clips = 0 then a.2 else addO a.2 Obj.fed.inboundClips clips)) ([], s)

/-- STATE of the federation object. -/
def fedState (s : State) : Nat :=
  if !fedOn s then 0 else if getO s Obj.fed.mismatch ≠ 0 then 3 else if natO s Obj.fed.leader = s.pins.fedId then 2 else 1

/-- A member in free epoch behind its leader takes the leader's number by a reframe (R331, R23). -/
def joinLeader (s : State) : State :=
  if getO s Obj.clk.epoch = 0 ∧ natO s Obj.fed.leader ≠ s.pins.fedId ∧ s.fed.ahead ≠ 0 ∧ !isStandby s ∧ s.sel.pending.isNone ∧ s.sel.running then
    putPending s ⟨6, s.frame + 18, 0, 2, s.fed.ahead, true⟩
  else s

/-- Verdicts of the federation as an object each: MISMATCH, LEADER, PRESENT. -/
def verdicts (s : State) : Nat × Nat × Nat := (natO s Obj.fed.mismatch, natO s Obj.fed.leader, natO s Obj.fed.present)

/-- The active unit journals its verdicts when one has changed; both units find them from the same agreed parts (R332, R333). -/
def journalVerdicts (before : Nat × Nat × Nat) (s : State) : State :=
  let v := verdicts s
  if v = before then s else journalDecision s (.fedVerdict v.1 v.2.1 v.2.2)

/-- Presence, leader and mismatches after the parts of frame g. -/
def fedVerdicts (s : State) (g : Nat) : State :=
  let before := verdicts s
  let s := (otherMembers s).foldl (fun s k => presence s g k) s
  let old := natO s Obj.fed.leader
  let l := if natO s Obj.fed.members = 0 then 255 else leaderOf s
  let s := setO s Obj.fed.leader l
  let s := if old = l then s else recheckEntry s 6
  let s := if l = s.pins.fedId then leaderChecks s g else if l = 255 then s else compareLeader s g l
  setO (joinLeader (journalVerdicts before s)) Obj.fed.state (fedState s)

/-- The federation's part of the tick that opens frame X: frame X − 2 is consumed (R29, R327). Answers the inbound samples by
source. -/
def fedTick (s : State) : Sparse (List Int) × State :=
  if !fedOn s ∨ s.frame < 2 then ([], setMany s [(Obj.fed.state, 0), (Obj.fed.leader, 255)])
  else
    let g := s.frame - 2
    let (m, s) := inbound (fedVerdicts s g) g
    (m, { s with fed := { s.fed with parts := s.fed.parts.filter (fun p => decide (g < p.frame)), heard := [], ahead := 0 } })

/-- This unit's contribution for the running frame, part by part (R326). -/
def ownPart (s : State) (p : Nat) : FedPart :=
  let slots := ((List.range 256).map (256 * p + ·)).filter (fun i => getO s (Obj.dest.source (4608 + i)) != 0)
  let ys := slots.map (fun i => (destOf s (4608 + i)).y)
  ⟨s.pins.fedId, s.pins.unitB, isActive s, getO s Obj.fed.mismatch != 0, natO s Obj.fed.leader == s.pins.fedId, s.frame, p,
    natO s Obj.clk.epoch, fwMajor s, 0, timeError s, natO s Obj.fed.generation, natO s Obj.ident.programHash,
    natO s Obj.fed.layout, natO s Obj.fed.members, slots, (List.range (frameSamples s)).flatMap (fun j => ys.map (fun y => y.getD j 0)), 0⟩

/-- Hops from the leader: 0 at the leader, one more than the nearer neighbour elsewhere. -/
def leaderHops (s : State) : Nat :=
  if natO s Obj.fed.leader = s.pins.fedId then 0 else min 255 ((s.fed.hops.foldl min 255) + 1)

/-- The parts and the FEDTICK of a frame leave on both ring links (R326, R329). -/
def fedSend (s : State) : State :=
  if !fedOn s || decide (stageOf s < 2) then s
  else
    let ps := ((List.range 8).map (ownPart s)).filter (fun p => p.part == 0 || !p.slots.isEmpty)
    let tick := natBE s.frame 6 ++ natBE s.pins.fedId 1 ++ natBE (leaderHops s) 1
    let s := [4, 5].foldl (fun s l => sendBraid s l 0 0x22 tick) s
    let s := ps.foldl (fun s p => [4, 5].foldl (fun s l => sendBraid s l 0 0x20 (partBytes p)) s) s
    setO s Obj.fed.sentSlots (ps.foldl (fun a p => a + p.slots.length) 0 : Nat)

/-- A FEDTICK arrives: entry 6 measures its phase from the neighbour nearer to the leader (R329). -/
def execFedtick (f : BraidFrame) (phaseNs : Int) (s : State) : Ans :=
  done (onMessage s f 0x22 (fun s =>
    if !fedOn s || !(f.link.val == 4 || f.link.val == 5) then s
    else
      let i := f.link.val - 4
      let hops := s.fed.hops.set i (msgField f 8 1)
      let s := { s with fed := { s.fed with hops := hops } }
      let near := hops.getD i 255 < hops.getD (1 - i) 255 ∨ (hops.getD i 255 = hops.getD (1 - i) 255 ∧ i = 0)
      if near ∧ natO s Obj.fed.leader ≠ s.pins.fedId then setEntry s 6 { entryOf s 6 with raw := phaseNs } else s))

/-- Six consecutive frames without a member's part 0: event 136 (R328). -/
def execFedMemberLost (member : Fin 8) (s : State) : Ans :=
  if fedOn s ∧ (otherMembers s).contains member.val ∧ s.fed.missing.getD member 0 = 6 then done (raise s 136 member.val)
  else .next s

/-- Sixty frames in a row without the mismatch: it clears (Table 13.13). A GENERATION mismatch clears with a GO only. -/
def execFedMismatchClear (bit : Fin 3) (s : State) : Ans :=
  let good := if bit.val = 1 then s.fed.goodVersion else if bit.val = 2 then s.fed.goodTime else 0
  if memberBit s Obj.fed.mismatch bit ∧ 60 ≤ good then
    let s := clearCondition (setMemberBit s Obj.fed.mismatch bit false) (137 + bit.val)
    done (setO s Obj.fed.state (fedState s))
  else done s

/-! ## The federated commit (R145, R146) -/

/-- FEDCTRL travels round the ring until it is back at its sender, and between the units of a pair whose rings differ. -/
def passFed (s : State) (f : BraidFrame) : State :=
  let l := f.link.val
  let b := (frameBytes f).drop 1
  if l = 4 ∨ l = 5 then
    let s := if msgField f 2 1 = s.pins.fedId then s else sendBraid s (oppositeLink l) 1 0x21 b
    if s.rst.pairEnable then sendPair s 0x21 b else s
  else s

/-- PREPARE names a tag and F: READY, REFUSE with the earliest feasible frame, or an answer when preparation completes.
(DEDUCED, log entry 85.) -/
def fedPrepare (s : State) (tag f : Nat) : State :=
  match s.slu.heldFed with
  | none => sendFed s 3 tag f (s.frame + 2)
  | some g =>
    if g.fedTag ≠ tag then sendFed s 3 tag f (s.frame + 2)
    else
      let s := { s with slu := { s.slu with prepareSeen := true, fedAsk := some (tag, f) } }
      let others := { s with slu := { s.slu with heldFed := none } }
      let sound := match judge others g.all 0 true false 0 with
        | .accept _ _ _ => true
        | .nak code _ _ => code == 10
      if !sound then sendFed s 3 tag f (s.frame + 2)
      else if g.prepared then sendFed s 2 tag f 0
      else if f < s.slu.fedReady + 8 then sendFed s 3 tag f (s.slu.fedReady + 2)
      else s

/-- The answer is to the coordinating group as it stands. -/
def answersCoord (s : State) (tag f : Nat) : Bool := s.slu.coord.any (fun g => g.fedTag == tag && g.target == f)

/-- READY of a member: the leader decides when it was the last one missing. -/
def takeReady (s : State) (member tag f : Nat) : State :=
  if answersCoord s tag f ∧ !s.slu.answers.contains member then
    decideFed { s with slu := { s.slu with answers := member :: s.slu.answers } }
  else s

/-- REFUSE: the leader decides ABORT. -/
def takeRefuse (s : State) (tag f earliest : Nat) : State :=
  if answersCoord s tag f then decideAbort (setO s Obj.slu.lastEarliest earliest) else s

/-- GO: the held group applies at F with the new generation; one that comes when the commit counts as aborted does nothing. -/
def takeGo (s : State) (tag f gen : Nat) : State :=
  match s.slu.heldFed with
  | none => s
  | some g => if s.slu.fedAsk = some (tag, f) ∧ g.fedTag = tag then releaseGroup s g f gen else s

/-- ABORT, or neither by F − 2: the held group stays held (R146, Table 6.5). -/
def takeAbort (s : State) (tag f : Nat) : State :=
  if s.slu.fedAsk = some (tag, f) then { s with slu := { s.slu with fedAsk := none } } else s

/-- What a received phase does, at each unit of a member. -/
def takePhase (s : State) (member phase tag f value : Nat) : State :=
  match phase with
  | 1 => fedPrepare s tag f
  | 2 => takeReady s member tag f
  | 3 => takeRefuse s tag f value
  | 4 => takeGo s tag f value
  | 5 => takeAbort s tag f
  | _ => s

/-- A phase that this member's active unit has sent takes effect at its standby: GO and ABORT of the leader. -/
def ownPhase (s : State) (phase gen : Nat) : State :=
  match s.slu.coord, phase with
  | some g, 4 => releaseGroup s g g.target gen
  | some _, 5 => abortCoord s
  | _, _ => s

/-- A FEDCTRL message of a phase that another member sent is passed on; the active unit journals it in its pair and acts on it, and
its standby acts on what is journaled (R145, R332). -/
def onFed (f : BraidFrame) (phase : Nat) (s : State) : State :=
  onMessage s f 0x21 (fun s =>
    if !fedOn s || msgField f 1 1 != phase || inReset s 25 then s
    else
      let s := passFed s f
      let member := msgField f 2 1
      let tag := msgField f 4 4
      let frame := msgField f 8 6
      let value := msgField f 16 8
      if member = s.pins.fedId || isStandby s then s
      else takePhase (journalDecision s (.fedPhase false phase tag frame (if phase = 2 then member else value))) member phase tag frame value)

def execPrepare (f : BraidFrame) (s : State) : Ans := done (onFed f 1 s)
def execReady (f : BraidFrame) (s : State) : Ans := done (onFed f 2 s)
def execRefuse (f : BraidFrame) (s : State) : Ans := done (onFed f 3 s)
def execGo (f : BraidFrame) (s : State) : Ans := done (onFed f 4 s)
def execAbort (f : BraidFrame) (s : State) : Ans := done (onFed f 5 s)

/-- Frame F − 6 without every READY: ABORT (Table 6.5). -/
def execFedDecisionDeadline (s : State) : Ans :=
  match s.slu.coord with
  | none => .next s
  | some g =>
    if s.frame + 6 < g.target ∨ isStandby s ∨ decidesNothing s then .next s
    else done (if allReady s ∧ g.prepared then decideGo s g else decideAbort s)

/-- Neither GO nor ABORT by frame F − 2: the commit counts as aborted, as the active unit decides, and the held group stays
(R146). -/
def execFedGoMissing (s : State) : Ans :=
  match s.slu.fedAsk with
  | none => .next s
  | some (tag, f) =>
    if s.frame + 2 < f ∨ isStandby s ∨ decidesNothing s then .next s else done (takeAbort (journalDecision s (.fedPhase false 5 tag f 0)) tag f)

end Sys2Proof.Machine
end

