-- ==== Sys2Proof/Machine/Pair.lean ====
section
/-! DEFINITION. Redundant pairs (R292 to R323): role and partner, input agreement, the journal between the units, digests,
failover, split guard, and resync. -/

namespace Sys2Proof.Machine

/-! ## Role and partner (R294 to R297) -/

/-- Unit B of two ACTIVE units stands down into WAITING (R297). -/
def standDown (s : State) : State :=
  if isActive s && s.pins.unitB && s.rst.pairEnable then raise (becomeStandby s 7) 129 noDetail else s

/-- The pair logic works: a pair-enabled unit from Rising on that has not taken itself out. -/
def pairRuns (s : State) : Bool := s.rst.pairEnable && decide (2 ≤ stageOf s) && !s.pair.tickLost

/-- Classification of the partner from an interval between edges (Table 13.2). -/
def aliveKind (ns : Nat) : Nat := if ns ≤ 52000 then 1 else if ns ≤ 73000 then 2 else if ns ≤ 125000 then 3 else 0

/-- The active unit learns that its partner is not in step (R300, R315). -/
def partnerOut (s : State) : State := if pairState s = 3 then toAlone s else s

def execPairAliveEdge (intervalNs : Nat) (s : State) : Ans :=
  if !pairRuns s then .next s
  else
    let k := aliveKind intervalNs
    let runs := if k = 1 then s.pair.activeRuns + 1 else 0
    let s := { s with pair := { s.pair with partnerKind := k, activeRuns := runs } }
    let s := if k = 3 then partnerOut s else s
    done (if 3 ≤ runs ∧ s.pair.watching = 0 then standDown s else s)

/-- Nothing on PAIR_ALIVE_IN for 125 µs (Table 13.2, the last column of Table 13.3). -/
def execPartnerAbsent (s : State) : Ans :=
  if !pairRuns s then .next s
  else
    let s := setO { s with pair := { s.pair with partnerKind := 0, activeRuns := 0 } } Obj.pair.partnerState 255
    match pairState s with
    | 2 => done (abortResync s 2)
    | 3 => done (toAlone s)
    | 5 => done (leaveStep s 9)
    | 6 => done (abortResync s 1)
    | 8 => done (if getO s Obj.pair.takeoverSilent = 1 then s else leaveStep s 9)
    | _ => done s

/-- After 1 ms of watching the unit takes its role, but Unit B waits 100 ms more on a high line (R296). -/
def execRoleWatchEnd (s : State) : Ans :=
  if !pairRuns s || s.pair.watching != 1 then .next s
  else if !s.pair.roleHigh then done (standbyStart s)
  else if s.pins.unitB then done { s with pair := { s.pair with watching := 2 } }
  else done (becomeActive s 1)

def execUnitBRoleWait (s : State) : Ans :=
  if !pairRuns s || s.pair.watching != 2 then .next s
  else if s.pair.roleHigh then done (becomeActive s 1)
  else done (standbyStart s)

/-- PAIR_ROLE changes level as filtered; in Trickle the outputs follow (R294, R350). -/
def execPairRoleChange (high : Bool) (s : State) : Ans :=
  let s := { s with pair := { s.pair with roleHigh := high && !s.pair.pullsRole } }
  done (if stageOf s = 1 then setDrive s (trickleDrives s) else s)

/-! ## Holdings (R301 to R303, Tables 13.5 and 13.6) -/

/-- The unit takes part in input agreement. -/
def agrees (s : State) : Bool := pairRuns s && [2, 3, 4, 6].contains (pairState s)

/-- Network copies with samples in frame h. -/
def dueNet (s : State) (h : Nat) : List RxCopy :=
  let fs := frameSamples s
  s.net.copies.filter (fun c => decide (c.at0 < (h + 1) * fs) && decide (h * fs < c.at0 + c.count))

/-- A record from up to two copies: key, presence, CRCs and the bits of byte 5. -/
def recordFrom (kind key : Nat) (a b : Option Nat) (aux : Nat) : AgreeRec :=
  ⟨kind, key, (if a.isSome then 1 else 0) + (if b.isSome then 2 else 0), a.getD 0, b.getD 0, aux⟩

/-- What this unit holds of the frames due at boundary x. -/
def holdings (s : State) (x : Nat) : List AgreeRec :=
  let net := dueNet s (x - 1)
  let nets := ((net.map (fun c => 65536 * c.stream + c.seq)).eraseDups).map (fun k =>
    let copy (p : Nat) := (net.find? (fun c => c.path == p && 65536 * c.stream + c.seq == k)).map (·.crc)
    recordFrom 0 k (copy 0) (copy 1) 0)
  let blocks := s.array.copies.filter (fun b => b.frame + 2 == x)
  let arrays := ((blocks.map (·.seq)).eraseDups).map (fun k =>
    let copy (l : Nat) := (blocks.find? (fun b => b.link == l && b.seq == k)).map (·.crc)
    recordFrom 1 k (copy 2) (copy 3) 0)
  let parts := s.fed.parts.filter (fun p => p.frame + 1 == x)
  let feds := ((parts.map (fun p => 16777216 * p.member + 65536 * p.part)).eraseDups).map (fun k =>
    let copy (u : Bool) := parts.find? (fun p => p.unitB == u && 16777216 * p.member + 65536 * p.part == k)
    let act (u : Bool) := (copy u).any (·.active)
    recordFrom 2 k ((copy false).map (·.crc)) ((copy true).map (·.crc))
      ((if act false then 1 else 0) + (if act true then 2 else 0)))
  (if x = 0 then [] else nets) ++ arrays ++ feds

def AgreeRec.bytes (r : AgreeRec) : List Byte :=
  natBE r.key 4 ++ natBE r.held 1 ++ natBE r.aux 1 ++ [0x00, 0x00] ++ natBE r.crcA 4 ++ natBE r.crcB 4

/-- FLAGS of an AGREE. -/
def agreeFlags (s : State) : Nat :=
  let st := pairState s
  (if s.pins.unitB then 1 else 0) + (if isActive s then 2 else 0) + (if st = 3 ∨ st = 4 then 4 else 0)
    + (if st = 2 ∨ st = 6 then 8 else 0)

/-- One part of the AGREE of the running boundary, on both pair links. -/
def sendAgreePart (s : State) (part last : Nat) (l : List AgreeRec) : State :=
  let count (k : Nat) := l.countP (fun r => r.kind == k)
  let m := natBE (agreeFlags s) 1 ++ natBE s.frame 6 ++ natBE (natO s Obj.pair.digest) 8 ++ natBE (count 0) 2 ++ natBE (count 1) 2
    ++ natBE (count 2) 2 ++ natBE part 1 ++ natBE last 1 ++ l.flatMap AgreeRec.bytes
  sendBraid (sendBraid s 0 0 0x10 m) 1 0 0x10 m

/-- Each unit sends AGREE at every boundary (R302); 1,022 records fit in 16,384 bytes. (DEDUCED, log entry 78.) -/
def sendAgree (s : State) : State :=
  if !pairRuns s || s.pair.watching != 0 then s
  else
    let l := holdings s s.frame
    let ps := if l.isEmpty then [[]] else chunks 1022 (l.length + 1) l
    (List.range ps.length).foldl (fun s i => sendAgreePart s i (if i + 1 = ps.length then 1 else 0) (ps.getD i [])) s

/-- The bytes of an array block (Table 7.3). -/
def blockMessage (b : ArrBlock) : List Byte :=
  [0x01, 0x00] ++ natBE b.concentrator 2 ++ natBE b.seq 4 ++ natBE b.frame 6 ++ natBE b.first 1 ++ natBE b.channels 1
    ++ natBE b.overload 16 ++ b.samples.flatMap (fun x => natBE (wrapTo 24 x) 3) ++ [0x00, 0x00, 0x00, 0x00] ++ natBE b.crc 4

/-- The bytes of this unit's copy number c of a record, as a FILL carries them. -/
def copyBytes (s : State) (r : AgreeRec) (c : Nat) : List Byte :=
  match r.kind with
  | 0 => match s.net.copies.find? (fun x => x.path == c && 65536 * x.stream + x.seq == r.key) with
    | some x => natBE x.stamp 4 ++ x.payload
    | none => []
  | 1 => match s.array.copies.find? (fun b => b.link == 2 + c && b.seq == r.key) with
    | some b => blockMessage b
    | none => []
  | _ => match s.fed.parts.find? (fun p => p.unitB == (c == 1) && 16777216 * p.member + 65536 * p.part == r.key) with
    | some p => [0x20] ++ partBytes p
    | none => []

/-- The preferred copy of a record from the union of both holdings (R303). -/
def preferred (r : AgreeRec) (p : Option AgreeRec) : Nat :=
  let held := r.held ||| (p.map (·.held)).getD 0
  let act := r.aux ||| (p.map (·.aux)).getD 0
  if r.kind = 2 then (if act.testBit 0 then 0 else if act.testBit 1 then 1 else if held.testBit 0 then 0 else 1)
  else if held.testBit 0 then 0
  else 1

def AgreeRec.crcOf (r : AgreeRec) (c : Nat) : Nat := if c = 0 then r.crcA else r.crcB

/-- Send the fill of a record when the partner lacks the preferred copy; between two different ones only the active unit
forwards (R303). -/
def fillFor (s : State) (r : AgreeRec) : State :=
  let p := s.pair.records.find? (fun x => x.kind == r.kind && x.key == r.key)
  let c := preferred r p
  let theirs := p.any (fun x => x.held.testBit c)
  let same := p.any (fun x => x.crcOf c == r.crcOf c)
  if r.held.testBit c ∧ (!theirs ∨ (!same ∧ isActive s)) then
    match pairLink s with
    | none => s
    | some l => sendBraid s l 0 0x11 (natBE r.key 4 ++ natBE r.kind 1 ++ natBE c 1 ++ copyBytes s r c)
  else s

/-! ## AGREE arrives (R302, R305, R309) -/

/-- An AGREE of the other unit laid out as Table 13.5. -/
def agreeOk (s : State) (f : BraidFrame) : Bool :=
  let n := (frameBytes f).length
  decide (24 ≤ n) && msgField f 1 1 / 16 == 0 && ((msgField f 1 1).testBit 0 != s.pins.unitB) && oneOf (msgField f 23 1) [0, 1]
    && n == 24 + 16 * (msgField f 16 2 + msgField f 18 2 + msgField f 20 2)

/-- The records of an AGREE message. -/
def agreeRecords (f : BraidFrame) : List AgreeRec :=
  let a := msgField f 16 2
  let b := a + msgField f 18 2
  (List.range (b + msgField f 20 2)).map (fun i =>
    let o := 24 + 16 * i
    ⟨if i < a then 0 else if i < b then 1 else 2, msgField f o 4, msgField f (o + 4) 1, msgField f (o + 8) 4, msgField f (o + 12) 4,
      msgField f (o + 5) 1⟩)

/-- A standby asks for a resync, with its versions (R293, R316): bytes 2 to 7 of VERSIONS are SAMPLE_RATE, REVISION and the
firmware's major version. -/
def sendVersions (s : State) : State :=
  let rev := (getB s Obj.ident.revision).take 4
  sendCtrl s 4 (natBE (natO s Obj.clk.sampleRate) 1 ++ rev ++ List.replicate (4 - rev.length) 0 ++ natBE (fwMajor s) 1)

def askResync (s : State) : State :=
  if [5, 7, 8].contains (pairState s) then sendCtrl (sendVersions s) 1 [] else s

/-- PARTNER_STATE as the flags give it; which of the states outside the pair's step a standby is in they do not say: free.
(DESIGN CHOICE, log entry 79.) -/
def flagState (s : State) (v : Nat) : Nat × State :=
  if v.testBit 1 then (if v.testBit 2 then 3 else if v.testBit 3 then 2 else 1, s)
  else if v.testBit 2 then (4, s)
  else if v.testBit 3 then (6, s)
  else
    let (x, s) := drawFree s
    ([5, 7, 8, 9].getD (x % 4) 5, s)

/-- What the partner's flags change (R297, R300, R305, R316). (DEDUCED, log entry 80.) -/
def takeFlags (s : State) (v : Nat) : State :=
  let (p, s) := flagState s v
  let s := setO s Obj.pair.partnerState p
  let st := pairState s
  let active := v.testBit 1
  let inStep := v.testBit 2
  if active && isActive s then standDown s
  else if st = 4 ∧ !inStep then leaveStep s 7
  else if st = 3 ∧ !inStep then toAlone s
  else if st = 9 ∧ active then leaveStep s 5
  else if active ∧ !v.testBit 3 then askResync s
  else s

/-- The partner's digest of frame g meets this unit's (R309, R319). -/
def meetDigest (s : State) (g d : Nat) : State :=
  match assocGet s.pair.digests g with
  | none => s
  | some own =>
    let st := pairState s
    if st = 3 ∨ st = 4 then (if own = d then s else diverge s g)
    else if (st = 2 ∨ st = 6) ∧ getO s Obj.pair.resyncPhase = 5 then
      if own = d then { s with pair := { s.pair with agreeing := s.pair.agreeing + 1 } } else abortBoth s 4
    else s

/-- Every part of the boundary's AGREE is there. -/
def agreeWhole (s : State) : Bool :=
  match s.pair.agreeLast with
  | none => false
  | some n => (List.range (n + 1)).all s.pair.agreeParts.contains

def takeAgree (s : State) (f : BraidFrame) : State :=
  let part := msgField f 22 1
  if msgField f 2 6 ≠ s.frame then takeFlags s (msgField f 1 1)
  else if s.pair.agreeClosed ∨ s.pair.agreeParts.contains part then s
  else
    let first := s.pair.agreeParts.isEmpty
    let s := { s with pair := { s.pair with
      agreeParts := part :: s.pair.agreeParts
      agreeLast := if msgField f 23 1 = 1 then some part else s.pair.agreeLast
      records := s.pair.records ++ agreeRecords f
      agreeMissing := 0 } }
    let s := if first then takeFlags (if s.frame = 0 then s else meetDigest s (s.frame - 1) (msgField f 8 8)) (msgField f 1 1) else s
    if agreeWhole s && agrees s then (holdings s s.frame).foldl fillFor s else s

/-- TICK_SKEW: this standby's tick less the active unit's, as the arrival of AGREE less the link's latency marks it (R307). -/
def noteSkew (s : State) (ns : Int) : State :=
  if isStandby s then setO s Obj.pair.tickSkew (max (-2147483648) (min 2147483647 ns)) else s

def execAgree (f : AgreeFrame) (s : State) : Ans :=
  done (onMessage s f.frame 0x10 (fun s =>
    if pairRuns s && decide (f.frame.link.val ≤ 1) && agreeOk s f.frame then takeAgree (noteSkew s f.skewNs) f.frame else s))

/-- In the frame before a role swap the coming active unit pulls PAIR_ROLE too (R314). -/
def pullAhead (s : State) : State :=
  if pairState s = 4 ∧ (committed s).any (fun g => g.target == s.frame + 1 && g.all.any (fun c => c.object == Obj.pair.roleSwap)) then
    { s with pair := { s.pair with pullsRole := true, roleHigh := false } }
  else s

/-- What PLL2 of a standby follows: the entry that the active unit has selected where it is selectable here, else the receive FC of
BL0, or of BL1 when BL0 is not ACTIVE (R307). -/
def followed (s : State) : Nat :=
  let e := natO s Obj.sel.selected
  if !isStandby s then 255
  else if e < 8 ∧ (entryOf s e).selectable then e
  else if linkActive s 0 then 8
  else if fcPresent s 1 then 9
  else 255

/-- A standby with nothing to follow leaves IN_STEP for WAITING. (DESIGN CHOICE, log entry 135.) -/
def followTick (s : State) : State :=
  let s := { s with pair := { s.pair with follows := followed s } }
  if pairRuns s ∧ pairState s = 4 ∧ s.pair.follows = 255 then leaveStep s 7 else s

/-- No part of the AGREE 83 µs after the boundary; after six frames the pair is out of step (R305). -/
def execAgreeTimeout (s : State) : Ans :=
  if !agrees s || s.pair.agreeClosed || !s.pair.agreeParts.isEmpty then .next s
  else
    let n := s.pair.agreeMissing + 1
    let s := bumpO s Obj.pair.agreeMissed
    let s := { s with pair := { s.pair with agreeClosed := true, agreeMissing := n, agreeing := 0 } }
    done (if 6 ≤ n then outOfStep s else s)

/-! ## Fills (R303) -/

/-- A fill takes the place of this unit's copy only at the standby. -/
def mergeCopy {α : Type} (s : State) (same : α → Bool) (x : α) (l : List α) : List α :=
  if l.any same then (if isActive s then l else l.map (fun y => if same y then x else y)) else l ++ [x]

/-- The frames in whose consumption a fill takes part. (DEDUCED, log entry 81.) -/
def noteFill (s : State) (l : List Nat) : State :=
  { s with pair := { s.pair with fills := s.pair.fills ++ l.filter (fun x => !s.pair.fills.contains x) } }

/-- A network fill: RTP time stamp and payload of a copy; samples of frames already consumed are left out, and a copy held that came too
late for samples the fill brings gives way to it (R254, R257). -/
def fillNet (s : State) (key path : Nat) (b : List Byte) : State :=
  let n := key / 65536
  let size := packetSamples s.rst.rate (natO s (Obj.rx.packetTime n))
  let fs := frameSamples s
  let ch := natO s (Obj.rx.channels n)
  let stamp := beNat (b.take 4)
  let payload := b.drop 4
  let xs := payloadSamples (natO s (Obj.rx.encoding n)) payload
  let i0 := nearestIndex ((stamp : Int) - getO s (Obj.rx.rtpOffset n) - getO s Obj.tb.tsShift) (sampleIndex s s.frame)
    + getO s (Obj.rx.linkOffset n)
  let first := max i0 (sampleIndex s (s.frame - 2) : Nat)
  let last := i0 + size - 1
  if n ≥ 512 ∨ getO s (Obj.rx.enable n) = 0 ∨ xs.length ≠ ch * size ∨ last < first then s
  else
    let skip := (first - i0).toNat
    let c : RxCopy := ⟨n, path, key % 65536, first.toNat, size - skip, xs.drop (skip * ch), crc32 payload, stamp, payload⟩
    let same (y : RxCopy) : Bool := y.stream == n && y.path == path && y.seq == key % 65536
    let cs := s.net.copies.filter (fun y => !(same y && decide (c.at0 < y.at0)))
    let s := { s with net := { s.net with copies := mergeCopy s same c cs } }
    noteFill s ((List.range ((last.toNat / fs) - (first.toNat / fs) + 1)).map (fun i => first.toNat / fs + i + 3))

def fillArray (s : State) (key copy : Nat) (b : List Byte) : State :=
  let v := parseBlock (2 + copy) b
  if blockBad s b ∨ v.seq ≠ key ∨ v.frame + 4 ≤ s.frame then s
  else
    let same (y : ArrBlock) : Bool := y.link == v.link && y.seq == v.seq && y.frame == v.frame
    noteFill { s with array := { s.array with copies := mergeCopy s same v s.array.copies } } [v.frame + 4]

def fillFed (s : State) (f : BraidFrame) : State :=
  let b := (frameBytes f).drop 7
  let p := parsePart b
  if !partOk s b ∨ p.frame + 2 ≤ s.frame then s
  else noteFill { s with fed := { s.fed with parts := mergeCopy s (samePart p) p s.fed.parts } } [p.frame + 2]

/-- FILL: record key, kind of record (0 network, 1 array, 2 federation), copy (0 the first of Table 13.6), its bytes. -/
def execFill (f : BraidFrame) (s : State) : Ans :=
  done (onMessage s f 0x11 (fun s =>
    let key := msgField f 1 4
    let copy := msgField f 6 1
    if !agrees s || decide (1 < copy) || decide (1 < f.link.val) then s
    else
      match msgField f 5 1 with
      | 0 => fillNet s key copy ((frameBytes f).drop 7)
      | 1 => fillArray s key copy ((frameBytes f).drop 7)
      | 2 => fillFed s f
      | _ => s))

/-- Event 131 and FILLED in a frame that consumes a fill (R303). -/
def consumeFills (s : State) : State :=
  let used := s.pair.fills.contains s.frame
  let s := { s with pair := { s.pair with fills := s.pair.fills.filter (fun x => decide (s.frame < x)) } }
  if used then raise (bumpO s Obj.pair.filled) 131 noDetail else s

/-! ## TDM inputs (R304) -/

/-- Slots of a port at the engine's rate. -/
def portSlots (s : State) : Nat := if s.rst.rate = 0 then 32 else 16

/-- Samples of a slot in a capture. -/
def captured (s : State) (m : Sparse (List Int)) (code : Nat) : List Int :=
  let v := Sparse.get (fun _ => []) m code
  v ++ List.replicate (frameSamples s - v.length) 0

/-- The active unit sends its capture of the frame that has ended. -/
def sendTdmIn (s : State) : State :=
  match s.conf.tdm.frames, pairLink s with
  | (h, cap) :: _, some l =>
    if !agrees s || !isActive s then s
    else
      let codes := (List.range 16).flatMap (fun p => (List.range (portSlots s)).map (fun i => 32 * p + i))
      sendBraid s l 0 0x12 (natBE h 6 ++ [0x00, 0x10] ++ codes.flatMap (fun c => (captured s cap c).flatMap (fun x => natBE (wrapTo 24 x) 3)))
  | _, _ => s

/-- The standby adopts the active unit's capture, and counts a difference from its own. -/
def execTdmIn (f : BraidFrame) (s : State) : Ans :=
  done (onMessage s f 0x12 (fun s =>
    let h := msgField f 1 6
    let first := msgField f 7 1
    let n := frameSamples s
    let codes := (List.range (msgField f 8 1)).flatMap (fun p => (List.range (portSlots s)).map (fun i => 32 * (first + p) + i))
    if !agrees s || isActive s || decide (h + 3 ≤ s.frame) || decide (16 < first + msgField f 8 1) then s
    else if (frameBytes f).length ≠ 9 + 3 * n * codes.length then s
    else
      let words := (pieces 3 ((frameBytes f).drop 9)).map (fun x => signed 24 (beNat x))
      let old := (assocGet s.conf.tdm.adopted h).getD []
      let cap := (List.range codes.length).foldl
        (fun m i => Sparse.put (fun _ => []) m (codes.getD i 0) ((words.drop (n * i)).take n)) old
      let s := { s with conf := { s.conf with tdm := { s.conf.tdm with adopted := assocPut s.conf.tdm.adopted h cap } } }
      match assocGet s.conf.tdm.frames h with
      | none => s
      | some own => if codes.any (fun c => captured s own c != captured s cap c) then bumpO s Obj.pair.tdmDiff else s))

/-- No capture has come by the deadline of the frame read in the coming route pass: the standby uses its own. -/
def execTdmInDeadline (s : State) : Ans :=
  if agrees s && !isActive s && decide (2 ≤ s.frame) && (assocGet s.conf.tdm.adopted (s.frame - 2)).isNone then
    done (bumpO s Obj.pair.agreeMissed)
  else .next s

/-! ## Digests (R308) -/

/-- Samples as 3-byte words. -/
def wordsOf (n : Nat) (ys : List Int) : List Byte := (List.range n).flatMap (fun j => natBE (wrapTo 24 (ys.getD j 0)) 3)

/-- Fold a CRC-64 over bytes. -/
def crcOver (c : BitVec 64) (b : List Byte) : BitVec 64 := b.foldl crc64Byte c

/-- Product of two remainders modulo the CRC polynomial, bit 63 being the highest power. -/
def crcMul (a b : BitVec 64) : BitVec 64 :=
  (List.range 64).foldl
    (fun c i =>
      let c := if c.getLsbD 63 then (c <<< 1) ^^^ 0x42F0E1EBA9EA3693 else c <<< 1
      if b.getLsbD (63 - i) then c ^^^ a else c) 0

/-- x^e modulo the CRC polynomial, e below 2^24. -/
def crcPower (e : Nat) : BitVec 64 :=
  ((List.range 24).foldl (fun (r : BitVec 64 × BitVec 64) i => (if e.testBit i then crcMul r.1 r.2 else r.1, crcMul r.2 r.2)) (1, 2)).1

/-- Fold a CRC-64 over n zero bytes at once: a product with x^(8n). -/
def crcZeros (c : BitVec 64) (n : Nat) : BitVec 64 := if n = 0 then c else crcMul c (crcPower (8 * n))

/-- Fold a CRC-64 over the samples of places 0 to `places` − 1 of n samples each; a place not listed holds zeros. -/
def crcPlaces (n places : Nat) (c : BitVec 64) (l : List (Nat × List Int)) : BitVec 64 :=
  let r := l.foldl (fun (r : BitVec 64 × Nat) e => (crcOver (crcZeros r.1 (3 * n * (e.1 - r.2))) (wordsOf n e.2), e.1 + 1)) (c, 0)
  crcZeros r.1 (3 * n * (places - r.2))

/-- The digest of the route pass of the running frame (R308). -/
def digestOf (s : State) : Nat :=
  let n := frameSamples s
  let c := crcOver (BitVec.allOnes 64) (natBE s.frame 8 ++ natBE (natO s Obj.fed.generation) 8)
  let c := crcPlaces n 16384 c (s.conf.dests.map (fun e => (e.1, e.2.y)))
  let c := crcPlaces n 256 c (s.array.beams.map (fun e => (e.1, e.2.y)))
  (~~~c).toNat

/-- A unit of a pair takes the digest of the route pass just made. -/
def takeDigest (s : State) : State :=
  if !pairRuns s then s
  else
    let d := digestOf s
    { setO s Obj.pair.digest d with pair := { s.pair with digests := ((s.frame, d) :: s.pair.digests).take 8 } }

/-! ## The journal between the units (R50, R143, R306) -/

/-- An entry's effect lies at a frame that may already have begun at the standby: DIRECT and SLUICE entries. -/
def entryLate (s : State) (n : Nat) (r : Request) (frame : Nat) : Bool :=
  match r with
  | .groupCommit _ => frame != 0 && decide (frame ≤ s.frame)
  | .write i sub w =>
    match declFor s i w.element sub with
    | none => false
    | some d => (d.effect == .direct || (d.effect == .sluice && s.slu.openSession != n)) && frame != 0 && decide (frame ≤ s.frame)
  | _ => false

/-- What a CLAIM tells a unit that does not decide: a standing claim, and a candidate of the election that runs or opens (R47, R49). -/
def claimHeard (s : State) (n : Nat) (b : ClaimBody) : State :=
  if claimBad b then s
  else if b.bits.getLsbD 2 then setSession s n { session s n with standing := none }
  else
    let s := if b.bits.getLsbD 1 then setSession s n { session s n with standing := some (b.priority, b.bits.getLsbD 0) } else s
    if ownerState s = 2 then s
    else { s with ctl := { s.ctl with
      candidates := s.ctl.candidates.filter (fun x => x.session != n) ++ [⟨n, b.priority, b.bits.getLsbD 0, none⟩] } }

/-- What an entry does at the standby. -/
def entryEffect (s : State) (n q : Nat) (r : Request) (frame : Nat) (last : Bool) : State :=
  match r with
  | .claim b =>
    if b.bits.getLsbD 2 then claimHeard s n b
    else if isOwner s n then ownClaim (claimHeard s n b) b
    else takeOwner (claimHeard s n b) n b.priority (b.bits.getLsbD 0)
  | _ => journalAndDo s n q r frame last

/-- Answer the request this standby had forwarded, and go on with what waited behind it (R143). -/
def answerForwarded (s : State) (n q : Nat) (x : Result) : State :=
  match s.ctl.forwarded.find? (fun h => h.envelope.session == n && h.envelope.sequence == q) with
  | none => s
  | some h =>
    let s := { s with ctl := { s.ctl with
      forwarded := s.ctl.forwarded.filter (fun h => !(h.envelope.session == n && h.envelope.sequence == q)) } }
    drain (sendResult s h.envelope x false) n 129

/-- The result-store update of a JOURNAL message; that of a NAK ISO_ERR fences the session here too (R53). -/
def storeUpdate (s : State) (n q : Nat) (x : Result) : State :=
  let s := if !x.ack ∧ x.code = 12 ∧ x.kind ≠ 5 ∧ sessState s n ≠ 0 then
      setMany s [(Obj.sess.state (n - 1), 2), (Obj.sess.fencedAt (n - 1), q)]
    else s
  if x.ack || recorded x.code then consumeTo (recordResult s n x) n q else s

/-- A NAK of the active unit reaches the standby: what the request had done is taken back, and it is answered. -/
def nakUpdate (s : State) (n q : Nat) (r : Request) (x : Result) : State :=
  let s := match r with
    | .claim b => claimHeard s n b
    | _ => if recorded x.code then withdraw s n q else s
  answerForwarded (storeUpdate s n q x) n q x

/-- Weight sets that a journaled commit selects and whose CRC is wrong at this unit (R195). -/
def badWeights (s : State) (r : Request) : List Nat :=
  match r with
  | .groupCommit _ => ((weightsBad s s.slu.openSet).filter (·.2)).map (·.1)
  | _ => []

/-- A JOURNAL message with an entry: a standby in step or resynchronising writes the entry, acts on it and confirms it; one whose
frame has begun takes it out of step. A weight set that is bad here makes it refuse the commit: the entry goes back with RANGE
(R195). The result-store update answers a forwarded request. (DESIGN CHOICE, log entry 63.) -/
def journalMessage (s : State) (e : Envelope) (r : Request) (frame result : Nat) : State :=
  let n := e.session
  let q := e.sequence
  let x : Result := ⟨q, result == 0, result, frame, reqCode r⟩
  let st := pairState s
  if n == 0 || decide (32 < n) then s
  else if result ≠ 0 then nakUpdate s n q r x
  else if st ≠ 4 ∧ st ≠ 6 then answerForwarded (storeUpdate s n q x) n q x
  else if st = 4 ∧ entryLate s n r frame then answerForwarded (storeUpdate (leaveStep s 7) n q x) n q x
  else
    match badWeights s r with
    | [] =>
      let s := entryEffect s n q r frame (e.flags.getLsbD 1)
      answerForwarded (sendPair (storeUpdate s n q x) 0x14 (natBE n 2 ++ natBE q 4)) n q x
    | l => sendJournal (l.foldl (fun s b => raise s 200 b) s) n q 0 r ⟨q, false, 7, 0, 8⟩

/-- A committed group becomes the open group again, unless another has been opened. -/
def reopenGroup (s : State) (g : Group) : State :=
  let s := retireEntry (dropGroup (dropPrep s g.all) g) g.session g.seq
  if s.slu.openSession ≠ 0 then retireEntry s g.session g.beginSeq
  else setO { s with slu := { s.slu with openTag := g.tag, openSession := g.session, openSeq := g.beginSeq, openSet := g.all } }
    Obj.slu.fedTag g.fedTag

/-- The partner refuses a commit whose weights are bad there: it is taken back and answered NAK RANGE (R195). -/
def partnerRefuses (s : State) (n q code : Nat) : State :=
  match s.ctl.await.find? (fun a => a.envelope.session == n && a.envelope.sequence == q) with
  | none => s
  | some a =>
    let s := { s with ctl := { s.ctl with
      await := s.ctl.await.filter (fun a => !(a.envelope.session == n && a.envelope.sequence == q)) } }
    let s := match (committed s).find? (fun g => g.session == n && g.seq == q && !g.single) with
      | some g => reopenGroup s g
      | none => withdraw s n q
    refuse s a.envelope a.request code 0

/-- A decision of the active unit takes effect at its standby (R49, R143, R145, R269, R290, R332). -/
def applyDecision (s : State) (d : Decision) : State :=
  let none' (s : State) : State := { s with ctl := { s.ctl with candidates := [] } }
  match d with
  | .electing => clearOwner s 1
  | .ownerLost => loseOwner s
  | .elected none => enterNoOwner (raiseEpoch (none' s))
  | .elected (some (n, prio, pre)) => takeOwner (none' s) n prio pre
  | .groupReady n q f => takeOutcome s n q (fun s g => readyGroup (setO s Obj.slu.lastEarliest f) { g with target := f })
  | .groupMoved n q f => takeOutcome s n q (fun s g =>
      moveGroup s (if skipped s g then { g with firstFeasible := true, moved := false, late := true } else g) f)
  | .groupRejected n q => match s.slu.heldFed with
    | some g => if g.session = n ∧ g.seq = q then discardHeld s g else takeOutcome s n q rejectGroup
    | none => takeOutcome s n q rejectGroup
  | .fedPhase own phase tag f v => if own then ownPhase s phase v else takePhase s v phase tag f v
  | .refStep e f step jump ahead re => takeRefStep s e f step jump ahead re
  | .rebase f shift => { s with time := { s.time with rebase := some (f, shift) } }
  | .fedVerdict m l p => setMany s [(Obj.fed.mismatch, m), (Obj.fed.leader, l), (Obj.fed.present, p)]

/-- JOURNAL (Table 13.10): an entry with its result-store update, `result` 0 for an ACK and else the NAK code; or a decision, of which
envelope, frame and result say nothing. -/
def takeJournal (s : State) (e : Envelope) (j : JournalItem) (frame result : Nat) : State :=
  match j with
  | .entry r =>
    if isStandby s then journalMessage s e r frame result
    else if result = 0 then s else partnerRefuses s e.session e.sequence result
  | .decision d => if isStandby s ∧ (pairState s = 4 ∨ pairState s = 6) then applyDecision s d else s

/-- An entry that finds this unit's control complex in reset is not confirmed (R348). -/
def execJournal (f : BraidFrame) (e : Envelope) (j : JournalItem) (frame result : Nat) (s : State) : Ans :=
  done (onMessage s f 0x13 (fun s => if pairRuns s && decide (f.link.val ≤ 1) && !inReset s 25 then takeJournal s e j frame result else s))

/-- JOURNAL_ACK: the standby holds the entry, and its request is acknowledged (R50). -/
def execJournalAck (f : BraidFrame) (s : State) : Ans :=
  done (onMessage s f 0x14 (fun s =>
    let n := msgField f 1 2
    let q := msgField f 3 4
    if decide (f.link.val ≤ 1) then
      releaseAwait (settleEntries s (fun e => e.session == n && e.sequence == q))
        (fun a => a.envelope.session == n && a.envelope.sequence == q)
    else s))

/-- What this unit had left to its partner: without a pair link it is answered NAK BUSY (R52), and a unit that has become active
carries it out itself (R49, R311). -/
def settleForwarded (s : State) : State :=
  let l := s.ctl.forwarded
  let s' := { s with ctl := { s.ctl with forwarded := [] } }
  if l.isEmpty then s
  else if cutOff s then l.foldl (fun s h => drain (nakNow s h.envelope h.request 5 busyHint) h.envelope.session 129) s'
  else if isActive s then l.foldl (fun s h => drain (execute s h.envelope h.request) h.envelope.session 129) s'
  else s

/-- A HELLO that reached the partner opens, reopens or keeps the same session here; the partner has answered it. -/
def helloForwarded (s : State) (e : Envelope) (b : HelloBody) : State :=
  let n := b.resume
  if n = 0 ∨ 32 < n ∨ helloBad b then s
  else if sessState s n = 0 ∨ natO s (Obj.sess.station (n - 1)) ≠ b.station then
    touch (openSession (if sessState s n = 0 then s else freeSession s n) n b.station) n e
  else if sessState s n = 3 then
    touch (setO s (Obj.sess.state (n - 1)) (if getO s (Obj.sess.fencedAt (n - 1)) = 0 then 1 else 2)) n e
  else touch s n e

/-- A forwarded request at the active unit: from the store, already in hand, or carried out; its turn has come at the unit that
received it. -/
def forwardedRequest (s : State) (e : Envelope) (r : Request) : State :=
  let n := e.session
  let s := touch s n e
  let v := session s n
  match v.results.find? (fun x => x.sequence == e.sequence) with
  | some x => sendJournal s n e.sequence x.info r x
  | none =>
    if inHand s e || decide (e.sequence < natO s (Obj.sess.nextSeq (n - 1))) then s else drain (execute s e r) n 129

/-- GULTIN_FWD: what a controller sent to the partner (R36, R49, R143). -/
def gultinForwarded (s : State) (e : Envelope) (r : Request) : State :=
  let n := e.session
  match r with
  | .hello b => helloForwarded s e b
  | .heartbeat _ => if sessionOpen s n then touch s n e else s
  | _ =>
    if !sessionOpen s n then (if isActive s then refuse s e r 8 0xFFFFFFFF else s)
    else if !isActive s then match r with
      | .claim b => claimHeard (touch s n e) n b
      | _ => touch s n e
    else forwardedRequest s e r

/-- A forwarded request that finds the active unit's control complex in reset goes back with BUSY, which the standby answers
(R348). (DESIGN CHOICE, log entry 137.) -/
def forwardedInReset (s : State) (e : Envelope) (r : Request) : State :=
  if isActive s && reqSequenced r && sessionOpen s e.session then
    sendJournal s e.session e.sequence 0 r ⟨e.sequence, false, 5, busyHint, reqCode r⟩
  else s

def execGultinFwd (f : BraidFrame) (e : Envelope) (r : Request) (s : State) : Ans :=
  done (onMessage s f 0x15 (fun s =>
    if !(pairRuns s && decide (f.link.val ≤ 1)) then s
    else if inReset s 25 then forwardedInReset s e r
    else gultinForwarded s { e with flags := e.flags ||| 0x4000 } r))

/-! ## Loss of the partner (R310 to R315) -/

/-- Sessions whose last message arrived at the partner go DORMANT. -/
def sleepPartnerSessions (s : State) : State :=
  sessionNumbers.foldl
    (fun s n => if (session s n).atPartner ∧ (sessState s n = 1 ∨ sessState s n = 2) then dormantSession s n else s) s

/-- The steps of R311. -/
def takeOver (s : State) (cause : Nat) : State :=
  let unsure := pairState s ≠ 4
  let s := becomeActive s 1
  let s := if unsure then setO s Obj.pair.unverified 1 else s
  let s := raise (raise s 128 noDetail) 129 noDetail
  let s := setMany (bumpO s Obj.pair.failovers) [(Obj.pair.lastFailover, s.frame), (Obj.pair.lastCause, cause), (Obj.pair.partnerState, 255)]
  settleForwarded (sleepPartnerSessions { s with pair := { s.pair with handovers := [], partnerKind := 0, activeRuns := 0 } })

/-- A standby that holds complete state finds condition (a) or (b) of R310. -/
def execTakeover (conditionB : Bool) (s : State) : Ans :=
  let st := pairState s
  let may := st = 4 ∨ st = 7 ∨ (st = 8 ∧ getO s Obj.pair.takeoverSilent = 1)
  let lost := (linkOf s 0).fcLost && (linkOf s 1).fcLost
  if pairRuns s ∧ isStandby s ∧ may ∧ (conditionB ∨ lost) then done (takeOver s (if conditionB then 2 else 1)) else .next s

/-- FC is lost: the link drops (R226); without both pair links a resync aborts (R319), and a standby in step whose partner still
toggles PAIR_ALIVE falls silent (R315). -/
def fcGone (s : State) (l : Nat) : State :=
  let s := recheckEntry (loseFc s l) 6
  let both := (linkOf s 0).fcLost && (linkOf s 1).fcLost
  if !pairRuns s || decide (1 < l) || !both then s
  else
    match pairState s with
    | 2 => abortResync s 3
    | 6 => abortResync s 3
    | 4 => if s.pair.partnerKind = 0 then s else raise (leaveStep s 8) 135 noDetail
    | _ => s

def execFcLost (link : Fin 6) (s : State) : Ans := done (fcGone s link)

/-- A frame tick is missing (R313): the active unit of a pair with a standby that can take over leaves the pair. (DEDUCED, log entry 82.) -/
def execTickWatchdog (s : State) : Ans :=
  if stageOf s < 2 then .next s
  else
    let s := raise s 141 noDetail
    let st := pairState s
    let partner := getO s Obj.pair.partnerState
    if pairRuns s ∧ isActive s ∧ (partner = 4 ∨ partner = 7 ∨ partner = 8) ∧ st ≠ 0 then
      let s := sendsOn (setDrive s false) false false
      let s := dropLink (dropLink s 0 0) 1 0
      done { s with pair := { s.pair with tickLost := true, pullsRole := false, aliveOut := 0 } }
    else if st = 4 then done (leaveStep s 7)
    else done s

/-! ## Resync (R316 to R321) -/

/-- PAIR_CTRL with code `code` from the partner. -/
def onCtrl (s : State) (f : BraidFrame) (code : Nat) (act : State → State) : State :=
  onMessage s f 0x16 (fun s => if pairRuns s && decide (f.link.val ≤ 1) && msgField f 1 1 == code then act s else s)

def execResyncReq (f : BraidFrame) (s : State) : Ans :=
  done (onCtrl s f 1 (fun s => if pairState s = 1 then autoResync { s with pair := { s.pair with resyncAsked := true } } else s))

/-- 1 s after a divergence (R309). -/
def execResyncAutoDelay (s : State) : Ans := done (autoResync { s with pair := { s.pair with waitAuto := false } })

/-- The target enters the resync at S and takes the source's frame number (R23, R316). -/
def targetStart (s : State) (f : Nat) : State :=
  let s := setMany { s with frame := f }
    [(Obj.pair.state, 6), (Obj.pair.resyncPhase, 1), (Obj.pair.resyncBytes, 0), (Obj.pair.catchupLag, 0)]
  let s := { s with pair := { s.pair with
    agreeing := 0, stored := [], image := [], imageLen := 0, digests := [], fills := [], records := [] } }
  raise s 132 noDetail

/-- RESYNC_PHASE: byte 2 the phase of 3800h.19, bytes 3 to 8 its frame (S, C, E). The source announces phases 1 to 4, the
target answers with 4 and 5 when it enters them. -/
def execResyncPhase (f : BraidFrame) (s : State) : Ans :=
  done (onCtrl s f 2 (fun s =>
    let phase := msgField f 2 1
    let g := msgField f 3 6
    let st := pairState s
    if phase = 1 then (if st = 5 ∨ st = 7 ∨ st = 8 then targetStart s g else s)
    else if st = 2 ∧ 3 ≤ natO s Obj.pair.resyncPhase ∧ (phase = 4 ∨ phase = 5) then
      { setO s Obj.pair.resyncPhase phase with pair := { s.pair with agreeing := 0 } }
    else if st ≠ 6 ∨ phase < natO s Obj.pair.resyncPhase ∨ 5 < phase then s
    else if phase = 2 then setO { s with pair := { s.pair with epochC := g } } Obj.pair.resyncPhase 2
    else if phase = 3 then
      setMany { s with array := { s.array with exactFrom := g } } [(Obj.pair.resyncPhase, 3), (Obj.pair.resyncEpoch, g)]
    else if phase = 4 then
      let lag := min 65535 (s.frame + 1 - natO s Obj.pair.resyncEpoch)
      sendCtrl (setMany s [(Obj.pair.resyncPhase, 4), (Obj.pair.catchupLag, ((lag : Nat) : Int))]) 2 (natBE 4 1 ++ natBE g 6)
    else s))

def execResyncAbortMsg (f : BraidFrame) (s : State) : Ans := done (onCtrl s f 3 (fun s => abortResync s (msgField f 2 1)))

/-- VERSIONS: a difference aborts a resync and starts none (R293); the active unit answers with its own. -/
def execVersions (f : BraidFrame) (s : State) : Ans :=
  done (onCtrl s f 4 (fun s =>
    let rev := (getB s Obj.ident.revision).take 4
    let own := natBE (natO s Obj.clk.sampleRate) 1 ++ rev ++ List.replicate (4 - rev.length) 0 ++ natBE (fwMajor s) 1
    let same := ((frameBytes f).drop 2).take 6 == own
    let s := { s with pair := { s.pair with versionsOk := same, partnerMajor := msgField f 7 1 } }
    let s := if isActive s then sendVersions s else s
    if same then s else if pairState s = 2 ∨ pairState s = 6 then abortBoth s 6 else setO s Obj.pair.abortCause 6))

/-- RESYNC_TIMEOUT: not IN_STEP 2 s after S. -/
def execResyncTimeout (s : State) : Ans := done (abortBoth s 5)

/-- The running image as received is verified and goes into the inactive banks (R92, R317). -/
def loadImage (s : State) : State :=
  if s.pair.imageLen = 0 then s
  else
    match verifyImage (bytesGet s.pair.image 0 s.pair.imageLen) s.pair.imageLen (natO s Obj.ident.fwVersion) s.rst.rate (programKey s) none with
    | (0, some im) =>
      swapTo s s.frame (natO s Obj.prog.activeSlot) im (fun _ => none)
    | _ => s

/-- After IN_STEP the image received is written to the store slot of the running program (R317). -/
def storeImage (s : State) : State :=
  let slot := natO s Obj.prog.activeSlot
  let b := bytesGet s.pair.image 0 s.pair.imageLen
  if b.isEmpty ∨ 1 < slot then s
  else
    let s := { s with
      bus := { s.bus with flash := bytesPut s.bus.flash (storeBase slot) b }
      pair := { s.pair with image := [], imageLen := 0 } }
    setO s (Obj.prog.slotHash slot) ((s.prog.running.map (·.hash)).getD 0 : Nat)

/-- CONFIG ends; C is the first frame divisible by 16 after it (Table 13.8). -/
def execConfigEnd (s : State) : Ans :=
  let st := pairState s
  if getO s Obj.pair.resyncPhase ≠ 1 ∨ (st ≠ 2 ∧ st ≠ 6) then .next s
  else
    let c := up16 (s.frame + 1)
    let s := if st = 6 then loadImage s else s
    let s := setO { s with pair := { s.pair with epochC := c } } Obj.pair.resyncPhase 2
    done (if st = 2 then sendPiece (sendCtrl s 2 (natBE 2 1 ++ natBE c 6)) (bulkPiece s) else s)

/-- At C the source captures its array processing, and the target's starts (Table 13.8); every snapshot in the target's slots, and
every one begun before E, is invalid. -/
def execCatchmentCapture (s : State) : Ans :=
  let st := pairState s
  if (st = 2 ∨ st = 6) ∧ 2 ≤ natO s Obj.pair.resyncPhase ∧ s.pair.epochC ≤ s.frame + 1 then
    if st = 2 then done (sendPiece s (catchPiece s))
    else
      let s := startCatch { s with array := { s.array with exactFrom := 281474976710655 } } s.pair.epochC
      done (clearSlots s)
  else .next s

/-- BULK ends: E is at least two frames on and at least C + 720 (Table 13.8). -/
def execBulkEnd (s : State) : Ans :=
  let st := pairState s
  if getO s Obj.pair.resyncPhase ≠ 2 ∨ (st ≠ 2 ∧ st ≠ 6) then .next s
  else
    let e := max (s.frame + 2) (s.pair.epochC + 720)
    let s := setO s Obj.pair.resyncEpoch e
    done (if st = 2 then sendCtrl s 2 (natBE 3 1 ++ natBE e 6) else { s with array := { s.array with exactFrom := e } })

/-- At E the state is captured and sent; the receiver begins to catch up when it is there. -/
def execCapture (s : State) : Ans :=
  let st := pairState s
  if (st = 2 ∨ st = 6) ∧ 2 ≤ natO s Obj.pair.resyncPhase ∧ natO s Obj.pair.resyncPhase ≤ 3
      ∧ natO s Obj.pair.resyncEpoch ≠ 0 ∧ natO s Obj.pair.resyncEpoch ≤ s.frame + 1 then
    let s := setO s Obj.pair.resyncPhase 3
    done (if st = 2 then sendCtrl (sendPiece s (corePiece s)) 2 (natBE 4 1 ++ natBE (natO s Obj.pair.resyncEpoch) 6) else s)
  else done s

/-- A value of CONFIG: index, element, sub-index, type, length and value as Gultin codes them; settings take their value without
their effects, and a destination its source and gain. -/
def takeValue (s : State) (k : Nat) (d : Decl) (v : List Byte) : State :=
  if d.access ≠ .rw then s
  else if d.typ.size = 0 then setB s k v
  else
    match decodeNum d.typ v with
    | none => s
    | some x =>
      if 0x6000 ≤ keyIndex k then setProg s k x
      else if keyIndex k = 0x4200 ∧ keySub k = 1 then
        setDest (setO s k x) (keyElem k) { destOf s (keyElem k) with src := x.toNat, fade := none, cut := none }
      else if keyIndex k = 0x4200 ∧ keySub k = 2 then
        setDest (setO s k x) (keyElem k) { destOf s (keyElem k) with g := linearGain x, target := none, search := none, ramp := none }
      else setO s k x

def takeValues (s : State) : Nat → List Byte → State
  | 0, _ => s
  | fuel + 1, b =>
    if b.length < 8 then s
    else
      let i := beNat (b.take 2)
      let e := beNat ((b.drop 2).take 2)
      let sub := beNat ((b.drop 4).take 1)
      let n := beNat ((b.drop 6).take 2)
      let s := match declAt s i e sub with
        | some d => if d.typ.code = beNat ((b.drop 5).take 1) then takeValue s (okey i e sub) d ((b.drop 8).take n) else s
        | none => s
      takeValues s fuel (b.drop (8 + n))

/-- Words of an Eddy ring: offset is descriptor × 2^32 + first word. -/
def takeRing (s : State) (off : Nat) (b : List Byte) : State :=
  let d := off / 4294967296
  let e := eddyOf s d
  let ws := (pieces 4 b).map (fun x => BitVec.ofNat 32 (leNat x))
  setEddy s d { e with samples := Sparse.putMany (fun _ => 0) e.samples (off % 4294967296) ws }

/-- Bytes of a region of RESYNC_DATA go into the target's state. Regions 0 to 2 and 6 are the bus targets of Table 16.2; 10h is
the image, 11h dictionary values, 12h Eddy rings (DESIGN CHOICE, log entry 60). (DESIGN CHOICE, log entry 84.) -/
def resyncBytes (s : State) (region off : Nat) (b : List Byte) : State :=
  match region with
  | 0 => areaPutMany s .hbm off b
  | 1 => areaPutMany s .sram off b
  | 2 => if off < 16777216 then areaPutMany s .cluster off b else areaPutMany s .cells (off - 16777216) b
  | 6 => areaPutMany s .aon off b
  | 0x10 => { s with pair := { s.pair with image := bytesPut s.pair.image off b, imageLen := max s.pair.imageLen (off + b.length) } }
  | 0x11 => takeValues s b.length b
  | 0x12 => takeRing s off b
  | _ => s

/-- RESYNC_DATA: its bytes, or the piece of state that they spell, take their place in the target. -/
def execResyncData (m : ResyncMessage) (s : State) : Ans :=
  let f := m.frame
  done (onMessage s f 0x17 (fun s =>
    let b := (frameBytes f).drop 10
    if pairState s = 6 ∧ f.link.val ≤ 1 then
      takePiece (resyncBytes (addO s Obj.pair.resyncBytes b.length) (msgField f 1 1) (msgField f 2 8) b) m.piece
    else s))

/-- IN_STEP after 16 matching digests in CONFIRM: target and source take their states; the target's own path passes at Y + 2
(R300, R319). -/
def execInStep (s : State) : Ans :=
  let st := pairState s
  if getO s Obj.pair.resyncPhase ≠ 5 ∨ s.pair.agreeing < 16 ∨ (st ≠ 2 ∧ st ≠ 6) then .next s
  else
    let z := s.frame + 2
    let s := raise (setMany s [(Obj.pair.resyncPhase, 0), (Obj.pair.exposed, 0), (Obj.pair.unverified, 0)]) 133 noDetail
    if st = 2 then
      let other := 1 - ownPath s
      let s := { setO s Obj.pair.state 3 with pair := { s.pair with handovers := [(other, z, false)] } }
      done (sendCtrl s 5 (natBE z 6))
    else
      let s := storeImage (setO s Obj.pair.state 4)
      let s := if stageOf s = 2 then openStreams (freeTime (enterStage s 3 s.frame) Obj.stage.flowingMs) else s
      done (startStreams { s with pair := { s.pair with aliveOut := 2, handovers := [(ownPath s, z, true)] } })

/-- HANDOVER_FRAME: the journaled frame Z of the hand-over of this standby's path. -/
def execHandoverFrame (f : BraidFrame) (s : State) : Ans :=
  done (onCtrl s f 5 (fun s =>
    if pairState s = 4 then { s with pair := { s.pair with handovers := [(ownPath s, msgField f 2 6, true)] } } else s))

/-- At Z the path is this unit's, or no longer (R300). -/
def execPathHandover (path : Fin 2) (s : State) : Ans :=
  match s.pair.handovers.find? (fun h => h.1 == path.val) with
  | some (_, z, take) =>
    if z ≤ s.frame + 1 then
      done { s with pair := { s.pair with
        pathsSent := s.pair.pathsSent.set path take, handovers := s.pair.handovers.filter (fun h => h.1 != path.val) } }
    else .next s
  | none => .next s

/-- A reset request of the ACTIVE partner: a cold reset with source PARTNER (R335, Table 13.12). -/
def execPartnerResetRequest (f : BraidFrame) (s : State) : Ans :=
  done (onMessage s f 0x16 (fun s =>
    if s.rst.pairEnable && decide (2 ≤ stageOf s) && decide (f.link.val ≤ 1) && msgField f 1 1 == 6 then assertSource s 4 true else s))

end Sys2Proof.Machine
end

