-- ==== Sys2Proof/Machine/Release.lean ====
section
/-! DEFINITION. The release of blocks with the changes held for them (R53, R141, R347), the restart of the control firmware (R348)
and the replay of the journal (R51). -/

namespace Sys2Proof.Machine

/-! ## Blocks (R347) -/

/-- Changes held for a block apply at sample 0 of its release frame, in order; entries of single writes retire (R53, R141). -/
def applyHeld (s : State) (f code : Nat) : State :=
  let mine := s.slu.heldBlock.filter (fun h => h.block == code)
  let s := { s with slu := { s.slu with heldBlock := s.slu.heldBlock.filter (fun h => h.block != code) } }
  let s := (applySet s f false (mine.map (·.change))).1
  retireIf s (fun e => mine.any (fun h => h.session == e.session && h.seq == e.sequence))

/-- What a block does on its release at frame f. -/
def releaseEffect (s : State) (f code : Nat) : State :=
  if code < 16 then applyHeld (restartCluster s code) f code
  else if code = 16 then releaseCatch (applyHeld s f code) f
  else if code ≤ 18 then
    let s := applyHeld s f code
    applyPtpEnable s (code - 17) (getO s (Obj.ptp.enable (code - 17)))
  else if code ≤ 24 then enterDetect (applyHeld s f code) (code - 19)
  else { s with rst := { s.rst with firmwareDown := true } }

/-- A block whose hold has ended is released at the boundary of the next frame. -/
def execBlockRelease (block : Fin 26) (s : State) : Ans :=
  let f := s.frame + 1
  match blockOf s block with
  | none => .next s
  | some b =>
    if b.idling || decide (f < b.release) || (block.val == 25 && s.rst.corePulse) then .next s
    else
      let s := { s with rst := { s.rst with blocks := s.rst.blocks.filter (fun e => e.1 != block.val) } }
      done (releaseEffect s f block)

/-! ## The end of a cell's schedule (R69, R73) -/

/-- Traffic that has waited is served; what touches another busy cell waits for that one. -/
def serveTraffic (s : State) : LateTraffic → State
  | .transaction t => runTransaction s t
  | .datagram a p b => takeDatagram s a p b
  | .channel c => if getO s (Obj.dma.state c) = 1 then dmaRun s c else s
  | .object k v => lateObject s k v

/-- The traffic of the cells that are not in their schedules, in order of arrival. -/
def serveLate (s : State) : State :=
  let due := s.bus.late.filter (fun e => !cellBusy s e.1)
  due.foldl (fun s e => serveTraffic s e.2) { s with bus := { s.bus with late := s.bus.late.filter (fun e => cellBusy s e.1) } }

def execFrameEnd (cell : Fin 128) (s : State) : Ans :=
  if !cellExec s cell then .next s else done (serveLate (finishSchedule s cell))

/-! ## The journal's replay (R51) -/

/-- Entries before the first with a bad CRC. -/
def soundEntries : List JEntry → List JEntry
  | [] => []
  | e :: r => if e.bad then [] else e :: soundEntries r

/-- An object exists at replay: before a program runs there are no program objects and no Eddy descriptors. -/
def replayable (s : State) (k : Nat) : Bool :=
  (declAt s (keyIndex k) (keyElem k) (keySub k)).isSome
    && !(s.prog.running.isNone && (keyIndex k == 0x4100 || decide (0x6000 ≤ keyIndex k)))

def dropEntry (s : State) (e : JEntry) : State := bumpO (retireEntry s e.session e.sequence) Obj.jrn.replayDropped

/-- The change of an entry is already on its way: held for a block, or an assigned DIRECT write. -/
def underWay (s : State) (e : JEntry) : Bool :=
  s.slu.heldBlock.any (fun h => h.session == e.session && h.seq == e.sequence)
    || s.slu.direct.any (fun d => d.session == e.session && d.seq == e.sequence)

/-- An accepted WRITE applies again: a DIRECT one with the next frame when its own has passed. (DEDUCED, log entry 87.) -/
def replayWrite (s : State) (e : JEntry) (i sub : Nat) (w : WriteBody) : State :=
  if !replayable s (okey i w.element sub) then dropEntry s e
  else
    match declAt s i w.element sub with
    | none => dropEntry s e
    | some d =>
      let f := if s.frame < e.frame then min e.frame (s.frame + 1) else s.frame + 1
      let s := bumpO s Obj.jrn.replayed
      let s := if d.effect = .direct then { s with ctl := { s.ctl with journal := s.ctl.journal.map (fun x =>
          if x.session = e.session ∧ x.sequence = e.sequence then { x with frame := f } else x) } } else s
      let t := writeEffect s e.session e.sequence i sub w f true
      if d.effect = .control then retireEntry t e.session e.sequence else t

/-- A committed group loses the changes whose objects do not exist (R51, 4); answers the changes lost too. -/
def trimGroup (s : State) (g : Group) : Group × Nat :=
  let keep (l : List Change) : List Change := l.filter (fun c => replayable s c.object)
  let lost := (g.all.filter (fun c => !replayable s c.object)).length
  ({ g with changes := keep g.changes, rest := g.rest.map (fun r => (keep r.1, r.2)) }, lost)

/-- The group that the entry committed. -/
def entryGroup (s : State) (e : JEntry) : Option Group :=
  (committed s).find? (fun g => g.session == e.session && g.seq == e.sequence)

/-- Put a committed group back where it stands. -/
def putCommitted (s : State) (g : Group) : State :=
  let new (x : Group) : Group := if x.id = g.id then g else x
  { s with slu := { s.slu with waiting := s.slu.waiting.map new, coord := s.slu.coord.map new, heldFed := s.slu.heldFed.map new } }

/-- One entry of the journal at replay. -/
def replayEntry (s : State) (e : JEntry) : State :=
  match entryGroup s e with
  | some g =>
    let (g, lost) := trimGroup s g
    bumpO (if lost = 0 then putCommitted s g else addO (putCommitted s g) Obj.jrn.replayDropped lost) Obj.jrn.replayed
  | none =>
    if underWay s e then bumpO s Obj.jrn.replayed
    else
      match e.request with
      | .write i sub w => replayWrite s e i sub w
      | .groupBegin _ =>
        if (committed s).any (fun g => g.session == e.session && g.beginSeq == e.sequence) then s
        else retireEntry s e.session e.sequence
      | _ => retireEntry s e.session e.sequence

/-- What a discarded entry had started goes with it: a committed group, a DIRECT write, a change held for a block (R51, 1). The load
of BOOT_SLOT has no entry; it begins anew after a reset of the engine. -/
def dropUnjournaled (s : State) (fresh : Bool) : State :=
  let stands (n q : Nat) : Bool := (n == 0 && !fresh) || s.ctl.journal.any (fun e => e.session == n && e.sequence == q)
  let s := ((committed s).filter (fun g => !stands g.session g.seq)).foldl (fun s g => dropGroup (dropPrep s g.all) g) s
  { s with slu := { s.slu with
    direct := s.slu.direct.filter (fun d => stands d.session d.seq)
    heldBlock := s.slu.heldBlock.filter (fun h => h.session == 0 || stands h.session h.seq) } }

/-- After a reset of the engine no block is held any longer: what groups had held for them applies, unless its object is gone, and
held writes apply again in their turn. -/
def freeHeld (s : State) : State :=
  let mine := s.slu.heldBlock.filter (fun h => h.session == 0)
  let gone := (mine.filter (fun h => !replayable s h.change.object)).length
  let s := { s with slu := { s.slu with heldBlock := mine.filter (fun h => replayable s h.change.object) } }
  let s := if gone = 0 then s else addO s Obj.jrn.replayDropped gone
  ((mine.map (·.block)).eraseDups).foldl (fun s b => applyHeld s (s.frame + 1) b) s

/-- The replay (R51): entries from one with a bad CRC on are discarded with event 233 and with what they had started, an open group
is dropped and a coordinating one aborted; the accepted entries apply in journal order, and groups whose frames have passed, all of
them after a cold or warm reset, count as late (R134, R140). REPLAYED and REPLAY_DROPPED count this replay. -/
def replay (s : State) (fresh : Bool) : State :=
  let good := soundEntries s.ctl.journal
  let s := if good.length = s.ctl.journal.length then s else raise s 233 noDetail
  let s := setMany { s with ctl := { s.ctl with journal := good, replay := false } } [(Obj.jrn.replayed, 0), (Obj.jrn.replayDropped, 0)]
  let s := abortCoord (discardOpen (dropUnjournaled s fresh))
  let s := good.foldl replayEntry (if fresh then freeHeld s else s)
  ((s.slu.waiting.filter (fun g => fresh || skipped s g)).foldl (fun a g => insertAsked g a) []).foldl
    (fun s g => lateGroup s { g with isReady := false }) s

/-- JOURNAL_REPLAY: after a cold or warm reset, at a frame boundary in Rising or later, once a lone engine's values are loaded or
a unit of a pair is ACTIVE. -/
def execJournalReplay (s : State) : Ans :=
  if s.ctl.replay ∧ 2 ≤ stageOf s ∧ isActive s ∧ !inReset s 25 then done (replay s true) else .next s

/-- CONTROL_RESTART: the firmware runs again, sessions return DORMANT, and the journal is replayed (R348). -/
def execControlRestart (s : State) : Ans :=
  if !s.rst.firmwareDown then .next s
  else
    let s := { s with rst := { s.rst with firmwareDown := false } }
    let s := sessionNumbers.foldl (fun s n => if sessState s n = 1 ∨ sessState s n = 2 then sleepSession s n else s) s
    let s := { s with ctl := { s.ctl with handover := false } }
    if isStandby s then done (outOfStep s) else done (replay s false)

end Sys2Proof.Machine
end

