-- ==== Sys2Proof/Machine/Handling.lean ====
section
/-! DEFINITION. The firing of injections and the handling they start (R369 to R371, Table 15.6). -/

namespace Sys2Proof.Machine

/-- Mark the raisings that a handling added to those of before, with their event objects (R370). -/
def markInjected (before : List Raised) (s : State) : State :=
  let isNew (r : Raised) : Bool := !before.any (fun b => b.event == r.event && b.frame == r.frame)
  let fresh := s.ev.now.filter isNew
  let s := { s with ev := { s.ev with now := s.ev.now.map (fun r => if isNew r then { r with injected := true } else r) } }
  fresh.foldl (fun s r => setO s (Obj.evt.injected r.event) 1) s

/-- An event that the handling will raise later carries the mark as well. -/
def expectInjected (s : State) (n d : Nat) : State := { s with ev := { s.ev with handling := s.ev.handling ++ [(n, d)] } }

/-- A receive lane is spared as R233 has it. -/
def spareLaneOf (s : State) (d : Nat) : State :=
  match carriedBy s (d / 10) (d % 10) with
  | some k => requestSpare s (d / 10) k true
  | none => s

/-- The handling of Table 15.6 for an event and its instance. (DEDUCED, log entry 88.) -/
def handleInjected (s : State) (n d : Nat) : State :=
  match n with
  | 32 => expectInjected (refAbsent s d) 34 d
  | 33 => expectInjected (refFails (setEntry s d { entryOf s d with limitsOk := false }) d) 34 d
  | 42 => expectInjected (loseLock s 0) 34 0
  | 43 => expectInjected (loseLock s 1) 34 1
  | 98 => expectInjected (spareLaneOf s d) 99 d
  | 100 => expectInjected (spareLaneOf s d) 99 d
  | 101 => expectInjected (loseBlockLock s (d / 10) (d % 10) 0) 99 d
  | 103 => fcGone s (d / 10)
  | 130 => diverge s s.frame
  | 140 => if pairState s = 4 then leaveStep s 7 else s
  | 225 => if d ≤ 16 then expectInjected (safetyReset s d) 6 d else if d = 65 then spoilJournal s else s
  | 230 => expectInjected (loseOwner s) 231 noDetail
  | _ => s

/-- The injection of event n raises it in frame f, after the handling, whose own raisings carry the mark. -/
def fireInjection (s : State) (f n : Nat) : State :=
  let d := natO s (Obj.inj.detail n)
  let before := s.ev.now
  let here := s.frame
  let s := if actEvents.contains n then { handleInjected { s with frame := f } n d with frame := here } else s
  raiseFull (markInjected before s) f n d true false

/-- INJECTION_FIRE, at the boundary of a frame from the firing frame on (R369). -/
def execInjectionFire (event : Fin 256) (s : State) : Ans :=
  let n := event.val
  let f := s.frame + 1
  let arm := getO s (Obj.inj.arm n)
  if getO s Obj.inj.window ≠ 2 ∨ arm = 0 ∨ f < natO s (Obj.inj.fireFrame n) then .next s
  else if !isTarget s n then
    done (if arm = 1 then setMany s [(Obj.inj.state n, 4), (Obj.inj.arm n, 0)] else setO s (Obj.inj.state n) 4)
  else
    let s := bumpO (if arm = 1 then setMany s [(Obj.inj.state n, 3), (Obj.inj.arm n, 0)] else setO s (Obj.inj.state n) 2) (Obj.inj.fires n)
    done (fireInjection s f n)

end Sys2Proof.Machine
end

