-- ==== Sys2Proof/Machine/Frame.lean ====
section
/-! DEFINITION. The frame tick (R22): what ends with a frame, what a tick starts, and the core's work of one frame, at its own tick
or in catch-up (R26, R27, R318). -/

namespace Sys2Proof.Machine

/-! ## The end of a frame -/

/-- An object on which a session subscribes on change is pushed when its value has changed in the frame (R44). (DEDUCED, log entry 95.) -/
def pushObject (s : State) (n : Nat) (u : Sub) : State :=
  match declAt s (keyIndex u.object) (keyElem u.object) (keySub u.object) with
  | none => s
  | some d =>
    let v := liveValue s d u.object
    if v == u.seen then s
    else
      let s := pushTo s n 0 (objectPayload s u.id u.object d.typ v)
      setSession s n { session s n with subs := (session s n).subs.map (fun x => if x.id == u.id then { x with seen := v } else x) }

/-- Objects on change, the DATA of Drift queues apart: those are pushed as they are drained (R377). -/
def pushObjects (s : State) : State :=
  sessionNumbers.foldl
    (fun s n => ((session s n).subs.filter (fun u => u.kind == 0 && u.mode == 0
        && !(keyIndex u.object == keyIndex (Obj.drift.data 0) && keySub u.object == keySub (Obj.drift.data 0)))).foldl
      (fun s u => pushObject s n u) s) s

/-- A standby in step tests one cell in the slack of each frame; a failed test stays reported (R322). (DEDUCED, log entry 91.) -/
def standbyTest (s : State) : State :=
  if pairState s = 4 then
    let s := bumpO s Obj.health.bistCells
    if getO s Obj.health.selfTest = 2 then s else setO s Obj.health.selfTest 1
  else if getO s Obj.health.selfTest = 1 then setO s Obj.health.selfTest 0
  else s

/-- What is delivered as a frame ends: raisings, pushes, drained Drift words (R44, R361, R377). -/
def endFrame (s : State) : State := flushEvents (drainDrift (pushObjects (standbyTest s)))

/-! ## Sources of a route pass (R27) -/

/-- TDM inputs of the frame a route pass reads: the capture of the frame before, in a pair that of three frames before, which a
standby has adopted from the active unit (R17, R304). (DEDUCED, log entry 90.) -/
def tdmInputs (s : State) : Sparse (List Int) :=
  let own := ((s.conf.tdm.frames[inputLag s - 1]?).map (·.2)).getD []
  let cap := if inPair s && !isActive s then (assocGet s.conf.tdm.adopted (s.frame - inputLag s)).getD own else own
  (cap.filter (fun e => decide (e.1 < 512))).map (fun e => (4160 + e.1, e.2))

def beamInputs (s : State) : Sparse (List Int) := (beamIds s).map (fun b => (4672 + b, (beamOf s b).y))

/-- Samples of a source in the route pass of the running frame; a source without data is silent (R112). -/
def sourceSamples (s : State) (ext dsp : Sparse (List Int)) (src : Nat) : List Int :=
  if src = 0 then []
  else if src ≤ 33 then (List.range (frameSamples s)).map (generatorSample src (frameSamples s) s.frame)
  else if src < 8192 then Sparse.get (fun _ => []) ext src
  else Sparse.get (fun _ => []) dsp src

/-! ## The core's work of a frame -/

/-- Samples of a claimed DSP input go into its words; a cluster that does not run takes none (R88, R109). -/
def writeInput (s : State) (c : Claim) : State :=
  if !cellRuns s c.cell then s
  else
    let ys := (destOf s c.slot).y
    setCell s c.cell ((List.range (frameSamples s)).foldl
      (fun v j => memPut v (c.base + 8 * j + c.lane) (ofQ23 (ys.getD j 0))) (cellOf s c.cell))

def writeInputs (s : State) : State :=
  match s.prog.running with
  | none => s
  | some im => (im.claims.filter (fun c => c.direction == 0)).foldl writeInput s

/-- Eddy buffers, route pass and DSP schedules of the running frame, with its external samples. DSP outputs come from the
schedule before, under the outgoing claims at the frame of a swap (R97, R100, R107). -/
def coreFrame (s : State) (ext : Sparse (List Int)) : State :=
  let dsp := match s.prog.oldOut with
    | some m => m
    | none => claimedOutputs s
  let s := (eddyIds s).foldl eddyTick s
  let s := routePass s (sourceSamples s ext dsp)
  takeDigest (startSchedules (writeInputs { s with prog := { s.prog with oldOut := none } }))

/-- A resync target that has not caught up: it plays and sends nothing (R23, R317, R318). (DEDUCED, log entry 92.) -/
def catchingUp (s : State) : Bool := pairState s == 6 && decide (natO s Obj.pair.resyncPhase < 5)

/-- From E on the target stores the external samples of every route pass it will compute; the lag is one frame more (R318). -/
def storeFrame (s : State) (ext : Sparse (List Int)) : State :=
  let e := natO s Obj.pair.resyncEpoch
  if natO s Obj.pair.resyncPhase < 3 ∨ s.frame < e then s
  else
    let s := { s with pair := { s.pair with stored := s.pair.stored ++ [(s.frame, ext)] } }
    if getO s Obj.pair.resyncPhase = 4 then setO s Obj.pair.catchupLag ((min 65535 (natO s Obj.pair.catchupLag + 1) : Nat) : Int)
    else s

/-! ## The tick -/

/-- CORE_LAG of the frame that begins (R286): the last frame lasted 208,302 to 208,365 cycles, less or more by the samples of a
splice; where it lay between them the manual does not say. (DESIGN CHOICE, log entry 89.) -/
def coreLagTick (s : State) : State :=
  let lag := natO s Obj.pll.coreLag
  let n := ((s.conf.splice.filter (fun e => e.1 == s.frame)).map (·.2)).getD 0
  if lag = 0 ∧ n = 0 then s
  else
    let r := drawFree s
    let whole : Int := 208302 + ((r.1 % 64 : Nat) : Int)
    let len := whole + whole * n / (frameSamples s : Nat)
    setO r.2 Obj.pll.coreLag (max 0 ((lag : Int) + 204224 - len))

/-- FRAME_NO of the frame that begins; the first tick after PLL2 locks is 0 (R22). -/
def nextNumber (s : State) : State :=
  if s.rst.ticked then { s with frame := nextFrame s.frame } else { s with frame := 0, rst := { s.rst with ticked := true } }

/-- Clocks that count in frames: the RTC in thirds of a nanosecond and the time since T_R. -/
def countFrame (s : State) : State :=
  { s with rst := { s.rst with rtc := s.rst.rtc + 500000, upFrames := if s.rst.begun then s.rst.upFrames + 1 else 0 } }

/-- What the pair logic begins at a boundary: a new AGREE, the fills consumed, the capture sent (R302 to R304). -/
def pairTick (s : State) : State :=
  let s := { s with pair := { s.pair with agreeParts := [], agreeLast := none, records := [], agreeClosed := false } }
  sendTdmIn (consumeFills (sendAgree (followTick (pullAhead s))))

/-- The TIMING message of a frame on BL2 and BL3 (R149, Table 7.2). -/
def sendTiming (s : State) : State :=
  let flags := (if s.pins.unitB then 1 else 0) + (if isActive s then 2 else 0) + (if getO s Obj.clk.epoch = 0 then 0 else 4)
  [2, 3].foldl
    (fun s l =>
      let b := natBE 2 1 ++ natBE flags 1 ++ natBE s.frame 6 ++ natBE l 1 ++ [0x00, 0x00, 0x00]
      sendBraid s l 0 2 (b.drop 1 ++ natBE (crc32 b) 4)) s

/-- A resync whose two pair links are both gone aborts (R319). -/
def resyncLinks (s : State) : State :=
  if (pairState s == 2 || pairState s == 6) && (pairLink s).isNone then abortResync s 3 else s

/-- What the control complex settles at a tick: later sub-groups begin to prepare, requests left to a partner that is gone are answered,
and entries no longer wait for a partner that keeps none (R50, R52, R142). -/
def controlTick (s : State) : State :=
  let s := settleForwarded (startParts s)
  if confirms s then s else settleEntries s (fun _ => true)

/-- WCK_OUT is driven: in Trickle and Rising when the option bytes say so, in Flowing always (R350, Table 14.10). -/
def wckDriven (s : State) : Bool := stageOf s == 3 || (stageOf s != 0 && (optionField s 120 1).testBit 2)

/-- WCK_OUT over the frame that ends: one period a sample from the rising edge at sample 0, moving with the tick (R419). -/
def wckTick (s : State) : State :=
  if wckDriven s then emit s (.wck ((frameSamples s : Nat) + tickShift s).toNat) else s

/-- What a tick starts: the ports' captures, the clock, block resets, the pair's exchange, inputs, and the core's frame. -/
def openFrame (s : State) : State :=
  let ended := s.frame
  let s := coreLagTick (finishRateChange (countFrame (braidTick (wckTick (nextNumber s)))))
  let s := controlTick (startBlocks (timeTick (tdmTick s ended)))
  let s := beamTick (ingestTick (pairTick (resyncLinks s)))
  let (net, s) := netTick s
  let (fed, s) := fedTick s
  let ext := net ++ tdmInputs s ++ beamInputs s ++ fed
  let s := if catchingUp s then storeFrame s ext else fedSend (coreFrame s ext)
  trimRegions (sendTiming (playedTick (serveLate s)))

/-- FRAME_TICK: PLL2 runs from step 3 of Table 14.4 on, once the PLLs have locked. (DESIGN CHOICE, log entry 9.) -/
def execFrameTick (s : State) : Ans :=
  if !s.rst.pllLocked || decide (s.rst.released < 3) then .next s else done (openFrame (endFrame s))

/-! ## Catch-up (R318) -/

/-- Beam samples as stored for a frame. -/
def storedBeams (s : State) (ext : Sparse (List Int)) : State :=
  (beamIds s).foldl (fun s b => setBeam s b { beamOf s b with y := Sparse.get (fun _ => []) ext (4672 + b) }) s

/-- The previous schedule has ended, and the next frame's Eddy fetches are in place. -/
def catchUpDue (s : State) : Bool :=
  (codeCells s).all (fun n => !(cellOf s n).active || !cellRuns s n)
    && (eddyIds s).all (fun d => (List.range (eddyOf s d).taps.length).all ((eddyOf s d).fetched.contains ·))

/-- The oldest stored frame g is computed as if its tick had just come. -/
def computeStored (s : State) (g : Nat) (ext : Sparse (List Int)) : State :=
  let here := s.frame
  let beams := s.array.beams
  let s := coreFrame (storedBeams { s with frame := g } ext) ext
  { s with frame := here, array := { s.array with beams := beams } }

/-- The target has caught up: it runs on its own ticks from now on, and says so (Table 13.8). -/
def caughtUp (s : State) : State :=
  let s := { setO s Obj.pair.resyncPhase 5 with pair := { s.pair with agreeing := 0 } }
  sendCtrl s 2 (natBE 5 1 ++ natBE s.frame 6)

/-- CATCH_UP_FRAME: the next stored frame is computed, and its digest compared with the source's. -/
def execCatchUpFrame (sourceDigest : Nat) (s : State) : Ans :=
  if pairState s ≠ 6 ∨ getO s Obj.pair.resyncPhase ≠ 4 ∨ !catchUpDue s then .next s
  else
    match s.pair.stored with
    | [] => .next s
    | (g, ext) :: rest =>
      let s := computeStored { s with pair := { s.pair with stored := rest } } g ext
      if natO s Obj.pair.digest ≠ sourceDigest then done (abortBoth s 4)
      else
        let s := setO s Obj.pair.catchupLag ((natO s Obj.pair.catchupLag - 1 : Nat) : Int)
        done (if rest.isEmpty then caughtUp s else s)

end Sys2Proof.Machine
end

