-- ==== Sys2Proof/Machine/Dispatch.lean ====
section
/-! DEFINITION. The dispatcher: the meaning of each command. -/

namespace Sys2Proof.Machine

def exec (i : Instr) (s : State) : Host.Outcome State Fault Refusal :=
  match i with
  | .hello e b => Sys2Proof.Machine.execHello e b s
  | .claim e b => Sys2Proof.Machine.execClaim e b s
  | .yield e station => Sys2Proof.Machine.execYield e station s
  | .heartbeat e epoch => Sys2Proof.Machine.execHeartbeat e epoch s
  | .read e b => Sys2Proof.Machine.execRead e b s
  | .write e index sub w => Sys2Proof.Machine.execWrite e index sub w s
  | .groupBegin e b => Sys2Proof.Machine.execGroupBegin e b s
  | .groupCommit e b => Sys2Proof.Machine.execGroupCommit e b s
  | .subscribe e b => Sys2Proof.Machine.execSubscribe e b s
  | .resume e fencedAt => Sys2Proof.Machine.execResume e fencedAt s
  | .sequenceGapTimeout session => Sys2Proof.Machine.execSequenceGapTimeout session s
  | .blobSeriesTimeout session index element sub => Sys2Proof.Machine.execBlobSeriesTimeout session index element sub s
  | .sessionDormant session => Sys2Proof.Machine.execSessionDormant session s
  | .sessionFree session => Sys2Proof.Machine.execSessionFree session s
  | .close e w => Sys2Proof.Machine.execClose e w s
  | .claimWindowClose => Sys2Proof.Machine.execClaimWindowClose s
  | .ownerLossTimeout => Sys2Proof.Machine.execOwnerLossTimeout s
  | .subscriptionPeriod session id => Sys2Proof.Machine.execSubscriptionPeriod session id s
  | .journalConfirmTimeout session sequence => Sys2Proof.Machine.execJournalConfirmTimeout session sequence s
  | .journalReplay => Sys2Proof.Machine.execJournalReplay s
  | .persistSave index element sub => Sys2Proof.Machine.execPersistSave index element sub s
  | .nop cell p => Sys2Proof.Machine.execNop cell p s
  | .mac cell p acc x c sh cx => Sys2Proof.Machine.execMac cell p acc x c sh cx s
  | .msu cell p acc x c sh cx => Sys2Proof.Machine.execMsu cell p acc x c sh cx s
  | .mpy cell p acc x c sh cx neg => Sys2Proof.Machine.execMpy cell p acc x c sh cx neg s
  | .sqa cell p acc x => Sys2Proof.Machine.execSqa cell p acc x s
  | .acc cell p acc x w ld z sh => Sys2Proof.Machine.execAcc cell p acc x w ld z sh s
  | .ext cell p acc x shift => Sys2Proof.Machine.execExt cell p acc x shift s
  | .exw cell p acc pair f => Sys2Proof.Machine.execExw cell p acc pair f s
  | .max cell p d xa xb => Sys2Proof.Machine.execMax cell p d xa xb s
  | .min cell p d xa xb => Sys2Proof.Machine.execMin cell p d xa xb s
  | .abs cell p d xa => Sys2Proof.Machine.execAbs cell p d xa s
  | .cmp cell p xa xb flag cond => Sys2Proof.Machine.execCmp cell p xa xb flag cond s
  | .sel cell p d xa xb flag => Sys2Proof.Machine.execSel cell p d xa xb flag s
  | .shf cell p d xa amount => Sys2Proof.Machine.execShf cell p d xa amount s
  | .shuf cell p d xa pattern => Sys2Proof.Machine.execShuf cell p d xa pattern s
  | .bcast cell p d xa lane => Sys2Proof.Machine.execBcast cell p d xa lane s
  | .log2 cell p d xa => Sys2Proof.Machine.execLog2 cell p d xa s
  | .exp2 cell p d xa => Sys2Proof.Machine.execExp2 cell p d xa s
  | .zxg cell p acc x xp k sh fsel => Sys2Proof.Machine.execZxg cell p acc x xp k sh fsel s
  | .mov cell p d src => Sys2Proof.Machine.execMov cell p d src s
  | .ldv cell slot ap am dst => Sys2Proof.Machine.execLdv cell slot ap am dst s
  | .ldb cell slot ap am dst => Sys2Proof.Machine.execLdb cell slot ap am dst s
  | .stv cell slot ap am reg pm p => Sys2Proof.Machine.execStv cell slot ap am reg pm p s
  | .stl cell slot ap am reg lane => Sys2Proof.Machine.execStl cell slot ap am reg lane s
  | .ldp cell slot ap am kind dst => Sys2Proof.Machine.execLdp cell slot ap am kind dst s
  | .yieldSlot cell slot => Sys2Proof.Machine.execYieldSlot cell slot s
  | .doLoop cell arg => Sys2Proof.Machine.execDoLoop cell arg s
  | .endLoop cell count => Sys2Proof.Machine.execEndLoop cell count s
  | .frameEnd cell => Sys2Proof.Machine.execFrameEnd cell s
  | .cellStatusClear e sub w => Sys2Proof.Machine.execCellStatusClear e sub w s
  | .frameTick => Sys2Proof.Machine.execFrameTick s
  | .zxTimeout dest => Sys2Proof.Machine.execZxTimeout dest s
  | .meterPeriod => Sys2Proof.Machine.execMeterPeriod s
  | .directApply => Sys2Proof.Machine.execDirectApply s
  | .tdmFrame group samples slip => Sys2Proof.Machine.execTdmFrame group samples slip s
  | .eddyFetchDone desc tap => Sys2Proof.Machine.execEddyFetchDone desc tap s
  | .eddyFetchDeadline desc tap => Sys2Proof.Machine.execEddyFetchDeadline desc tap s
  | .eddyCopyDone desc => Sys2Proof.Machine.execEddyCopyDone desc s
  | .storeLength e w => Sys2Proof.Machine.execStoreLength e w s
  | .storeChunk e w => Sys2Proof.Machine.execStoreChunk e w s
  | .verify e w => Sys2Proof.Machine.execVerify e w s
  | .verifyDone => Sys2Proof.Machine.execVerifyDone s
  | .groupDiscard e w => Sys2Proof.Machine.execGroupDiscard e w s
  | .preparationDone group => Sys2Proof.Machine.execPreparationDone group s
  | .commitTest group partnerReady => Sys2Proof.Machine.execCommitTest group partnerReady s
  | .groupApply group => Sys2Proof.Machine.execGroupApply group s
  | .subgroupTest group partnerReady => Sys2Proof.Machine.execSubgroupTest group partnerReady s
  | .subgroupApply group => Sys2Proof.Machine.execSubgroupApply group s
  | .heldGroupTimeout => Sys2Proof.Machine.execHeldGroupTimeout s
  | .prepare f => Sys2Proof.Machine.execPrepare f s
  | .ready f => Sys2Proof.Machine.execReady f s
  | .refuse f => Sys2Proof.Machine.execRefuse f s
  | .go f => Sys2Proof.Machine.execGo f s
  | .abort f => Sys2Proof.Machine.execAbort f s
  | .fedDecisionDeadline => Sys2Proof.Machine.execFedDecisionDeadline s
  | .fedGoMissing => Sys2Proof.Machine.execFedGoMissing s
  | .arrayBlock f => Sys2Proof.Machine.execArrayBlock f s
  | .subbandAvailable => Sys2Proof.Machine.execSubbandAvailable s
  | .snapshotReady unfinished => Sys2Proof.Machine.execSnapshotReady unfinished s
  | .weightFetchLate beam => Sys2Proof.Machine.execWeightFetchLate beam s
  | .mapComplete => Sys2Proof.Machine.execMapComplete s
  | .stageChunk e w => Sys2Proof.Machine.execStageChunk e w s
  | .detectPoll link sensed => Sys2Proof.Machine.execDetectPoll link sensed s
  | .fcReceived link => Sys2Proof.Machine.execFcReceived link s
  | .fcLost link => Sys2Proof.Machine.execFcLost link s
  | .blockLockAcquired link lane => Sys2Proof.Machine.execBlockLockAcquired link lane s
  | .blockLockLost link lane invalid => Sys2Proof.Machine.execBlockLockLost link lane invalid s
  | .marker link lane m => Sys2Proof.Machine.execMarker link lane m s
  | .pilot link lane position bits => Sys2Proof.Machine.execPilot link lane position bits s
  | .train link t => Sys2Proof.Machine.execTrain link t s
  | .trainStateTimeout link => Sys2Proof.Machine.execTrainStateTimeout link s
  | .trainAttemptTimeout link => Sys2Proof.Machine.execTrainAttemptTimeout link s
  | .backoffExpiry link => Sys2Proof.Machine.execBackoffExpiry link s
  | .berSecond link lane => Sys2Proof.Machine.execBerSecond link lane s
  | .spareReq f => Sys2Proof.Machine.execSpareReq f s
  | .spareCopyStart link => Sys2Proof.Machine.execSpareCopyStart link s
  | .spareDone f => Sys2Proof.Machine.execSpareDone f s
  | .spareCancel f => Sys2Proof.Machine.execSpareCancel f s
  | .tune f => Sys2Proof.Machine.execTune f s
  | .laneRetrainDone link lane => Sys2Proof.Machine.execLaneRetrainDone link lane s
  | .laneRetrainTimeout link lane => Sys2Proof.Machine.execLaneRetrainTimeout link lane s
  | .linkRetrain e w => Sys2Proof.Machine.execLinkRetrain e w s
  | .laneRetrain e w => Sys2Proof.Machine.execLaneRetrain e w s
  | .rtpPacket path p => Sys2Proof.Machine.execRtpPacket path p s
  | .rxPathLoss stream path => Sys2Proof.Machine.execRxPathLoss stream path s
  | .rtpTx stream fullA fullB => Sys2Proof.Machine.execRtpTx stream fullA fullB s
  | .portLinkDown port => Sys2Proof.Machine.execPortLinkDown port s
  | .portLinkUp port => Sys2Proof.Machine.execPortLinkUp port s
  | .switchFrame path port f => Sys2Proof.Machine.execSwitchFrame path port f s
  | .twoStepHoldExpiry path sourcePort seqId => Sys2Proof.Machine.execTwoStepHoldExpiry path sourcePort seqId s
  | .macAgeExpiry path mac => Sys2Proof.Machine.execMacAgeExpiry path mac s
  | .igmpReport path port group => Sys2Proof.Machine.execIgmpReport path port group s
  | .igmpQuery path port version => Sys2Proof.Machine.execIgmpQuery path port version s
  | .membershipExpiry path port group => Sys2Proof.Machine.execMembershipExpiry path port group s
  | .arpRequest ifc target senderMac senderIp => Sys2Proof.Machine.execArpRequest ifc target senderMac senderIp s
  | .icmpEcho ifc dst src id seq data => Sys2Proof.Machine.execIcmpEcho ifc dst src id seq data s
  | .ringProbeSend path => Sys2Proof.Machine.execRingProbeSend path s
  | .ringProbeMiss path => Sys2Proof.Machine.execRingProbeMiss path s
  | .ringRestore path => Sys2Proof.Machine.execRingRestore path s
  | .flushFrame path port => Sys2Proof.Machine.execFlushFrame path port s
  | .sync inst port m => Sys2Proof.Machine.execSync inst port m s
  | .followUp inst m => Sys2Proof.Machine.execFollowUp inst m s
  | .announce inst m => Sys2Proof.Machine.execAnnounce inst m s
  | .delayReqSend inst egress => Sys2Proof.Machine.execDelayReqSend inst egress s
  | .delayResp inst m => Sys2Proof.Machine.execDelayResp inst m s
  | .pdelayMessage path port m egress => Sys2Proof.Machine.execPdelayMessage path port m egress s
  | .announceTimeout inst => Sys2Proof.Machine.execAnnounceTimeout inst s
  | .syncTimeout inst => Sys2Proof.Machine.execSyncTimeout inst s
  | .stepPendingTimeout inst movedA movedB => Sys2Proof.Machine.execStepPendingTimeout inst movedA movedB s
  | .asymClear e w => Sys2Proof.Machine.execAsymClear e w s
  | .refWindow entry offsetPpb jitterNs phaseNs => Sys2Proof.Machine.execRefWindow entry offsetPpb jitterNs phaseNs s
  | .refAbsent entry => Sys2Proof.Machine.execRefAbsent entry s
  | .refQualTime entry => Sys2Proof.Machine.execRefQualTime entry s
  | .refWtrExpiry entry => Sys2Proof.Machine.execRefWtrExpiry entry s
  | .refSwitchApply => Sys2Proof.Machine.execRefSwitchApply s
  | .pllUnlock phaseErrorNs => Sys2Proof.Machine.execPllUnlock phaseErrorNs s
  | .pairAliveEdge intervalNs => Sys2Proof.Machine.execPairAliveEdge intervalNs s
  | .roleWatchEnd => Sys2Proof.Machine.execRoleWatchEnd s
  | .unitBRoleWait => Sys2Proof.Machine.execUnitBRoleWait s
  | .agree f => Sys2Proof.Machine.execAgree f s
  | .agreeTimeout => Sys2Proof.Machine.execAgreeTimeout s
  | .fill f => Sys2Proof.Machine.execFill f s
  | .tdmIn f => Sys2Proof.Machine.execTdmIn f s
  | .tdmInDeadline => Sys2Proof.Machine.execTdmInDeadline s
  | .journal f e j frame result => Sys2Proof.Machine.execJournal f e j frame result s
  | .journalAck f => Sys2Proof.Machine.execJournalAck f s
  | .gultinFwd f e r => Sys2Proof.Machine.execGultinFwd f e r s
  | .resyncReq f => Sys2Proof.Machine.execResyncReq f s
  | .resyncPhase f => Sys2Proof.Machine.execResyncPhase f s
  | .resyncAbortMsg f => Sys2Proof.Machine.execResyncAbortMsg f s
  | .versions f => Sys2Proof.Machine.execVersions f s
  | .handoverFrame f => Sys2Proof.Machine.execHandoverFrame f s
  | .pathHandover path => Sys2Proof.Machine.execPathHandover path s
  | .partnerResetRequest f => Sys2Proof.Machine.execPartnerResetRequest f s
  | .resyncData m => Sys2Proof.Machine.execResyncData m s
  | .takeover conditionB => Sys2Proof.Machine.execTakeover conditionB s
  | .tickWatchdog => Sys2Proof.Machine.execTickWatchdog s
  | .resync e w => Sys2Proof.Machine.execResync e w s
  | .resyncAutoDelay => Sys2Proof.Machine.execResyncAutoDelay s
  | .configEnd => Sys2Proof.Machine.execConfigEnd s
  | .catchmentCapture => Sys2Proof.Machine.execCatchmentCapture s
  | .bulkEnd => Sys2Proof.Machine.execBulkEnd s
  | .capture => Sys2Proof.Machine.execCapture s
  | .catchUpFrame sourceDigest => Sys2Proof.Machine.execCatchUpFrame sourceDigest s
  | .inStep => Sys2Proof.Machine.execInStep s
  | .resyncTimeout => Sys2Proof.Machine.execResyncTimeout s
  | .forceActive e w => Sys2Proof.Machine.execForceActive e w s
  | .partnerReset e w => Sys2Proof.Machine.execPartnerReset e w s
  | .fedframe f => Sys2Proof.Machine.execFedframe f s
  | .fedtick f phaseNs => Sys2Proof.Machine.execFedtick f phaseNs s
  | .fedMemberLost member => Sys2Proof.Machine.execFedMemberLost member s
  | .fedMismatchClear bit => Sys2Proof.Machine.execFedMismatchClear bit s
  | .powerOnReset => Sys2Proof.Machine.execPowerOnReset s
  | .resetNAssert pulseNs => Sys2Proof.Machine.execResetNAssert pulseNs s
  | .resetNRelease pulseNs => Sys2Proof.Machine.execResetNRelease pulseNs s
  | .systemWatchdog => Sys2Proof.Machine.execSystemWatchdog s
  | .coreWatchdog core => Sys2Proof.Machine.execCoreWatchdog core s
  | .thermalReset => Sys2Proof.Machine.execThermalReset s
  | .thermalWarn => Sys2Proof.Machine.execThermalWarn s
  | .supplyWarn => Sys2Proof.Machine.execSupplyWarn s
  | .vbatLow millivolts => Sys2Proof.Machine.execVbatLow millivolts s
  | .optionLoadDone => Sys2Proof.Machine.execOptionLoadDone s
  | .stretchExpiry => Sys2Proof.Machine.execStretchExpiry s
  | .releaseGap => Sys2Proof.Machine.execReleaseGap s
  | .firmwareBooted image => Sys2Proof.Machine.execFirmwareBooted image s
  | .flowingEntry => Sys2Proof.Machine.execFlowingEntry s
  | .resetBlock e w => Sys2Proof.Machine.execResetBlock e w s
  | .resetWarm e w => Sys2Proof.Machine.execResetWarm e w s
  | .resetCold e w => Sys2Proof.Machine.execResetCold e w s
  | .softResetDelay => Sys2Proof.Machine.execSoftResetDelay s
  | .safetyCoreReset block => Sys2Proof.Machine.execSafetyCoreReset block s
  | .blockIdle block => Sys2Proof.Machine.execBlockIdle block s
  | .idleTimeout block outstanding => Sys2Proof.Machine.execIdleTimeout block outstanding s
  | .blockRelease block => Sys2Proof.Machine.execBlockRelease block s
  | .controlRestart => Sys2Proof.Machine.execControlRestart s
  | .domainWakeDone domain => Sys2Proof.Machine.execDomainWakeDone domain s
  | .optionProgram f => Sys2Proof.Machine.execOptionProgram f s
  | .svcRead f => Sys2Proof.Machine.execSvcRead f s
  | .svcWrite f => Sys2Proof.Machine.execSvcWrite f s
  | .svcWriteLast f => Sys2Proof.Machine.execSvcWriteLast f s
  | .svcFetch f => Sys2Proof.Machine.execSvcFetch f s
  | .counterClear f => Sys2Proof.Machine.execCounterClear f s
  | .rtcSync => Sys2Proof.Machine.execRtcSync s
  | .stickyClear e w => Sys2Proof.Machine.execStickyClear e w s
  | .countClear e w => Sys2Proof.Machine.execCountClear e w s
  | .clearAll e w => Sys2Proof.Machine.execClearAll e w s
  | .injectionWindow e w => Sys2Proof.Machine.execInjectionWindow e w s
  | .windowTimeout => Sys2Proof.Machine.execWindowTimeout s
  | .arm e w => Sys2Proof.Machine.execArm e w s
  | .injectionFire event => Sys2Proof.Machine.execInjectionFire event s
  | .driftWordClose queue => Sys2Proof.Machine.execDriftWordClose queue s
  | .driftMapWord => Sys2Proof.Machine.execDriftMapWord s
  | .driftPop queue size => Sys2Proof.Machine.execDriftPop queue size s
  | .driftFlush e w => Sys2Proof.Machine.execDriftFlush e w s
  | .moraineMirror => Sys2Proof.Machine.execMoraineMirror s
  | .shutdown e w => Sys2Proof.Machine.execShutdown e w s
  | .moraineClear f => Sys2Proof.Machine.execMoraineClear f s
  | .busTransaction t => Sys2Proof.Machine.execBusTransaction t s
  | .busResponseTimeout master id address => Sys2Proof.Machine.execBusResponseTimeout master id address s
  | .scrubPass hbm corrected => Sys2Proof.Machine.execScrubPass hbm corrected s
  | .hbmTempHigh => Sys2Proof.Machine.execHbmTempHigh s
  | .hbmTempNormal => Sys2Proof.Machine.execHbmTempNormal s
  | .keyWrite f => Sys2Proof.Machine.execKeyWrite f s
  | .dmaStart e w => Sys2Proof.Machine.execDmaStart e w s
  | .dmaDatagram srcAddr srcPort bytes => Sys2Proof.Machine.execDmaDatagram srcAddr srcPort bytes s
  | .fwChunk e w => Sys2Proof.Machine.execFwChunk e w s
  | .fwVerify e w => Sys2Proof.Machine.execFwVerify e w s
  | .fwHandover e w => Sys2Proof.Machine.execFwHandover e w s
  | .handoverDone => Sys2Proof.Machine.execHandoverDone s
  | .handoverTimeout => Sys2Proof.Machine.execHandoverTimeout s
  | .powerOnRelease => Sys2Proof.Machine.execPowerOnRelease s
  | .resetPulseEnd source => Sys2Proof.Machine.execResetPulseEnd source s
  | .junctionCooling tenthsC => Sys2Proof.Machine.execJunctionCooling tenthsC s
  | .pllLock => Sys2Proof.Machine.execPllLock s
  | .bootImageBad single => Sys2Proof.Machine.execBootImageBad single s
  | .partnerAbsent => Sys2Proof.Machine.execPartnerAbsent s
  | .pairRoleChange high => Sys2Proof.Machine.execPairRoleChange high s
  | .glideEnd => Sys2Proof.Machine.execGlideEnd s
  | .dmaTransferDone channel => Sys2Proof.Machine.execDmaTransferDone channel s
  | .fwVerifyDone => Sys2Proof.Machine.execFwVerifyDone s
  | .jtagTck tms tdi trstN => Sys2Proof.Machine.execJtagTck tms tdi trstN s

end Sys2Proof.Machine
end

