-- ==== Sys2Proof/WellFormed.lean ====
section
/-! DEFINITION. Which commands a sender can bring: every field within the width the manual gives it. Each check has a name, and
a well-formed command passes all of its checks. Malformed messages in the manual's sense (R37, R225) are well-formed here: they
arrive, and their meaning discards them. -/

namespace Sys2Proof

/-- The checks of a command's operands. -/
inductive Check where
  /-- Header fields of a Gultin message within their bytes (Table 2.9), addresses and ports within IPv4 and UDP. -/
  | envelopeWidths
  /-- A tag of 16 bytes exactly when AUTH is set (Table 2.10). -/
  | envelopeTag
  /-- Payload fields within their bytes (Table 2.12). -/
  | payloadWidths
  /-- Frame counts and result codes within their bytes (Table 13.10). -/
  | journalWidths
  /-- A Braid message of a START and at most the blocks of 16,384 bytes behind it (Table 10.4). -/
  | braidWidths
  /-- At most the blocks of one marker interval, six equaliser values or directions (Tables 10.3, 10.7, R219, R228). -/
  | blockWidths
  /-- An ACC that clears also loads; the low register of a pair is X0 or X2 (Table 3.10, R82). -/
  | accOperands
  /-- END closes one to three loops (Table 3.7). -/
  | endCount
  /-- An element of an object numbered within 16 bits, an index, a sub-index within theirs (R4). -/
  | objectNumber
  /-- TDM samples at different slots of the group, each of 24 bits (R111). -/
  | tdmSamples
  /-- RTP header fields within their bits (R253). -/
  | rtpWidths
  /-- Ethernet and PTP fields within their bits (R240, R261). -/
  | etherWidths
  /-- A bus access of at least one byte (R384). -/
  | busLength
  /-- Elements of a list of elements are numbered below 8,192 and rise; the places a scrub lists are those of R394 (R175). -/
  | elementList
  /-- The stores of a resync piece lie in their canonical form (R317). -/
  | resyncStores
  deriving DecidableEq, Repr

/-- A number of n bytes. -/
def fitsBytes (v n : Nat) : Bool := decide (v < 256 ^ n)

def Envelope.widthsOk (e : Envelope) : Bool :=
  fitsBytes e.magic 2 && fitsBytes e.version 1 && fitsBytes e.typ 1 && fitsBytes e.session 2 && fitsBytes e.sequence 4 && fitsBytes e.length 2
    && fitsBytes e.keySlot 1 && fitsBytes e.reserved 1 && fitsBytes e.udpLength 2 && fitsBytes e.srcAddr 4 && fitsBytes e.srcPort 2
    && fitsBytes e.dstPort 2 && decide (e.ifc < 3) && decide (e.vlan < 4096)

def Envelope.tagOk (e : Envelope) : Bool := e.tag.length == (if e.flags.getLsbD 0 then 16 else 0)

def HelloBody.ok (b : HelloBody) : Bool := fitsBytes b.station 8 && fitsBytes b.resume 2 && fitsBytes b.reserved 2
def ClaimBody.ok (b : ClaimBody) : Bool := fitsBytes b.priority 1
def ReadBody.ok (b : ReadBody) : Bool :=
  fitsBytes b.index 2 && fitsBytes b.element 2 && fitsBytes b.sub 1 && fitsBytes b.typ 1 && fitsBytes b.offset 4 && fitsBytes b.maxLen 2
def WriteBody.ok (b : WriteBody) : Bool :=
  fitsBytes b.element 2 && fitsBytes b.typ 1 && fitsBytes b.offset 4 && fitsBytes b.length 2
def BeginBody.ok (b : BeginBody) : Bool := fitsBytes b.tag 4 && fitsBytes b.reserved 4
def CommitBody.ok (b : CommitBody) : Bool := fitsBytes b.tag 4 && fitsBytes b.target 8 && fitsBytes b.reserved 2
def SubscribeBody.ok (b : SubscribeBody) : Bool :=
  fitsBytes b.kind 1 && fitsBytes b.mode 1 && fitsBytes b.period 2 && fitsBytes b.index 2 && fitsBytes b.element 2
    && fitsBytes b.sub 1 && fitsBytes b.typ 1

def Request.ok : Request → Bool
  | .hello b => b.ok
  | .claim b => b.ok
  | .yield st => fitsBytes st 8
  | .heartbeat ep => fitsBytes ep 4
  | .read b => b.ok
  | .write i sub w => fitsBytes i 2 && fitsBytes sub 1 && w.ok
  | .groupBegin b => b.ok
  | .groupCommit b => b.ok
  | .subscribe b => b.ok
  | .resume f => fitsBytes f 4

/-- The wish or the values of CTLE and DFE taps 1 to 5. -/
def equaliserOk (l : List Int) : Bool := l.length == 6

def BraidFrame.ok (f : BraidFrame) : Bool := !f.blocks.isEmpty && decide (f.blocks.length ≤ 2050)

def MarkerBlock.ok (m : MarkerBlock) : Bool :=
  decide (m.since.length ≤ 16383) && equaliserOk m.wish && m.wish.all (fun w => decide (-1 ≤ w) && decide (w ≤ 1))

def TrainBlock.ok (t : TrainBlock) : Bool := equaliserOk t.eq

/-- A decision's numbers within their bytes. -/
def Decision.ok : Decision → Bool
  | .electing => true
  | .ownerLost => true
  | .elected w => w.all (fun x => decide (1 ≤ x.1) && decide (x.1 ≤ 32) && fitsBytes x.2.1 1)
  | .groupReady se sq t => fitsBytes se 2 && fitsBytes sq 4 && fitsBytes t 8
  | .groupMoved se sq t => fitsBytes se 2 && fitsBytes sq 4 && fitsBytes t 8
  | .groupRejected se sq => fitsBytes se 2 && fitsBytes sq 4
  | .fedPhase _ p tag f v => fitsBytes p 1 && fitsBytes tag 4 && fitsBytes f 8 && fitsBytes v 4
  | .refStep e f _ j a _ => fitsBytes e 1 && fitsBytes f 8 && fitsBytes j 1 && fitsBytes a 8
  | .rebase f _ => fitsBytes f 8
  | .fedVerdict m l p => fitsBytes m 1 && fitsBytes l 1 && fitsBytes p 1

/-- The stores of a piece of a resync. -/
def resyncPieceOk : Sys2Proof.Machine.ResyncPiece → Bool
  | .bytes => true
  | .config nums blobs sessions _ _ =>
    Machine.Sparse.sortedFrom 0 nums && Machine.Sparse.sortedFrom 0 blobs && Machine.Sparse.sortedFrom 0 sessions
  | .catchment nums _ => Machine.Sparse.sortedFrom 0 nums
  | .bulk rings buffers kept =>
    Machine.Sparse.sortedFrom 0 rings && Machine.Sparse.sortedFrom 0 buffers && Machine.Sparse.sortedFrom 0 kept
  | .core nums blobs cells cluster rings dests rills _ _ _ =>
    Machine.Sparse.sortedFrom 0 nums && Machine.Sparse.sortedFrom 0 blobs && Machine.Sparse.wf (fun _ => Machine.Cell.zero) cells
      && cells.all (fun e => Machine.Sparse.wf (fun _ => (0 : Word)) e.2.mem && Machine.Sparse.wf (fun _ => (0 : IWord)) e.2.bank0
        && Machine.Sparse.wf (fun _ => (0 : IWord)) e.2.bank1)
      && Machine.Sparse.wf (fun _ => (0 : Word)) cluster && Machine.Sparse.sortedFrom 0 rings && Machine.Sparse.sortedFrom 0 dests
      && Machine.Sparse.sortedFrom 0 rills

def RtpPacket.ok (p : RtpPacket) : Bool :=
  fitsBytes p.dst 4 && fitsBytes p.src 4 && fitsBytes p.port 2 && decide (p.version < 4) && decide (p.csrcCount < 16)
    && decide (p.payloadType < 128) && fitsBytes p.sequence 2 && fitsBytes p.timestamp 4 && fitsBytes p.ssrc 4
    && decide (p.payload.length ≤ 65507)

def PtpMsg.ok (m : PtpMsg) : Bool :=
  decide (m.msgType < 16) && fitsBytes m.domain 1 && fitsBytes m.sourcePort 10 && fitsBytes m.seqId 2 && fitsBytes m.gmIdentity 8
    && fitsBytes m.gmClass 1 && fitsBytes m.priority1 1 && fitsBytes m.accuracy 1 && fitsBytes m.variance 2
    && fitsBytes m.priority2 1 && fitsBytes m.steps 2 && decide (-128 ≤ m.interval) && decide (m.interval ≤ 127)

def EthFrame.ok (f : EthFrame) : Bool :=
  fitsBytes f.dst 6 && fitsBytes f.src 6 && f.vlan.all (fun v => decide (v < 4096)) && fitsBytes f.etherType 2
    && fitsBytes f.length 2 && fitsBytes f.ipDst 4 && fitsBytes f.proto 1 && fitsBytes f.udpSrc 2 && fitsBytes f.udpPort 2 && fitsBytes f.checksum 2
    && decide (f.dscp < 64) && f.ptp.all (·.ok)

/-- Keys of a list rise strictly. -/
def risesStrictly : List Nat → Bool
  | a :: b :: r => decide (a < b) && risesStrictly (b :: r)
  | _ => true

def tdmOk (l : List (Nat × Int)) : Bool :=
  risesStrictly (l.map (·.1)) && l.all (fun e => decide (e.1 < 512) && decide (-8388608 ≤ e.2) && decide (e.2 ≤ 8388607))

/-- The checks that apply to a Gultin message with a payload check. -/
def messageChecks (e : Envelope) (payload : Bool) : List (Check × Bool) :=
  [(.envelopeWidths, e.widthsOk), (.envelopeTag, e.tagOk), (.payloadWidths, payload)]

def braidChecks (f : BraidFrame) : List (Check × Bool) := [(.braidWidths, f.ok)]

/-- The checks of a command, each with its outcome. A command whose operands are bounded by their types has none. -/
def Instr.checks : Instr → List (Check × Bool)
  | .hello e b => messageChecks e b.ok
  | .claim e b => messageChecks e b.ok
  | .yield e st => messageChecks e (fitsBytes st 8)
  | .heartbeat e ep => messageChecks e (fitsBytes ep 4)
  | .read e b => messageChecks e b.ok
  | .write e i sub w => messageChecks e (fitsBytes i 2 && fitsBytes sub 1 && w.ok)
  | .groupBegin e b => messageChecks e b.ok
  | .groupCommit e b => messageChecks e b.ok
  | .subscribe e b => messageChecks e b.ok
  | .resume e f => messageChecks e (fitsBytes f 4)
  | .close e w | .storeLength e w | .storeChunk e w | .verify e w | .groupDiscard e w | .stageChunk e w | .linkRetrain e w
  | .laneRetrain e w | .asymClear e w | .resync e w | .forceActive e w | .partnerReset e w | .resetBlock e w | .resetWarm e w
  | .resetCold e w | .stickyClear e w | .countClear e w | .clearAll e w | .injectionWindow e w | .arm e w | .driftFlush e w
  | .shutdown e w | .dmaStart e w | .fwChunk e w | .fwVerify e w | .fwHandover e w => messageChecks e w.ok
  | .cellStatusClear e _ w => messageChecks e w.ok
  | .blobSeriesTimeout _ i el sub => [(.objectNumber, fitsBytes i 2 && fitsBytes el 2 && fitsBytes sub 1)]
  | .persistSave i el sub => [(.objectNumber, fitsBytes i 2 && fitsBytes el 2 && fitsBytes sub 1)]
  | .acc _ _ _ x w ld z _ => [(.accOperands, (!z || ld) && (!w || x.val % 2 == 0))]
  | .endLoop _ n => [(.endCount, n != 0)]
  | .zxTimeout d => [(.objectNumber, decide (d < 16384))]
  | .tdmFrame _ l _ => [(.tdmSamples, tdmOk l)]
  | .eddyFetchDone d _ | .eddyFetchDeadline d _ => [(.objectNumber, decide (d < 4096))]
  | .eddyCopyDone d => [(.objectNumber, decide (d < 4096))]
  | .prepare f | .ready f | .refuse f | .go f | .abort f | .arrayBlock f | .spareReq f | .spareDone f | .spareCancel f | .tune f
  | .fill f | .tdmIn f | .journalAck f | .resyncReq f | .resyncPhase f | .resyncAbortMsg f | .versions f
  | .handoverFrame f | .partnerResetRequest f | .fedframe f => braidChecks f
  | .agree f => braidChecks f.frame
  | .resyncData m => braidChecks m.frame ++ [(.resyncStores, resyncPieceOk m.piece)]
  | .fedtick f _ => braidChecks f
  | .journal f e j fr res =>
    match j with
    | .entry r => braidChecks f ++ messageChecks e r.ok ++ [(.journalWidths, fitsBytes fr 8 && fitsBytes res 1)]
    | .decision d => braidChecks f ++ [(.journalWidths, d.ok)]
  | .gultinFwd f e r => braidChecks f ++ messageChecks e r.ok
  | .snapshotReady l => [(.elementList, risesStrictly l && l.all (fun n => decide (n < 8192)))]
  | .marker _ _ m => [(.blockWidths, m.ok)]
  | .train _ t => [(.blockWidths, t.ok)]
  | .rtpPacket _ p => [(.rtpWidths, p.ok)]
  | .switchFrame _ _ f => [(.etherWidths, f.ok)]
  | .sync _ _ m => [(.etherWidths, m.ok)]
  | .followUp _ m | .announce _ m | .delayResp _ m => [(.etherWidths, m.ok)]
  | .pdelayMessage _ _ m _ => [(.etherWidths, m.ok)]
  | .twoStepHoldExpiry _ sp sq => [(.etherWidths, fitsBytes sp 10 && fitsBytes sq 2)]
  | .macAgeExpiry _ a => [(.etherWidths, fitsBytes a 6)]
  | .igmpReport _ _ g | .membershipExpiry _ _ g => [(.etherWidths, fitsBytes g 4)]
  | .igmpQuery _ _ v => [(.etherWidths, decide (v < 4))]
  | .arpRequest _ t m ip => [(.etherWidths, fitsBytes t 4 && fitsBytes m 6 && fitsBytes ip 4)]
  | .icmpEcho _ d s i q b =>
    [(.etherWidths, fitsBytes d 4 && fitsBytes s 4 && fitsBytes i 2 && fitsBytes q 2 && decide (b.length ≤ 65507))]
  | .dmaDatagram a p b => [(.etherWidths, fitsBytes a 4 && fitsBytes p 2 && decide (b.length ≤ 65507))]
  | .scrubPass _ l => [(.elementList, l.all (fun n => decide (n < 66)))]
  | .busTransaction t => [(.busLength, t.readLen.all (fun n => decide (0 < n)) && (t.readLen.isSome || !t.data.isEmpty))]
  | _ => []

/-- The checks a command fails. -/
def Instr.failures (i : Instr) : List Check := (i.checks.filter (fun c => !c.2)).map (·.1)

/-- A command that a sender can bring. -/
def Instr.wellFormed (i : Instr) : Bool := i.checks.all (·.2)

end Sys2Proof
end

