-- ==== Sys2Proof/Safety.lean ====
section
/-! DEFINITION. The terms of the statements: a command that completes, what it leaves alone, a sound state, a request that meets the
engine in order, an accepted write. -/

namespace Sys2Proof.Machine

/-! ## Completing, and what is left alone -/

/-- The command answers a next state, and P holds of that state. -/
def Completes (i : Instr) (s : State) (P : State → Prop) : Prop := ∃ t, exec i s = .next t ∧ P t

/-- Every numeric object but those listed reads as before. -/
def ObjectsKept (s t : State) (l : List Nat) : Prop := ∀ k, k ∉ l → getO t k = getO s k

/-- Nothing but numeric objects and the pin EVT_N differs. -/
def ObjectsOnly (s t : State) : Prop := t = { s with obj := t.obj, ev := { s.ev with evtN := t.ev.evtN } }

/-- Nothing but numeric objects and the records of events differs. -/
def EventsOnly (s t : State) : Prop := t = { s with obj := t.obj, ev := t.ev }

/-- Nothing but numeric objects, what a session holds, what is sent, and EVT_N differs. -/
def SessionOnly (s t : State) : Prop :=
  t = { s with
    obj := t.obj
    out := t.out
    ctl := { s.ctl with sessions := t.ctl.sessions }
    ev := { s.ev with evtN := t.ev.evtN } }

/-- Event n has not been raised yet in the running frame (R361). -/
def NotYetRaised (s : State) (n : Nat) : Prop := s.ev.now.find? (fun r => r.event == n && r.frame == s.frame) = none

/-- The objects of event n that raising it may write: STATUS, STICKY, COUNT, LAST_FRAME, DETAIL, INJECTED (Table 15.3). -/
def eventKeys (n : Nat) : List Nat :=
  [Obj.evt.status n, Obj.evt.sticky n, Obj.evt.count n, Obj.evt.lastFrame n, Obj.evt.detail n, Obj.evt.injected n]

/-- Event n has been raised: STATUS and STICKY read 1 (R361). -/
def EventRaised (t : State) (n : Nat) : Prop := getO t (Obj.evt.status n) = 1 ∧ getO t (Obj.evt.sticky n) = 1

/-- Where it was not raised yet in the frame, event n has been raised with a detail, at the running frame (R361). -/
def Raises (s t : State) (n d : Nat) : Prop :=
  NotYetRaised s n → EventRaised t n ∧ natO t (Obj.evt.detail n) = d ∧ natO t (Obj.evt.lastFrame n) = s.frame

/-- A counter has risen by one, below the end of its range. -/
def CountsOne (s t : State) (k : Nat) : Prop := natO s k + 1 < counterSpan k → natO t k = natO s k + 1

/-! ## DSP cells -/

/-- Nothing but one cell and its status word differs. -/
structure CellOnly (s t : State) (n : Nat) : Prop where
  rest    : t = { s with cells := t.cells, obj := t.obj }
  others  : ∀ m, m ≠ n → cellOf t m = cellOf s m
  objects : ObjectsKept s t [Obj.clus.cellStatus (n / 8) (n % 8)]

/-- An instruction has begun at a cell, and its compute operation has changed lanes only: the registers as they stood are
latched, the instruction address is the next one, and no address register, loop or word of memory differs (R73, R77). -/
structure LanesOnly (s t : State) (n : Nat) : Prop extends CellOnly s t n where
  cell : cellOf t n = { cellOf s n with
    lanes := (cellOf t n).lanes, pc := (cellOf s n).nextPc, nextPc := ((cellOf s n).nextPc + 1) % 4096,
    latch := ⟨(cellOf s n).lanes, none, none, none⟩, wrapped := (cellOf t n).wrapped, lostSum := (cellOf t n).lostSum,
    saturated := (cellOf t n).saturated }

/-- A compute operation has taken `f` in the lanes where the flag PSEL, inverted by PINV, is 1, or in all when PEN is 0, and
nothing in the others (R78). `f` sees all lanes, the lane's number and the lane. -/
def LanesDone (s t : State) (n : Nat) (p : Pred) (f : Vector Lane 8 → Fin 8 → Lane → Lane) : Prop :=
  ∀ i : Fin 8, (cellOf t n).lanes[i]
    = if p.pen = false ∨ (cellOf s n).lanes[i].f[p.psel] ≠ p.pinv then f (cellOf s n).lanes i (cellOf s n).lanes[i]
      else (cellOf s n).lanes[i]

/-- The compute operation `f`, which records no event (R78, R84). -/
def LaneEffect (s t : State) (n : Nat) (p : Pred) (f : Vector Lane 8 → Fin 8 → Lane → Lane) : Prop :=
  LanesOnly s t n ∧ LanesDone s t n p f ∧ t.obj = s.obj
    ∧ (cellOf t n).wrapped = (cellOf s n).wrapped ∧ (cellOf t n).lostSum = (cellOf s n).lostSum
    ∧ (cellOf t n).saturated = (cellOf s n).saturated

/-- What lane i of a cell records when a predicated operation `f` runs there (R78, R84). -/
def recordedIn (c : Cell) (p : Pred) (f : Lane → Lane × Seen) (i : Fin 8) : Seen :=
  if p.pen = false ∨ c.lanes[i].f[p.psel] ≠ p.pinv then (f c.lanes[i]).2 else .none

/-- The compute operation `f`, which may record events 161 to 163: the lanes, the status word with the lowest lane first, and the
events noted for the end of the schedule (R83, R84). -/
def LaneRecord (s t : State) (n : Nat) (p : Pred) (acc : Nat) (f : Lane → Lane × Seen) : Prop :=
  LanesOnly s t n ∧ LanesDone s t n p (fun _ _ l => (f l).1)
    ∧ natO t (Obj.clus.cellStatus (n / 8) (n % 8))
      = (List.finRange 8).foldl (fun st (i : Fin 8) => recordSeen st (cellOf s n).nextPc i.val acc (recordedIn (cellOf s n) p f i))
          (natO s (Obj.clus.cellStatus (n / 8) (n % 8)))
    ∧ ((cellOf t n).wrapped = true ↔ (cellOf s n).wrapped = true ∨ ∃ i, recordedIn (cellOf s n) p f i = .wrap)
    ∧ ((cellOf t n).lostSum = true ↔ (cellOf s n).lostSum = true ∨ ∃ i, recordedIn (cellOf s n) p f i = .lost)
    ∧ ((cellOf t n).saturated = true ↔ (cellOf s n).saturated = true ∨ ∃ i, recordedIn (cellOf s n) p f i = .sat)

/-- A slot or control operation has changed one cell only, and made it `c`. -/
def CellBecomes (s t : State) (n : Nat) (c : Cell) : Prop :=
  t = { s with cells := t.cells } ∧ cellOf t n = c ∧ ∀ m, m ≠ n → cellOf t m = cellOf s m

/-- The address registers from which a slot forms its address: slot B starts from what slot A left (R72). -/
def slotStart (c : Cell) : SlotId → Addrs
  | .a => c.addrs
  | .b => c.latch.afterA.getD c.addrs

/-- The address a slot operation uses (Table 3.5). -/
def slotAt (c : Cell) (slot : SlotId) (ap : Fin 8) (am : Fin 4) (unit : Int) : Nat := (slotAddress (slotStart c slot) ap am unit).1

/-- The address registers a slot operation leaves: stepped, then an LDP of slot A written over them (R72). -/
def slotLeaves (c : Cell) (slot : SlotId) (ap : Fin 8) (am : Fin 4) (unit : Int) : Addrs :=
  let r := (slotAddress (slotStart c slot) ap am unit).2
  match slot, c.latch.ldpA with
  | .b, some (k, i, w) => ldpWrite r k i w
  | _, _ => r

/-- A load into register `reg` of every lane has left all else of the cell but the address registers and the latch (R75). -/
def Loaded (c d : Cell) (reg : Fin 8) (v : Fin 8 → Word) : Prop :=
  d = { c with lanes := d.lanes, addrs := d.addrs, latch := d.latch }
    ∧ ∀ i : Fin 8, regOf d.lanes[i] reg = v i ∧ (∀ r, r ≠ reg → regOf d.lanes[i] r = regOf c.lanes[i] r)
      ∧ d.lanes[i].a = c.lanes[i].a ∧ d.lanes[i].f = c.lanes[i].f

/-- The cell of a command of a DSP cell, none for any other command. -/
def cellCommand : Instr → Option Nat
  | .nop c _ => some c
  | .mac c _ _ _ _ _ _ => some c
  | .msu c _ _ _ _ _ _ => some c
  | .mpy c _ _ _ _ _ _ _ => some c
  | .sqa c _ _ _ => some c
  | .acc c _ _ _ _ _ _ _ => some c
  | .ext c _ _ _ _ => some c
  | .exw c _ _ _ _ => some c
  | .max c _ _ _ _ => some c
  | .min c _ _ _ _ => some c
  | .abs c _ _ _ => some c
  | .cmp c _ _ _ _ _ => some c
  | .sel c _ _ _ _ _ => some c
  | .shf c _ _ _ _ => some c
  | .shuf c _ _ _ _ => some c
  | .bcast c _ _ _ _ => some c
  | .log2 c _ _ _ => some c
  | .exp2 c _ _ _ => some c
  | .zxg c _ _ _ _ _ _ _ => some c
  | .mov c _ _ _ => some c
  | .ldv c _ _ _ _ => some c
  | .ldb c _ _ _ _ => some c
  | .stv c _ _ _ _ _ _ => some c
  | .stl c _ _ _ _ _ => some c
  | .ldp c _ _ _ _ _ => some c
  | .yieldSlot c _ => some c
  | .doLoop c _ => some c
  | .endLoop c _ => some c
  | .frameEnd c => some c
  | _ => none

/-! ## Sound states -/

/-- The pin EVT_N stands as the events drive it (R365). -/
def EvtNDriven (s : State) : Prop := s.ev.evtN = evtLow s

/-- The object stores and the cells lie in their canonical form. -/
def StoresCanonical (s : State) : Prop :=
  Sparse.wf dfltOf s.obj = true ∧ Sparse.wf blobDflt s.blob = true ∧ Sparse.wf (fun _ => Cell.zero) s.cells = true

/-- The byte memories lie in their canonical form: addresses strictly rising, no entry equal to the 0 an unlisted byte reads as. -/
def Memory.wf (b : Bus) : Bool :=
  Sparse.wf (fun _ => (0 : Byte)) b.hbm && Sparse.wf (fun _ => (0 : Byte)) b.sram && Sparse.wf (fun _ => (0 : Byte)) b.aon
    && Sparse.wf (fun _ => (0 : Byte)) b.flash && Sparse.wf (fun _ => (0 : Byte)) b.otp

/-- The operand memory and the code banks of a cell lie in their canonical form. -/
def cellCanonical (c : Cell) : Bool :=
  Sparse.wf (fun _ => (0 : Word)) c.mem && Sparse.wf (fun _ => (0 : IWord)) c.bank0 && Sparse.wf (fun _ => (0 : IWord)) c.bank1

/-- The cells lie in canonical form, and so do their memories and banks; instruction addresses stay inside a bank of 4,096 words and
at most three loops are open (R57, R73, R74). -/
def cellsSound (s : State) : Prop :=
  Sparse.wf (fun _ => Cell.zero) s.cells = true ∧ ∀ n, cellCanonical (cellOf s n) = true ∧ (cellOf s n).nextPc < 4096
    ∧ (cellOf s n).loops.length ≤ 3 ∧ ∀ l ∈ (cellOf s n).loops, l.start < 4096

/-- A sequenced request reaches in its turn an engine that decides it, a lone one or the active unit of a pair: the control plane serves
it at the port and interface it came by, checks 1 to 4 of Table 2.13 pass, its session is OPEN, and nothing of the session waits
(R36 to R42, R49, R56). `unpassed`: a CLAIM that the units of a pair pass to each other is not meant here (R49). -/
structure InOrder (s : State) (e : Envelope) (r : Request) : Prop where
  stage      : 2 ≤ stageOf s
  served     : inReset s 25 = false
  heard      : servedAt s e = true
  unpassed   : s.rst.pairEnable = false ∨ reqCode r ≠ 2
  header     : headerBad e r = false
  tag        : tagOk s e r = true
  session    : 1 ≤ e.session ∧ e.session ≤ 32
  opened     : sessState s e.session = 1
  turn       : e.sequence = natO s (Obj.sess.nextSeq (e.session - 1))
  alone      : inHand s e = false
  nothing    : (Machine.session s e.session).held = []
  unanswered : (Machine.session s e.session).results.any (fun x => decide (e.sequence ≤ x.sequence)) = false
  unskipped  : (Machine.session s e.session).skipped.any (fun k => decide (k.1 ≤ e.sequence) && decide (e.sequence ≤ k.2)) = false
  running    : paused s = false
  decides    : decidedByActive s r = false

/-- What Table 2.13 asks of any WRITE in its turn, as the engine stands once the sender's address is noted: the object is declared, only
a BLOB has an offset, TYPE is the object's, it may be written, the session owns the engine, the object's block is not in reset, the
staging buffer is free where it is written, and the journal has room (checks 6 to 9 and 11 to 13). -/
structure WriteMeets (a : State) (n i sub : Nat) (w : WriteBody) (d : Decl) : Prop where
  declared : declFor a i w.element sub = some d
  offset   : d.typ = .blob ∨ w.offset = 0
  typed    : w.typ = d.typ.code
  writable : accessOf d (okey i w.element sub) = .rw ∨ accessOf d (okey i w.element sub) = .wo
  owner    : isOwner a n = true
  running  : keyBlocked a (okey i w.element sub) = false
  staging  : ¬ (i = 0x5300 ∧ sub = 9 ∧ stagingBusy a w.element = true)
  room     : journalFits a (.write i sub w) = true

/-- A WRITE of a number to a CONTROL object that checks 6 to 13 of Table 2.13 accept; `v` is the value it carries (R31). A write that
names a unit names it by its identity (Table 14.14). -/
structure AcceptedWrite (s : State) (e : Envelope) (i sub : Nat) (w : WriteBody) (v : Int) : Prop where
  order  : InOrder s e (.write i sub w)
  fits   : w.element < 65536 ∧ sub < 256
  named  : nameUnit s e (.write i sub w) = .write i sub w
  checks : writeCheck (touch s e.session e) e.session i sub w (e.flags.getLsbD 1) = .ok s.frame
  object : ∃ d, declFor (touch s e.session e) i w.element sub = some d ∧ d.typ.size ≠ 0 ∧ d.effect = .control
    ∧ decodeNum d.typ w.value = some v

/-- A WRITE of a BLOB of one segment to a CONTROL object that checks 6 to 13 of Table 2.13 accept (R31, R38). -/
structure AcceptedBlob (s : State) (e : Envelope) (i sub : Nat) (w : WriteBody) : Prop where
  order  : InOrder s e (.write i sub w)
  fits   : w.element < 65536 ∧ sub < 256
  named  : nameUnit s e (.write i sub w) = .write i sub w
  whole  : e.flags.getLsbD 1 = true ∧ w.offset = 0
  fresh  : seriesOf s (okey i w.element sub) = none
  checks : writeCheck (touch s e.session e) e.session i sub w true = .ok s.frame
  object : ∃ d, declFor (touch s e.session e) i w.element sub = some d ∧ d.typ.size = 0 ∧ d.effect = .control

/-- The engine as an accepted request finds it: the session knows the sender's address, and the request stands in the journal with the
frame it is acknowledged with. -/
def inJournal (s : State) (e : Envelope) (r : Request) (f : Nat) : State :=
  journalAdd (touch s e.session e) e.session e.sequence f r

/-- The same for a request of the running frame. -/
def atRequest (s : State) (e : Envelope) (r : Request) : State := inJournal s e r s.frame

/-- A request has been carried out: `a` is what its effect has made of the engine as the request found it; its entry is retired from
the journal, and it is acknowledged with the running frame (R31, R50). -/
def RequestDone (s t : State) (e : Envelope) (r : Request) (a : State) : Prop :=
  t = driveEvtN (acknowledge (retireEntry a e.session e.sequence) e r s.frame true)

/-- A request has been carried out and its entry stays, or has been retired within `a`: it is acknowledged with frame f. -/
def RequestKept (t : State) (e : Envelope) (r : Request) (f : Nat) (a : State) : Prop := t = driveEvtN (acknowledge a e r f true)

/-- The Gultin message a command carries, none for a command of another kind (Table 2.11 and the writes with rows of their own). -/
def gultinOf : Instr → Option (Envelope × Request)
  | .hello e b => some (e, .hello b)
  | .claim e b => some (e, .claim b)
  | .yield e st => some (e, .yield st)
  | .heartbeat e ep => some (e, .heartbeat ep)
  | .read e b => some (e, .read b)
  | .write e i sub w => some (e, .write i sub w)
  | .groupBegin e b => some (e, .groupBegin b)
  | .groupCommit e b => some (e, .groupCommit b)
  | .subscribe e b => some (e, .subscribe b)
  | .resume e f => some (e, .resume f)
  | .close e w => some (e, .write 0x1110 10 w)
  | .cellStatusClear e sub w => some (e, .write 0x4010 (2 + sub.val) w)
  | .storeLength e w => some (e, .write 0x4000 5 w)
  | .storeChunk e w => some (e, .write 0x4000 7 w)
  | .verify e w => some (e, .write 0x4000 8 w)
  | .groupDiscard e w => some (e, .write 0x4300 8 w)
  | .stageChunk e w => some (e, .write 0x5300 9 w)
  | .linkRetrain e w => some (e, .write 0x3000 9 w)
  | .laneRetrain e w => some (e, .write 0x3010 14 w)
  | .asymClear e w => some (e, .write 0x2100 75 w)
  | .resync e w => some (e, .write 0x3800 8 w)
  | .forceActive e w => some (e, .write 0x3800 10 w)
  | .partnerReset e w => some (e, .write 0x3800 12 w)
  | .resetBlock e w => some (e, .write 0x1200 1 w)
  | .resetWarm e w => some (e, .write 0x1200 1 w)
  | .resetCold e w => some (e, .write 0x1200 1 w)
  | .stickyClear e w => some (e, .write 0x1300 2 w)
  | .countClear e w => some (e, .write 0x1300 5 w)
  | .clearAll e w => some (e, .write 0x1300 68 w)
  | .injectionWindow e w => some (e, .write 0x1400 0 w)
  | .arm e w => some (e, .write 0x1400 1 w)
  | .driftFlush e w => some (e, .write 0x1380 4 w)
  | .shutdown e w => some (e, .write 0x1500 8 w)
  | .dmaStart e w => some (e, .write 0x1600 7 w)
  | .fwChunk e w => some (e, .write 0x1620 5 w)
  | .fwVerify e w => some (e, .write 0x1620 6 w)
  | .fwHandover e w => some (e, .write 0x1620 10 w)
  | _ => none

/-- An ACK to a request has been sent with a payload. -/
def Acked (t : State) (e : Envelope) (payload : List Byte) : Prop :=
  ∃ flags tag, Out.gultin e.srcAddr e.srcPort e.session e.sequence 11 flags payload tag ∈ t.out

/-- A cold or warm source has been asserted: every domain is in reset, the flash and the backup domain keep what they hold; HBM, the number
of the next snapshot and which references were qualified outlast a warm reset only (R180, R277, R335, R336, R338). -/
structure ResetTaken (s t : State) (code : Nat) (cold : Bool) : Prop where
  source : code ∈ t.rst.sources
  held   : t.rst.begun = false ∧ t.rst.released = 0 ∧ t.rst.optionsLoaded = false ∧ stageOf t = 0 ∧ t.frame = 0
  blank  : t.cells = [] ∧ t.eddy = [] ∧ t.prog = Program.reset ∧ t.conf = Conf.reset
  units  : t.braid = Braid.reset ∧ t.net = Net.reset ∧ t.time = Time.reset ∧ t.fed = Fed.reset
    ∧ t.array = { Catch.reset with corr := { Corr.reset with nextNo := t.array.corr.nextNo } }
    ∧ t.sel = { Selector.reset with entries := t.sel.entries }
  kept   : t.bus.flash = s.bus.flash ∧ t.bus.otp = s.bus.otp ∧ t.bus.aon = s.bus.aon ∧ natO t Obj.rcnt.total = natO s Obj.rcnt.total
  reach  : (cold = true → t.rst.cold = true ∧ t.bus.hbm = [] ∧ t.array = Catch.reset ∧ t.sel = Selector.reset)
    ∧ (cold = false → s.rst.begun = true → t.rst.cold = false ∧ t.bus.hbm = s.bus.hbm ∧ t.array.corr.nextNo = s.array.corr.nextNo
      ∧ t.sel.entries = s.sel.entries.map (fun e => { RefEntry.idle with requal := e.requal || e.qualified }))

/-- A command that gives instance i a whole Sync, taken at `port` with ingress time in w: a one-step Sync, or the Follow_Up of the Sync that
waits; t1 is its corrected origin (R262, R263). -/
def SyncBy (s : State) (i : Fin 2) (c : Instr) (port : Nat) (w : PtpMsg) (t1 : Int) : Prop :=
  (∃ p : Fin 2, c = .sync i p w ∧ p.val = port ∧ hears s i w = true ∧ w.twoStep = false ∧ -7 ≤ w.interval ∧ w.interval ≤ 1
      ∧ t1 = w.origin + w.correction)
    ∨ ∃ m, c = .followUp i m ∧ hears s i m = true ∧ (ptpOf s i).waitSync = some (w, port) ∧ w.sourcePort = m.sourcePort
      ∧ w.seqId = m.seqId ∧ t1 = m.origin + m.correction + w.correction

/-- An attempt has begun on a link: DETECT is left for BLOCK_LOCK, with no lane locked or tuned (R229). -/
def AttemptBegun (s t : State) (l : Nat) : Prop :=
  linkState t l = 2 ∧ natO t (Obj.link.backoffMs l) = 0 ∧ CountsOne s t (Obj.link.attempts l)
    ∧ ∀ i, i < 9 → laneLocked t l i = false ∧ (laneOf t l i).tuned = false

/-- An attempt has failed with a code: another one begins at once up to the third failure, the link backs off with event 97 after it
(R232). -/
def AttemptFailed (s t : State) (l code : Nat) : Prop :=
  let n := (linkOf s l).fails + 1
  natO t (Obj.link.lastFail l) = code ∧ CountsOne s t (Obj.link.fails l) ∧ (linkOf t l).fails = n
    ∧ (n ≤ 3 → AttemptBegun s t l)
    ∧ (3 < n → linkState t l = 7 ∧ natO t (Obj.link.backoffMs l) = min (100 * 2 ^ (n - 4)) 1000 ∧ Raises s t 97 l)

/-- The engine as a federation message finds it: received, and passed on (R145). -/
def afterFed (s : State) (f : BraidFrame) : State := passFed (receive s f).1 f

/-- A Braid message that its receiver takes in order, whose bytes begin with `kind` (R225). -/
def takenAs (s : State) (f : BraidFrame) (kind : Nat) : Prop := (receive s f).2 = true ∧ msgField f 0 1 = kind

end Sys2Proof.Machine
end

