-- ==== Sys2Proof/Certificates/Slice0/Obligations.lean ====
section
/-! DEFINITION. The statements about this engine, family by family. Each docstring names the rules it formalises; a state is any
state, reached or not, unless a hypothesis says otherwise. -/

open Sys2Proof Sys2Proof.Machine

/-! ## The DSP cells -/

/-- R60, R61, R62, R76: MAC, MSU and SQA add to an accumulator, MPY and ACC add to it or load it, in every lane the predicate lets
through (R78), and change nothing else of the engine. NOP changes no lane. R61: an addition to an accumulator reduces V modulo 2^56
into [−2^55, 2^55 − 1]; W rises by 1 when the result passed above 2^55 − 1 and falls by 1 when it passed below −2^55; the true sum
T = V + W × 2^56 is exact while W stays within its range. R62: a wrap that W cannot count leaves W and sets WRAP_LOST, and after
that W does not change. -/
def Obligations.AccumulatorCommands : Prop :=
  (
    ∀ (s : State) (cell : Fin 128) (p : Pred) (acc : Fin 8) (x c sh : Fin 4) (cx neg w ld z : Bool), cellExec s cell = true →
      let d (l : Lane) : Int := q23 l.x[x]
      let k (l : Lane) : Int := q23 (if cx then l.x[c] else l.c[c])
      let scale : Int := (2 ^ sh.val : Nat)
      let put (l : Lane) (a : Acc) : Lane := { l with a := l.a.set acc a }
      Completes (.nop cell p) s (fun t => LaneEffect s t cell p (fun _ _ l => l))
      ∧ Completes (.mac cell p acc x c sh cx) s (fun t => LaneEffect s t cell p (fun _ _ l => put l (l.a[acc].add (d l * k l * scale))))
      ∧ Completes (.msu cell p acc x c sh cx) s (fun t => LaneEffect s t cell p (fun _ _ l => put l (l.a[acc].add (-(d l * k l * scale)))))
      ∧ Completes (.mpy cell p acc x c sh cx neg) s (fun t => LaneEffect s t cell p (fun _ _ l =>
          put l ⟨BitVec.ofInt 56 (if neg then -(d l * k l * scale) else d l * k l * scale), 0, false⟩))
      ∧ Completes (.sqa cell p acc x) s (fun t => LaneEffect s t cell p (fun _ _ l => put l (l.a[acc].add (d l * d l))))
      ∧ Completes (.acc cell p acc x w ld z sh) s (fun t => LaneEffect s t cell p (fun _ _ l =>
          let v : Int := if z then 0 else (if w then pairValue l x else d l * 8388608) * scale
          put l (if ld then ⟨BitVec.ofInt 56 v, 0, false⟩ else l.a[acc].add v))))
  ∧ (
    ∀ (a : Acc) (p : Int), -(2 ^ 55) ≤ p → p ≤ 2 ^ 55 →
      let t := a.v.toInt + p
      let up := 2 ^ 55 - 1 < t
      let down := t < -(2 ^ 55)
      ((a.add p).v.toInt - t) % 2 ^ 56 = 0
      ∧ (a.lost = false → up → a.w < 7 → (a.add p).w = a.w + 1)
      ∧ (a.lost = false → down → -8 < a.w → (a.add p).w = a.w - 1)
      ∧ (¬ up → ¬ down → (a.add p).w = a.w ∧ (a.add p).lost = a.lost)
      ∧ (a.lost = false → (up → a.w < 7) → (down → -8 < a.w) → (a.add p).lost = false ∧ (a.add p).sum = a.sum + p)
      ∧ ((up ∧ a.w = 7) ∨ (down ∧ a.w = -8) → (a.add p).lost = true ∧ (a.add p).w = a.w)
      ∧ (a.lost = true → (a.add p).lost = true ∧ (a.add p).w = a.w))

/-- R76, Tables 3.10 and 3.11: MAX, MIN, CMP, SEL, SHUF, BCAST and MOV read the registers as they stood and write one register or
flag of each lane the predicate lets through. -/
def Obligations.SelectionCommands : Prop :=
  ∀ (s : State) (cell : Fin 128) (p : Pred) (d xa xb flag cond : Fin 4) (r src lane pattern : Fin 8), cellExec s cell = true →
    let put (l : Lane) (w : Word) : Lane := { l with x := l.x.set d w }
    Completes (.max cell p d xa xb) s (fun t => LaneEffect s t cell p (fun _ _ l => put l (ofQ23 (max (q23 l.x[xa]) (q23 l.x[xb])))))
    ∧ Completes (.min cell p d xa xb) s (fun t => LaneEffect s t cell p (fun _ _ l => put l (ofQ23 (min (q23 l.x[xa]) (q23 l.x[xb])))))
    ∧ Completes (.cmp cell p xa xb flag cond) s (fun t => LaneEffect s t cell p (fun _ _ l =>
        { l with f := l.f.set flag (match cond with
          | 0 => decide (q23 l.x[xa] < q23 l.x[xb])
          | 1 => decide (q23 l.x[xa] ≤ q23 l.x[xb])
          | 2 => decide (q23 l.x[xa] = q23 l.x[xb])
          | 3 => decide (q23 l.x[xa] ≠ q23 l.x[xb])) }))
    ∧ Completes (.sel cell p d xa xb flag) s (fun t => LaneEffect s t cell p (fun _ _ l => put l (if l.f[flag] then l.x[xa] else l.x[xb])))
    ∧ Completes (.shuf cell p d xa pattern) s (fun t => LaneEffect s t cell p (fun v i l => put l (v[shufLane pattern i l].x[xa])))
    ∧ Completes (.bcast cell p d xa lane) s (fun t => LaneEffect s t cell p (fun v _ l => put l (v[lane].x[xa])))
    ∧ Completes (.mov cell p r src) s (fun t => LaneEffect s t cell p (fun _ _ l => setReg l r (regOf l src)))

/-- R63, R64, R66, R76: EXT and EXW write the extracted value, ABS and SHF the saturated one, each recording in the status word and
for R84 what Table 3.2 and Table 3.10 name. R63, R64, R66, Table 3.2: what an extraction gives and records, by the state of the
accumulator. -/
def Obligations.RecordingCommands : Prop :=
  (
    ∀ (s : State) (cell : Fin 128) (p : Pred) (acc : Fin 8) (d xa sc : Fin 4) (shift : Fin 16) (pair : Fin 2) (amount : BitVec 5),
      cellExec s cell = true →
      let put (l : Lane) (w : Word) : Lane := { l with x := l.x.set d w }
      let bounded (v : Int) : Word × Seen :=
        if v < -8388608 then (ofQ23 (-8388608), .sat) else if 8388607 < v then (ofQ23 8388607, .sat) else (ofQ23 v, .none)
      Completes (.ext cell p acc d shift) s (fun t => LaneRecord s t cell p acc (fun l =>
          (put l (ofQ23 (l.a[acc].ext shift.val).1), (l.a[acc].ext shift.val).2)))
      ∧ Completes (.exw cell p acc pair sc) s (fun t => LaneRecord s t cell p acc (fun l =>
          let n := wrapTo 48 (l.a[acc].exw sc.val).1
          let x := l.x.set (2 * pair.val) (BitVec.ofNat 32 (n % 16777216))
          ({ l with x := x.set (2 * pair.val + 1) (ofQ23 (signed 24 (n / 16777216))) }, (l.a[acc].exw sc.val).2)))
      ∧ Completes (.abs cell p d xa) s (fun t => LaneRecord s t cell p 0 (fun l =>
          let v : Int := (q23 l.x[xa]).natAbs
          (put l (bounded v).1, (bounded v).2)))
      ∧ Completes (.shf cell p d xa amount) s (fun t => LaneRecord s t cell p 0 (fun l =>
          if 0 ≤ amount.toInt then
            let v := q23 l.x[xa] * (2 ^ amount.toInt.toNat : Nat)
            (put l (bounded v).1, (bounded v).2)
          else (put l (ofQ23 (roundShift (q23 l.x[xa]) (-amount.toInt).toNat)), .none))))
  ∧ (
    ∀ (a : Acc) (field sc : Nat), field ≤ 15 → sc ≤ 3 →
      (a.lost = true → (a.ext field).2 = .lost ∧ (a.exw sc).2 = .lost
        ∧ (a.ext field).1 = (if a.w < 0 then -8388608 else 8388607)
        ∧ (a.exw sc).1 = (if a.w < 0 then -(2 ^ 47) else 2 ^ 47 - 1))
      ∧ (a.lost = false → a.w ≠ 0 → (a.ext field).2 = .wrap ∧ (a.exw sc).2 = .wrap
        ∧ (a.ext field).1 = (if a.w < 0 then -8388608 else 8388607)
        ∧ (a.exw sc).1 = (if a.w < 0 then -(2 ^ 47) else 2 ^ 47 - 1))
      ∧ (a.lost = false → a.w = 0 →
        let q := (a.v.toInt + 2 ^ (31 - field)).fdiv (2 ^ (32 - field))
        let e := if sc = 0 then a.v.toInt else (a.v.toInt + 2 ^ (sc - 1)).fdiv (2 ^ sc)
        (a.ext field).1 = max (-8388608) (min 8388607 q) ∧ ((a.ext field).2 = .sat ↔ q < -8388608 ∨ 8388607 < q)
        ∧ (a.ext field).2 ≠ .wrap ∧ (a.ext field).2 ≠ .lost
        ∧ (a.exw sc).1 = max (-(2 ^ 47)) (min (2 ^ 47 - 1) e) ∧ ((a.exw sc).2 = .sat ↔ e < -(2 ^ 47) ∨ 2 ^ 47 - 1 < e)
        ∧ (a.exw sc).2 ≠ .wrap ∧ (a.exw sc).2 ≠ .lost))

/-- R83: while bits 31 to 29 of the status word are all 0, the lowest lane that records fixes FIRST_ADDR, FIRST_LANE, FIRST_ACC and
FIRST_KIND; once one of them is 1 no recording changes a FIRST field. Stated of EXT, whose recordings name an accumulator. -/
def Obligations.FirstOccurrence : Prop :=
  ∀ (s : State) (cell : Fin 128) (p : Pred) (acc : Fin 8) (d : Fin 4) (shift : Fin 16), cellExec s cell = true →
    let key := Obj.clus.cellStatus (cell / 8) (cell % 8)
    let seen (i : Fin 8) : Seen := recordedIn (cellOf s cell) p (fun l => (l, (l.a[acc].ext shift.val).2)) i
    Completes (.ext cell p acc d shift) s (fun t =>
      (natO s key / 2 ^ 29 % 8 = 0 → (cellOf s cell).nextPc < 4096 → ∀ i : Fin 8, seen i ≠ .none → (∀ j, j < i → seen j = .none) →
        natO t key % 2 ^ 29 = (cellOf s cell).nextPc * 65536 + i.val * 8192 + acc.val * 1024 + (seen i).kind * 256)
      ∧ (natO s key / 2 ^ 29 % 8 ≠ 0 → natO t key % 2 ^ 29 = natO s key % 2 ^ 29)
      ∧ (natO s key / 2 ^ 29 % 8 ≠ 0 → (natO t key).testBit 31 = ((natO s key).testBit 31 || (List.finRange 8).any (fun i => seen i == .lost))
        ∧ (natO t key).testBit 30 = ((natO s key).testBit 30 || (List.finRange 8).any (fun i => seen i == .wrap))
        ∧ (natO t key).testBit 29 = ((natO s key).testBit 29 || (List.finRange 8).any (fun i => seen i == .sat))))

/-- R79, R80, R81: LOG2 and EXP2 write the level of a register; ZXG steps the current gain of its pair at a crossing when bits 23
to 0 of the pair differ, sets its flag to whether it stepped, and loads sample × current gain × 2^SH. LOG2 takes |x| to a level
from −2^23 to 0, EXP2 a level to 0 up to 2^23 − 1; LOG2 of 0, of −2^23, of 600000h and of 400000h give the values of R79 and its
example. -/
def Obligations.LevelCommands : Prop :=
  (
    ∀ (s : State) (cell : Fin 128) (p : Pred) (acc : Fin 8) (d xa x xp sh : Fin 4) (k fsel : Bool), cellExec s cell = true →
      Completes (.log2 cell p d xa) s (fun t => LaneEffect s t cell p (fun _ _ l =>
          { l with x := l.x.set d (ofQ23 (log2Level (q23 l.x[xa]))) }))
      ∧ Completes (.exp2 cell p d xa) s (fun t => LaneEffect s t cell p (fun _ _ l =>
          { l with x := l.x.set d (ofQ23 (exp2Level (q23 l.x[xa]))) }))
      ∧ Completes (.zxg cell p acc x xp k sh fsel) s (fun t => LaneEffect s t cell p (fun _ _ l =>
          let cur : Fin 4 := if k then 2 else 0
          let tgt : Fin 4 := if k then 3 else 1
          let flag : Fin 4 := if fsel then 3 else 2
          let sample := q23 l.x[x]
          let crosses := sample = 0 ∨ (sample < 0 ↔ ¬ q23 l.x[xp] < 0)
          let steps : Bool := decide (crosses ∧ q23 l.c[cur] ≠ q23 l.c[tgt])
          let cs := if steps then l.c.set cur l.c[tgt] else l.c
          { l with
            c := cs
            f := l.f.set flag steps
            a := l.a.set acc ⟨BitVec.ofInt 56 (sample * q23 cs[cur] * (2 ^ sh.val : Nat)), 0, false⟩ })))
  ∧ (
    log2Level 0 = -8388608 ∧ log2Level (-8388608) = 0 ∧ log2Level 6291456 = -108800 ∧ log2Level 4194304 = -262144
      ∧ (∀ x : Int, -8388608 ≤ x → x ≤ 8388607 → -8388608 ≤ log2Level x ∧ log2Level x ≤ 0)
      ∧ (∀ u : Int, -8388608 ≤ u → u ≤ 8388607 → 0 ≤ exp2Level u ∧ exp2Level u ≤ 8388607)
      ∧ (∀ x : Int, log2Level (-x) = log2Level x))

/-- R68, R72, R75, R77: LDV loads word i of the vector into the register of lane i and LDB the addressed word into every lane; each
leaves the address registers as Table 3.5 and R72 say. A register slot B has already loaded keeps slot B's value. The order in
which the operations of one instruction come is that of log entry 11. R67, R394: a load that finds an error of one bit does the same
once 224 has been raised and counted; one that finds an error of two bits raises 225 with its cluster's code and has the cluster
reset, and the first word it reads is any value (log entry 50). -/
def Obligations.LoadCommands : Prop :=
  ∀ (s : State) (cell : Fin 128) (slot : SlotId) (ap : Fin 8) (am : Fin 4) (reg : Fin 8), cellExec s cell = true →
    let c := cellOf s cell
    (slot = .b ∨ c.latch.loadB ≠ some reg) →
    Completes (.ldv cell slot ap am ⟨reg, .clean⟩) s (fun t => ∃ d, CellBecomes s t cell d
      ∧ Loaded c d reg (fun i => memGet c (slotAt c slot ap am 8 / 8 * 8 + i.val)) ∧ d.addrs = slotLeaves c slot ap am 8)
    ∧ Completes (.ldb cell slot ap am ⟨reg, .clean⟩) s (fun t => ∃ d, CellBecomes s t cell d
      ∧ Loaded c d reg (fun _ => memGet c (slotAt c slot ap am 1)) ∧ d.addrs = slotLeaves c slot ap am 1)
    ∧ (∀ i ∈ [fun e => Instr.ldv cell slot ap am ⟨reg, e⟩, fun e => .ldb cell slot ap am ⟨reg, e⟩],
      let fixed := eccFixed s (cell / 8)
      let struck (v : Word) : State :=
        eccStrike (setCell { s with fresh := s.fresh + 1 } cell
          (memPut c (if i .clean = .ldv cell slot ap am ⟨reg, .clean⟩ then slotAt c slot ap am 8 / 8 * 8 else slotAt c slot ap am 1) v))
          (cell / 8) false
      (∃ t, exec (i .corrected) s = .next t ∧ exec (i .clean) fixed = .next t) ∧ Raises s fixed 224 noDetail
      ∧ (∃ v t, exec (i .double) s = .next t ∧ exec (i .clean) (struck v) = .next t ∧ Raises s (struck v) 225 (cell / 8)
        ∧ (4 ≤ s.rst.released → (s.frame + 1, cell.val / 8, 0) ∈ t.rst.starting)))

/-- R68, R75, R77, R78: STV writes the register of lane i, as it stood before the instruction, to word i of the vector, with PM
only in lanes whose selected flag is 1; STL writes that of one lane to the addressed word; no other word of the cell differs. The
order in which the operations of one instruction come is that of log entry 11. -/
def Obligations.StoreCommands : Prop :=
  ∀ (s : State) (cell : Fin 128) (slot : SlotId) (ap : Fin 8) (am : Fin 4) (reg lane : Fin 8) (pm : Bool) (p : Pred), cellExec s cell = true →
    let c := cellOf s cell
    let old (i : Fin 8) : Lane := c.latch.lanes[i]
    Completes (.stv cell slot ap am reg pm p) s (fun t => ∃ d, CellBecomes s t cell d
      ∧ d = { c with mem := d.mem, addrs := slotLeaves c slot ap am 8, latch := d.latch }
      ∧ (∀ i : Fin 8, memGet d (slotAt c slot ap am 8 / 8 * 8 + i.val)
          = if pm = true ∧ (old i).f[p.psel] = p.pinv then memGet c (slotAt c slot ap am 8 / 8 * 8 + i.val) else regOf (old i) reg)
      ∧ (∀ a, a < 32768 → (∀ i : Fin 8, a ≠ slotAt c slot ap am 8 / 8 * 8 + i.val) → memGet d a = memGet c a))
    ∧ Completes (.stl cell slot ap am reg lane) s (fun t => ∃ d, CellBecomes s t cell d
      ∧ d = { c with mem := d.mem, addrs := slotLeaves c slot ap am 1, latch := d.latch }
      ∧ memGet d (slotAt c slot ap am 1) = regOf (old lane) reg
      ∧ (∀ a, a < 32768 → a ≠ slotAt c slot ap am 1 → memGet d a = memGet c a))

/-- R70, R71, Table 3.5: the address a slot uses and how P is stepped. R72, R75: LDP writes its address register from the addressed
word after the slot has stepped: bits 14 to 0 for P, all 32 for M, bits 15 to 0 for N; an LDP of slot A is written over what slot B
steps, and slot B's own LDP over both. The order of the slots is that of log entry 11. Errors of memory are met as by the other
loads (R67, R394). -/
def Obligations.AddressRegisters : Prop :=
  (
    (∀ (a : Addrs) (ap : Fin 8) (unit : Int),
      let p := a.p[ap]
      slotAddress a ap 0 unit = (p.toNat, a)
      ∧ slotAddress a ap 1 unit = (p.toNat, { a with p := a.p.set ap (stepP p a.m[ap] a.n[ap].toInt) })
      ∧ slotAddress a ap 2 unit = ((((p.toNat : Int) + a.n[ap].toInt) % 32768).toNat, a)
      ∧ slotAddress a ap 3 unit = (p.toNat, { a with p := a.p.set ap (stepP p a.m[ap] unit) }))
    ∧ (∀ (p : BitVec 15) (m : Word) (n : Int),
      let mode : Nat := m.toNat / 2 ^ 30
      let base : Nat := m.toNat / 2 ^ 15 % 2 ^ 15
      let len : Nat := m.toNat % 2 ^ 15
      let o : Int := ((p.toNat : Int) - base) % 32768
      (mode = 0 ∨ mode = 3 ∨ (mode = 1 ∧ len = 0) → ((stepP p m n).toNat : Int) = ((p.toNat : Int) + n) % 32768)
      ∧ (mode = 1 → len ≠ 0 → ((stepP p m n).toNat : Int) = ((base : Int) + (o + n) % (len : Int)) % 32768)
      ∧ (mode = 2 → ∀ b : Nat, 2 ^ b ≤ max len 1 → max len 1 < 2 ^ (b + 1) →
        ((stepP p m n).toNat : Int) = ((base : Int) + (bitRev b (((bitRev b (o % (2 : Int) ^ b).toNat : Nat) + n) % (2 : Int) ^ b).toNat : Nat)) % 32768)))
  ∧ (
    ∀ (s : State) (cell : Fin 128) (slot : SlotId) (ap idx : Fin 8) (am : Fin 4) (kind : LdpKind), cellExec s cell = true →
      let c := cellOf s cell
      let w := memGet c (slotAt c slot ap am 1)
      let a := slotLeaves c slot ap am 1
      Completes (.ldp cell slot ap am kind ⟨idx, .clean⟩) s (fun t => ∃ d, CellBecomes s t cell d
        ∧ d = { c with addrs := d.addrs, latch := d.latch }
        ∧ d.addrs = (match kind with
          | .p => { a with p := a.p.set idx (w.truncate 15) }
          | .m => { a with m := a.m.set idx w }
          | .n => { a with n := a.n.set idx (w.truncate 16) })
        ∧ (slot = .a → d.latch.ldpA = some (kind, idx, w)))
      ∧ (∃ t, exec (.ldp cell slot ap am kind ⟨idx, .corrected⟩) s = .next t
        ∧ exec (.ldp cell slot ap am kind ⟨idx, .clean⟩) (eccFixed s (cell / 8)) = .next t)
      ∧ (∃ v t, exec (.ldp cell slot ap am kind ⟨idx, .double⟩) s = .next t
        ∧ exec (.ldp cell slot ap am kind ⟨idx, .clean⟩)
          (eccStrike (setCell { s with fresh := s.fresh + 1 } cell (memPut c (slotAt c slot ap am 1) v)) (cell / 8) false) = .next t))

/-- R73, R74, R58, R87: DO opens a loop at the next instruction, END runs the innermost loop again or closes it and treats the next
one named alike, FRAME_END, where no traffic from outside waits for it (R69), stops the schedule with no loop open, and a YIELD slot beyond the exchange list moves nothing. R87: the
nth YIELD slot of a frame carries the nth exchange entry; one whose peer is the cluster memory moves its 8-word vector between the
cell and the cluster memory, and no other word of either. R69, R73, R86, R109, R357: in a cluster that is under reset or out of ON,
and at a cell whose schedule has ended or has not begun, no command of a cell changes anything. -/
def Obligations.ControlCommands : Prop :=
  (
    ∀ (s : State) (cell : Fin 128) (slot : SlotId) (arg : Fin 1024) (count : Fin 4), cellExec s cell = true →
      let c := cellOf s cell
      (c.loops.length < 3 → Completes (.doLoop cell arg) s (fun t => CellBecomes s t cell { c with loops := ⟨c.nextPc, arg⟩ :: c.loops }))
      ∧ (∀ l r, c.loops = l :: r → 0 < l.left → 0 < count.val →
          Completes (.endLoop cell count) s (fun t =>
            CellBecomes s t cell { c with nextPc := l.start, loops := { l with left := l.left - 1 } :: r }))
      ∧ (∀ l, c.loops = [l] → l.left = 0 → 0 < count.val →
          Completes (.endLoop cell count) s (fun t => CellBecomes s t cell { c with loops := [] }))
      ∧ (∀ l m r, c.loops = l :: m :: r → l.left = 0 → 0 < m.left → count.val = 2 →
          Completes (.endLoop cell count) s (fun t =>
            CellBecomes s t cell { c with nextPc := m.start, loops := { m with left := m.left - 1 } :: r }))
      ∧ ((exchangeOf s cell).length ≤ c.yields →
          Completes (.yieldSlot cell slot) s (fun t => CellBecomes s t cell { c with yields := c.yields + 1 }))
      ∧ ((∀ e ∈ s.bus.late, e.1 ≠ cell.val ∧ cellBusy s e.1 = true) → Completes (.frameEnd cell) s (fun t => (cellOf t cell).active = false ∧ (cellOf t cell).nextPc = 0 ∧ (cellOf t cell).loops = []
          ∧ (cellOf t cell).lanes = c.lanes ∧ (cellOf t cell).addrs = c.addrs ∧ (cellOf t cell).mem = c.mem
          ∧ t = { s with cells := t.cells, eddy := t.eddy, obj := t.obj, ev := t.ev })))
  ∧ (
    ∀ (s : State) (cell : Fin 128) (slot : SlotId) (x : XEntry), cellExec s cell = true →
      (exchangeOf s cell)[(cellOf s cell).yields]? = some x → x.peer = 8 →
      let near (i : Fin 8) : Nat := x.localWord / 8 * 8 + i.val
      let far (i : Fin 8) : Nat := x.peerWord / 8 * 8 + i.val
      (x.direction = 0 → x.peerWord < 262144 → Completes (.yieldSlot cell slot) s (fun t =>
        (∀ i, clusterGet t (cell / 8) (far i) = memGet (cellOf s cell) (near i))
        ∧ (∀ k a, a < 262144 → (k ≠ cell.val / 8 ∨ ∀ i, a ≠ far i) → clusterGet t k a = clusterGet s k a)
        ∧ cellOf t cell = { cellOf s cell with yields := (cellOf s cell).yields + 1 }
        ∧ (∀ m, m ≠ cell.val → cellOf t m = cellOf s m)
        ∧ t = { s with cells := t.cells, bus := { s.bus with cluster := t.bus.cluster } }))
      ∧ (x.direction ≠ 0 → x.localWord < 32768 → Completes (.yieldSlot cell slot) s (fun t =>
        (∀ i, memGet (cellOf t cell) (near i) = clusterGet s (cell / 8) (far i))
        ∧ (∀ a, a < 32768 → (∀ i, a ≠ near i) → memGet (cellOf t cell) a = memGet (cellOf s cell) a)
        ∧ cellOf t cell = { cellOf s cell with mem := (cellOf t cell).mem, yields := (cellOf s cell).yields + 1 }
        ∧ (∀ m, m ≠ cell.val → cellOf t m = cellOf s m)
        ∧ t = { s with cells := t.cells })))
  ∧ (
    ∀ (s : State) (i : Instr) (n : Nat), cellCommand i = some n → cellExec s n = false → exec i s = .next s)

/-- Tables 3.6 to 3.10: every command of a cell whose operands R82 admits is spelled by its word, and the word spells that command:
a compute operation alone, a slot or control operation after a NOP. Tables 3.6 to 3.10: a word spells commands exactly when no
check of R82 on a single word refuses it. -/
def Obligations.CellWordsRoundTrip : Prop :=
  (
    ∀ (i : Instr) (n : Fin 128) (w : Nat), cellCommand i = some n.val → i.wellFormed = true → encodeWord i = some w →
      w < 2 ^ 64 ∧ (wordCommands n (BitVec.ofNat 64 w) = some [spelled i]
        ∨ ∃ p, wordCommands n (BitVec.ofNat 64 w) = some [.nop n p, spelled i]))
  ∧ (
    ∀ (n : Fin 128) (w : IWord), (wordCommands n w).isSome = wordOk w)

/-- The cells and their memories keep their canonical form, and instruction addresses their 12 bits, under every command of a cell. -/
def Obligations.CellsStayCanonical : Prop :=
  ∀ (s t : State) (i : Instr) (n : Nat), cellCommand i = some n → cellsSound s → exec i s = .next t → cellsSound t

/-! ## Gultin: messages, sessions, ownership -/

/-- R36, R37, R56, R243, R348: before Rising, while the control complex is in reset, and where it comes to another port or by an
interface that does not serve Gultin, a message has no effect; otherwise one that fails a check of R37 is discarded and counted in
MALFORMED_DROPS, one whose tag is not as AUTH_MODE asks in AUTH_DROPS, and nothing else happens. What happens while the control
complex is in reset is log entry 99. R39, R40, Table 2.13: a sequenced request of a session that is not OPEN or FENCED is answered
NAK NO_SESSION and not consumed: no object differs but, for a session in use, its NAKS, and for a GROUP_COMMIT what event 165 and
REJECTS take (R136); a CLAIM of a unit of a pair is passed on first (R49). -/
def Obligations.MessagesTurnedAway : Prop :=
  (
    ∀ (s : State) (i : Instr) (e : Envelope) (r : Request), gultinOf i = some (e, r) →
      (stageOf s < 2 ∨ inReset s 25 = true ∨ servedAt s e = false → exec i s = .next (driveEvtN s))
      ∧ (2 ≤ stageOf s → inReset s 25 = false → servedAt s e = true → headerBad e r = true →
          exec i s = .next (driveEvtN (bumpO s Obj.own.malformedDrops)))
      ∧ (2 ≤ stageOf s → inReset s 25 = false → servedAt s e = true → headerBad e r = false → tagOk s e r = false →
          exec i s = .next (driveEvtN (bumpO s Obj.own.authDrops))))
  ∧ (
    ∀ (s : State) (i : Instr) (e : Envelope) (r : Request), gultinOf i = some (e, r) → reqSequenced r = true →
      2 ≤ stageOf s → inReset s 25 = false → servedAt s e = true → headerBad e r = false → tagOk s e r = true →
      getO s Obj.own.authMode = 0 → (e.session = 0 ∨ 32 < e.session ∨ (sessState s e.session ≠ 1 ∧ sessState s e.session ≠ 2)) →
      let a := passOn s e r
      Completes i s (fun t =>
        t.out = .gultin e.srcAddr e.srcPort e.session e.sequence 12 0x8000 (natBE 8 2 ++ [0x00, 0x00] ++ natBE 0xFFFFFFFF 8) [] :: a.out
        ∧ t = { a with obj := t.obj, out := t.out, ev := t.ev }
        ∧ (∀ k, (∀ b, r = .groupCommit b → k ≠ Obj.slu.rejects ∧ ∀ x ∈ eventKeys 165, k ≠ x) → k ≠ Obj.sess.naks (e.session - 1) →
            getO t k = getO s k)
        ∧ (∀ b, r = .groupCommit b → Raises s t 165 b.tag)
        ∧ ((∀ b, r ≠ .groupCommit b) → t.ev = { s.ev with evtN := t.ev.evtN })))

/-- R41, R426, R427, Table 2.12: a HELLO of a new station opens the lowest FREE session with NEXT_SEQ 1, one of a station that names
its own session takes that up again, FENCED or OPEN as it was, and the ACK names session, unit, stage, NEXT_SEQ, owner, epoch and
frame; fields out of range are answered NAK RANGE. A HEARTBEAT of the owner is acknowledged with FRAME_NO and OWNER_EPOCH, that of
another OPEN session answered NOT_OWNER, and changes nothing but the address of the session; in a pair it has been passed on (R49). -/
def Obligations.HelloAndHeartbeat : Prop :=
  (∀ (s : State) (e : Envelope) (b : HelloBody), 2 ≤ stageOf s → inReset s 25 = false → servedAt s e = true →
    headerBad e (.hello b) = false → tagOk s e (.hello b) = true →
    let welcome (t : State) (n next : Nat) : Prop :=
      natO t (Obj.sess.peerAddress (n - 1)) = e.srcAddr ∧ natO t (Obj.sess.peerPort (n - 1)) = e.srcPort
      ∧ Acked t { e with session := n } (natBE n 2 ++ natBE (if s.pins.unitB then 1 else 0) 1 ++ natBE (stageOf s) 1 ++ natBE next 4
          ++ natBE (ownerId s) 8 ++ natBE (natO s Obj.own.ownerEpoch) 4 ++ natBE s.frame 8)
      ∧ (∀ k, (∀ b, k ≠ okey 0x1110 (n - 1) b) → getO t k = getO s k)
      ∧ (∀ m, m ≠ n → session t m = session s m)
      ∧ (s.rst.pairEnable = false → SessionOnly s t)
    (∀ n, helloBad b = false → (b.resume = 0 ∨ sessState s b.resume = 0) →
      sessionNumbers.find? (fun m => sessState s m == 0) = some n →
      Completes (.hello e b) s (fun t =>
        sessState t n = 1 ∧ natO t (Obj.sess.station (n - 1)) = b.station ∧ natO t (Obj.sess.nextSeq (n - 1)) = 1
        ∧ natO t (Obj.sess.fencedAt (n - 1)) = 0 ∧ natO t (Obj.sess.naks (n - 1)) = 0 ∧ welcome t n 1))
    ∧ (helloBad b = false → b.resume ≠ 0 → sessState s b.resume ≠ 0 → natO s (Obj.sess.station (b.resume - 1)) = b.station →
      Completes (.hello e b) s (fun t =>
        sessState t b.resume = (if sessState s b.resume = 3 then (if getO s (Obj.sess.fencedAt (b.resume - 1)) = 0 then 1 else 2)
          else sessState s b.resume)
        ∧ natO t (Obj.sess.nextSeq (b.resume - 1)) = natO s (Obj.sess.nextSeq (b.resume - 1))
        ∧ welcome t b.resume (natO s (Obj.sess.nextSeq (b.resume - 1)))))
    ∧ (helloBad b = true → getO s Obj.own.authMode = 0 → Completes (.hello e b) s (fun t =>
        t.out = .gultin e.srcAddr e.srcPort e.session e.sequence 12 0x8000 (natBE 7 2 ++ [0x00, 0x00] ++ natBE 0 8) [] :: s.out
        ∧ SessionOnly s t ∧ ObjectsKept s t [])))
  ∧ (∀ (s : State) (e : Envelope) (epoch : Nat), 2 ≤ stageOf s → inReset s 25 = false → servedAt s e = true →
    headerBad e (.heartbeat epoch) = false → tagOk s e (.heartbeat epoch) = true → cutOff s = false → 1 ≤ e.session → e.session ≤ 32 →
    sessState s e.session = 1 →
    let a := passOn s e (.heartbeat epoch)
    (ownerState s = 2 → natO s Obj.own.ownerSession = e.session → Completes (.heartbeat e epoch) s (fun t =>
      Acked t e (natBE s.frame 8 ++ natBE (natO s Obj.own.ownerEpoch) 4)
      ∧ ObjectsKept s t [Obj.sess.peerAddress (e.session - 1), Obj.sess.peerPort (e.session - 1)]
      ∧ SessionOnly a t))
    ∧ (ownerState s = 2 → natO s Obj.own.ownerSession ≠ e.session → Completes (.heartbeat e epoch) s (fun t =>
      (∃ flags tag, .gultin e.srcAddr e.srcPort e.session e.sequence 12 flags (natBE 2 2 ++ [0x00, 0x00] ++ natBE (ownerId s) 8) tag ∈ t.out)
      ∧ ObjectsKept s t [Obj.sess.peerAddress (e.session - 1), Obj.sess.peerPort (e.session - 1), Obj.sess.naks (e.session - 1)]
      ∧ SessionOnly a t)))

/-- R42, R50, R39: where no standby has to confirm it, an acknowledgement records the result, consumes the number so that NEXT_SEQ
is the next one, sends the ACK, and changes nothing else. -/
def Obligations.Acknowledgement : Prop :=
  ∀ (s : State) (e : Envelope) (r : Request) (info : Nat) (journaled : Bool), confirms s = false → forwarded e = false →
    1 ≤ e.session → e.session ≤ 32 → sessState s e.session ≠ 0 → natO s (Obj.sess.nextSeq (e.session - 1)) = e.sequence →
    (session s e.session).results.any (fun x => decide (e.sequence ≤ x.sequence)) = false →
    let t := acknowledge s e r info journaled
    natO t (Obj.sess.nextSeq (e.session - 1)) = e.sequence + 1
    ∧ (session t e.session).results.head? = some ⟨e.sequence, true, 0, info, reqCode r⟩
    ∧ Acked t e (ackPayload s (reqCode r) info)
    ∧ ObjectsKept s t [Obj.sess.nextSeq (e.session - 1)]
    ∧ (∀ m, m ≠ e.session → session t m = session s m)
    ∧ SessionOnly s t ∧ t.ev = s.ev

/-- R46, R47, R48, Table 2.15: a session that takes ownership is recorded with its station, priority and preemptibility,
OWNER_EPOCH rises by one, event 231 is raised, and an open injection window closes (R367). R46, R47: a CLAIM with no owner opens an
election and waits in it; the owner's own CLAIM takes effect on PRIORITY and PREEMPTIBLE and is acknowledged; a CLAIM of higher
priority takes a preemptible ownership at once; YIELD hands over to the OPEN session of the station it names, with priority 0. R47: a
CLAIM with WITHDRAW of the owner ends its standing claim and is acknowledged. Of CLAIM a lone engine is meant. -/
def Obligations.Ownership : Prop :=
  (
    ∀ (s : State) (n prio : Nat) (pre : Bool), ownerSession s = none → natO s Obj.own.ownerEpoch + 1 < 4294967296 → NotYetRaised s 231 →
      let t := takeOwner s n prio pre
      ownerSession t = some n ∧ natO t Obj.own.ownerPriority = prio ∧ getO t Obj.own.preemptible = boolNum pre
      ∧ getO t Obj.own.ownerStation = getO s (Obj.sess.station (n - 1))
      ∧ natO t Obj.own.ownerEpoch = natO s Obj.own.ownerEpoch + 1 ∧ EventRaised t 231 ∧ getO t Obj.inj.window = 0
      ∧ t = { s with obj := t.obj, ev := t.ev })
  ∧ (
    (∀ (s : State) (e : Envelope) (b : ClaimBody), InOrder s e (.claim b) → s.rst.pairEnable = false → claimBad b = false → b.bits.getLsbD 2 = false →
      b.bits.getLsbD 1 = false →
      let a := touch s e.session e
      (ownerState s = 0 → Completes (.claim e b) s (fun t =>
        ownerState t = 1 ∧ t.ctl.candidates = [⟨e.session, b.priority, b.bits.getLsbD 0, some ⟨e, .claim b⟩⟩] ∧ t.out = s.out
        ∧ ObjectsKept s t [Obj.sess.peerAddress (e.session - 1), Obj.sess.peerPort (e.session - 1), Obj.own.ownerState,
            Obj.own.ownerStation, Obj.own.ownerSession, Obj.own.ownerPriority]
        ∧ SessionOnly s { t with ctl := { t.ctl with candidates := s.ctl.candidates } }))
      ∧ (ownerState s = 2 → natO s Obj.own.ownerSession = e.session → exec (.claim e b) s
          = .next (driveEvtN (acknowledge (setMany a [(Obj.own.ownerPriority, b.priority), (Obj.own.preemptible, boolNum (b.bits.getLsbD 0))])
              e (.claim b) 0 false)))
      ∧ (ownerState s = 2 → natO s Obj.own.ownerSession ≠ e.session → getO s Obj.own.preemptible = 1 →
          natO s Obj.own.ownerPriority < b.priority →
          exec (.claim e b) s = .next (driveEvtN (acknowledge (takeOwner a e.session b.priority (b.bits.getLsbD 0)) e (.claim b) 0 false))))
    ∧ (∀ (s : State) (e : Envelope) (b : ClaimBody), InOrder s e (.claim b) → s.rst.pairEnable = false → claimBad b = false →
      b.bits.getLsbD 2 = true → ownerState s = 2 → natO s Obj.own.ownerSession = e.session →
      let a := touch s e.session e
      exec (.claim e b) s = .next (driveEvtN (acknowledge (setSession a e.session { session a e.session with standing := none }) e
        (.claim b) 0 false)))
    ∧ (∀ (s : State) (e : Envelope) (station m : Nat), InOrder s e (.yield station) →
      let a := touch s e.session e
      ownerState s = 2 → natO s Obj.own.ownerSession = e.session → journalFits a (.yield station) = true →
      successor a e.session station = some m →
      Completes (.yield e station) s (fun t => RequestDone s t e (.yield station) (takeOwner (atRequest s e (.yield station)) m 0 false))))

/-- R43, R44, Table 2.12: a READ that its checks accept is acknowledged with the value and recorded, and leaves every object but
the session's address, NEXT_SEQ and BULK_FRAME; a SUBSCRIBE of a session without subscriptions to a range of events, at a lone
engine, adds the subscription with number 1 and answers that number. -/
def Obligations.ReadAndSubscribe : Prop :=
  (∀ (s : State) (e : Envelope) (b : ReadBody) (v : List Byte), InOrder s e (.read b) → readCheck (touch s e.session e) b = .inr v →
    Completes (.read e b) s (fun t =>
      Acked t e (natBE b.index 2 ++ natBE b.element 2 ++ natBE b.sub 1 ++ natBE b.typ 1 ++ natBE b.offset 4
        ++ natBE ((v.drop b.offset).take (if b.maxLen = 0 then 1416 else min b.maxLen 1416)).length 2 ++ natBE s.frame 8
        ++ natBE v.length 4 ++ (v.drop b.offset).take (if b.maxLen = 0 then 1416 else min b.maxLen 1416))
      ∧ natO t (Obj.sess.nextSeq (e.session - 1)) = e.sequence + 1
      ∧ ObjectsKept s t [Obj.sess.peerAddress (e.session - 1), Obj.sess.peerPort (e.session - 1), Obj.sess.nextSeq (e.session - 1),
          Obj.meter.bulkFrame]
      ∧ SessionOnly s { t with fresh := s.fresh }))
  ∧ (∀ (s : State) (e : Envelope) (first last mode period : Nat), InOrder s e (.subscribe ⟨1, mode, period, first, last, 0, 0⟩) →
    s.rst.pairEnable = false →
    first ≤ last → last ≤ 255 → (mode = 0 ∧ period = 0 ∨ mode = 1 ∧ 1 ≤ period ∧ period ≤ 60000) →
    (session s e.session).subs = [] →
    Completes (.subscribe e ⟨1, mode, period, first, last, 0, 0⟩) s (fun t =>
      (session t e.session).subs = [⟨1, 1, mode, period, okey first last 0, first, last, []⟩]
      ∧ Acked t e (natBE 1 2) ∧ natO t (Obj.sess.nextSeq (e.session - 1)) = e.sequence + 1
      ∧ ObjectsKept s t [Obj.sess.peerAddress (e.session - 1), Obj.sess.peerPort (e.session - 1), Obj.sess.nextSeq (e.session - 1)]
      ∧ SessionOnly s t))

/-- R31, R20, R38, R50, R130, Table 2.13: a WRITE that its checks accept, by the class of its object. A number or the last segment of
a BLOB takes effect in the running frame where the object is CONTROL; where it is DIRECT it waits for the next frame with its entry
in the journal; where it is SLUICE it enters the shadow set of the session's open group, or becomes a group of its own with the
frame its test gives. A segment of a BLOB that is not the last is kept with the bytes before it, and changes no object. The frame of
a DIRECT write is that of log entry 69. -/
def Obligations.WritesByClass : Prop :=
  ∀ (s : State) (e : Envelope) (i sub : Nat) (w : WriteBody) (d : Decl), InOrder s e (.write i sub w) → w.element < 65536 → sub < 256 →
    nameUnit s e (.write i sub w) = .write i sub w →
    let a := touch s e.session e
    WriteMeets a e.session i sub w d →
    let k := okey i w.element sub
    let r : Request := .write i sub w
    let bare (j : State) : State := if d.typ.size = 0 then dropSeries j k else j
    let value (v : Val) : Prop :=
      (d.typ.size ≠ 0 ∧ ∃ x, v = .num x ∧ decodeNum d.typ w.value = some x ∧ numOk a d k x = true)
        ∨ (d.typ.size = 0 ∧ e.flags.getLsbD 1 = true ∧ ∃ b, v = .bytes b ∧ continued a k w = some b
          ∧ segmentRefused a k b.length = false ∧ blobOk k b = true)
    (∀ v, value v → d.effect = .control →
      Completes (.write e i sub w) s (fun t => RequestDone s t e r (applyChange (bare (atRequest s e r)) s.frame ⟨k, v⟩ false)))
    ∧ (∀ v, value v → d.effect = .direct →
      let j := bare (inJournal s e r (s.frame + 1))
      exec (.write e i sub w) s = .next (driveEvtN (acknowledge { j with slu := { j.slu with
        direct := j.slu.direct ++ [⟨s.slu.nextId, s.frame + 1, e.session, e.sequence, ⟨k, v⟩⟩], nextId := s.slu.nextId + 1 } }
        e r (s.frame + 1) true)))
    ∧ (∀ v, value v → d.effect = .sluice → s.slu.openSession = e.session → shadowCheck a ⟨k, v⟩ = .ok 0 →
      let j := bare (inJournal s e r 0)
      exec (.write e i sub w) s = .next (driveEvtN (acknowledge (retireEntry { j with slu := { j.slu with
        openSet := j.slu.openSet.filter (fun x => x.object != k) ++ [⟨k, v⟩] } } e.session e.sequence) e r 0 true)))
    ∧ (∀ v f, value v → d.effect = .sluice → s.slu.openSession ≠ e.session → singleCheck a ⟨k, v⟩ = .ok f →
      Completes (.write e i sub w) s (fun t => ∃ g b, t = driveEvtN (acknowledge b e r f true)
        ∧ b.slu.waiting = s.slu.waiting ++ [g] ∧ g.id = s.slu.nextId ∧ g.session = e.session ∧ g.seq = e.sequence ∧ g.tag = 0
        ∧ g.single = true ∧ g.target = f ∧ g.asked = f ∧ g.firstFeasible = true ∧ g.sequential = false ∧ g.fedTag = 0
        ∧ g.changes = [⟨k, v⟩] ∧ g.rest = [] ∧ b.slu.openSet = s.slu.openSet ∧ ObjectsKept s b [Obj.sess.peerAddress (e.session - 1),
          Obj.sess.peerPort (e.session - 1), Obj.jrn.highWater]))
    ∧ (∀ b, d.typ.size = 0 → e.flags.getLsbD 1 = false → continued a k w = some b → segmentRefused a k b.length = false →
      let j := dropSeries (inJournal s e r 0) k
      Completes (.write e i sub w) s (fun t =>
        RequestKept t e r 0 (retireEntry { j with ctl := { j.ctl with series := j.ctl.series ++ [⟨e.session, k, b⟩] } } e.session e.sequence)))

/-- R130, R134, Table 6.1: GROUP_BEGIN of the owner, with no group open, its reserved bytes 0 and room in the journal, opens a group of
the session with its tag. R135 to R138, Table 6.3: a GROUP_COMMIT of the open group whose changes pass checks 1 to 9 whole is given
the frame asked for, or the first feasible one where none is asked or FIRST_FEASIBLE allows it, waits with that frame among the
committed groups, and leaves none open; one whose test accepts it in sub-groups or as a member's part of a federated commit goes
likewise. R54, Table 2.12: RESUME of a fenced session, naming its fence, opens the session at its own sequence number; the numbers it
passes over are skipped, and requests that waited below it are dropped. -/
def Obligations.GroupsAndResume : Prop :=
  (∀ (s : State) (e : Envelope) (b : BeginBody), InOrder s e (.groupBegin b) → b.reserved = 0 → isOwner s e.session = true →
    s.slu.openSession = 0 → journalUsed s + entryLength (.groupBegin b) ≤ 65536 →
    let a := atRequest s e (.groupBegin b)
    exec (.groupBegin e b) s = .next (driveEvtN (acknowledge { a with slu := { a.slu with
      openTag := b.tag, openSession := e.session, openSeq := e.sequence, openSet := [] } } e (.groupBegin b) s.frame true)))
  ∧ (∀ (s : State) (e : Envelope) (b : CommitBody), InOrder s e (.groupCommit b) → b.reserved = 0 → b.options &&& 0xFFFC = 0 →
    b.target < 2 ^ 48 → isOwner s e.session = true → s.slu.openSession = e.session → s.slu.openTag = b.tag →
    journalUsed s + entryLength (.groupCommit b) ≤ 65536 →
    let a := touch s e.session e
    let l := s.slu.openSet
    let f := natO s Obj.slu.fedTag
    let j (f : Nat) := inJournal s e (.groupCommit b) f
    let first := if hasCatch l then up16 (s.frame + prepBound a l + 2) else s.frame + prepBound a l + 2
    let frame := if b.target ≠ 0 ∧ first ≤ b.target then b.target else first
    (f = 0 → b.target ≤ s.frame + 21600000 → (hasCatch l = true → b.target % 16 = 0) → spansOk a l = true → weightsBad a l = [] →
      blockedIn a l = none → (pairState s ≠ 2 ∧ pairState s ≠ 6 ∨ swapOf l = none ∧ newLengths a l = []) → (committed s).length < 16 →
      collides a l = false → lack a l [] (frameAsked a l (prepBound a l) b.target) = 0 → lack (j frame) l [] (frameAsked (j frame) l (prepBound (j frame) l) frame) = 0 →
      (b.target = 0 ∨ first ≤ b.target ∨ b.options.getLsbD 0 = true) →
      Completes (.groupCommit e b) s (fun t => ∃ g c, RequestKept t e (.groupCommit b) frame c
        ∧ c.slu.waiting = s.slu.waiting ++ [g] ∧ c.slu.openTag = 0 ∧ c.slu.openSession = 0 ∧ c.slu.openSet = []
        ∧ g.id = s.slu.nextId ∧ g.tag = b.tag ∧ g.session = e.session ∧ g.seq = e.sequence ∧ g.target = frame ∧ g.asked = frame
        ∧ g.firstFeasible = b.options.getLsbD 0 ∧ g.sequential = b.options.getLsbD 1 ∧ g.fedTag = 0 ∧ g.changes = l ∧ g.rest = []
        ∧ ObjectsKept (j frame) c [] ∧ c.out = s.out))
    ∧ (∀ f' p, judge a l b.target (b.options.getLsbD 0) (b.options.getLsbD 1) f = .accept f' f' p →
      Completes (.groupCommit e b) s (fun t => ∃ c, RequestKept t e (.groupCommit b) f' c
        ∧ c.slu.openTag = 0 ∧ c.slu.openSession = 0 ∧ c.slu.openSet = []
        ∧ (f = 0 → ∃ g, c.slu.waiting = s.slu.waiting ++ [g] ∧ g.tag = b.tag ∧ g.session = e.session ∧ g.seq = e.sequence
            ∧ g.target = f' ∧ g.asked = f')
        ∧ (f ≠ 0 → leads s = false → ∃ g, c.slu.heldFed = some g ∧ g.tag = b.tag ∧ g.fedTag = f ∧ g.phase = 3 ∧ c.slu.waiting = s.slu.waiting))))
  ∧ (∀ (s : State) (e : Envelope) (fencedAt : Nat), 2 ≤ stageOf s → inReset s 25 = false → servedAt s e = true →
    headerBad e (.resume fencedAt) = false → tagOk s e (.resume fencedAt) = true → paused s = false →
    decidedByActive s (.resume fencedAt) = false → 1 ≤ e.session → e.session ≤ 32 →
    sessState s e.session = 2 → natO s (Obj.sess.fencedAt (e.session - 1)) = fencedAt →
    let next := natO s (Obj.sess.nextSeq (e.session - 1))
    next ≤ e.sequence → e.sequence ≤ next + 127 → inHand s e = false →
    (∀ h ∈ (session s e.session).held, h.envelope.sequence < e.sequence) →
    (session s e.session).results.any (fun x => decide (e.sequence ≤ x.sequence)) = false →
    (session s e.session).skipped.any (fun k => decide (k.1 ≤ e.sequence) && decide (e.sequence ≤ k.2)) = false →
    journalUsed s + entryLength (.resume fencedAt) ≤ 65536 →
    Completes (.resume e fencedAt) s (fun t => sessState t e.session = 1 ∧ natO t (Obj.sess.fencedAt (e.session - 1)) = 0
      ∧ natO t (Obj.sess.nextSeq (e.session - 1)) = e.sequence + 1 ∧ (session t e.session).held = []
      ∧ (session t e.session).skipped = (session s e.session).skipped ++ (if next < e.sequence then [(next, e.sequence - 1)] else [])
      ∧ (confirms s = false → Acked t e [])
      ∧ ((session s e.session).held = [] → s.rst.pairEnable = false →
        SessionOnly s { t with ctl := { t.ctl with journal := s.ctl.journal } })))

/-! ## Gultin: writes with a row of their own -/

/-- R362, R363, R83: an accepted STICKY write clears STICKY of its event, a COUNT write its COUNT, CLEAR_ALL both of every event,
and a write of a cell status word the bits that are 1 in it, with the FIRST fields when none of the three stays. -/
def Obligations.ClearingWrites : Prop :=
  (∀ (s : State) (e : Envelope) (w : WriteBody) (v : Int), AcceptedWrite s e 0x1300 2 w v →
    Completes (.stickyClear e w) s (fun t => RequestDone s t e (.write 0x1300 2 w)
      (setO (atRequest s e (.write 0x1300 2 w)) (Obj.evt.sticky w.element) 0)))
  ∧ (∀ (s : State) (e : Envelope) (w : WriteBody) (v : Int), AcceptedWrite s e 0x1300 5 w v →
    Completes (.countClear e w) s (fun t => RequestDone s t e (.write 0x1300 5 w)
      (setO (atRequest s e (.write 0x1300 5 w)) (Obj.evt.count w.element) 0)))
  ∧ (∀ (s : State) (e : Envelope) (w : WriteBody), AcceptedWrite s e 0x1300 68 w 1 →
    let a := atRequest s e (.write 0x1300 68 w)
    Completes (.clearAll e w) s (fun t => ∃ b, RequestDone s t e (.write 0x1300 68 w) b ∧ b = { a with obj := b.obj }
      ∧ (∀ n, n < 256 → getO b (Obj.evt.sticky n) = 0 ∧ getO b (Obj.evt.count n) = 0)
      ∧ ∀ k, (∀ n, n < 256 → k ≠ Obj.evt.sticky n ∧ k ≠ Obj.evt.count n) → getO b k = getO a k))
  ∧ (∀ (s : State) (e : Envelope) (sub : Fin 8) (w : WriteBody) (v : Int), AcceptedWrite s e 0x4010 (2 + sub.val) w v →
    let a := atRequest s e (.write 0x4010 (2 + sub.val) w)
    let k := okey 0x4010 w.element (2 + sub.val)
    Completes (.cellStatusClear e sub w) s (fun t => ∃ new : Nat, RequestDone s t e (.write 0x4010 (2 + sub.val) w) (setO a k new)
      ∧ (∀ i, i < 3 → new.testBit (29 + i) = ((natO a k).testBit (29 + i) && !v.toNat.testBit (29 + i)))
      ∧ (new / 2 ^ 29 % 8 = 0 → new = 0) ∧ (new / 2 ^ 29 % 8 ≠ 0 → new % 2 ^ 29 = natO a k % 2 ^ 29)))

/-- R367, R368, R369: the injection window opens by 4B4Ch and then 494Eh, which raises event 237, and closes by any other value,
which disarms every event; ARM arms its event for the frame DELAY frames after the next one and raises event 236, or disarms it
with 0. -/
def Obligations.InjectionWrites : Prop :=
  (∀ (s : State) (e : Envelope) (w : WriteBody) (v : Int), AcceptedWrite s e 0x1400 0 w v →
    let r : Request := .write 0x1400 0 w
    let a := atRequest s e r
    (v = 0x4B4C → getO a Obj.inj.window = 0 → Completes (.injectionWindow e w) s (fun t => RequestDone s t e r (setO a Obj.inj.window 1)))
    ∧ (v = 0x494E → getO a Obj.inj.window = 1 →
        Completes (.injectionWindow e w) s (fun t => RequestDone s t e r (raise (setO a Obj.inj.window 2) 237 noDetail)))
    ∧ (¬ (v = 0x4B4C ∧ getO a Obj.inj.window = 0) → ¬ (v = 0x494E ∧ getO a Obj.inj.window = 1) →
        Completes (.injectionWindow e w) s (fun t => ∃ b, RequestDone s t e r b ∧ b = { a with obj := b.obj } ∧ getO b Obj.inj.window = 0
          ∧ ∀ n, n < 256 → getO b (Obj.inj.arm n) = 0 ∧ (getO a (Obj.inj.arm n) ≠ 0 → getO b (Obj.inj.state n) = 0))))
  ∧ (∀ (s : State) (e : Envelope) (w : WriteBody) (v : Int), AcceptedWrite s e 0x1400 1 w v →
    let r : Request := .write 0x1400 1 w
    let a := atRequest s e r
    let n := w.element
    (v = 0 → Completes (.arm e w) s (fun t => RequestDone s t e r (setMany a [(Obj.inj.arm n, 0), (Obj.inj.state n, 0)])))
    ∧ (v ≠ 0 → Completes (.arm e w) s (fun t => RequestDone s t e r
        (raise (setMany a [(Obj.inj.arm n, v), (Obj.inj.state n, 1),
          (Obj.inj.fireFrame n, ((s.frame + 1 + natO a (Obj.inj.delay n) : Nat) : Int))]) 236 n))))

/-- R41, R46: CLOSE frees its session at once; where it was the owner's, ownership is lost. R347, Table 14.14: RESET of a block
plans its reset for the next frame with BLOCK_HOLD; 62 asks for a warm reset and 63 for a cold one. A RESET that names the other
unit does nothing here. -/
def Obligations.CloseAndReset : Prop :=
  (
    ∀ (s : State) (e : Envelope) (w : WriteBody), AcceptedWrite s e 0x1110 10 w 1 →
      let r : Request := .write 0x1110 10 w
      let n := w.element + 1
      Completes (.close e w) s (fun t => ∃ b, RequestDone s t e r b
        ∧ sessState b n = 0 ∧ natO b (Obj.sess.station (n - 1)) = 0 ∧ natO b (Obj.sess.nextSeq (n - 1)) = 1 ∧ session b n = Session.free
        ∧ (natO s Obj.own.ownerSession = n → ownerState s = 2 → ownerState b = 1)
        ∧ (natO s Obj.own.ownerSession ≠ n → ownerState b = ownerState s ∧ natO b Obj.own.ownerSession = natO s Obj.own.ownerSession
          ∧ ∀ m, m ≠ n → session b m = session (atRequest s e r) m)))
  ∧ (
    ∀ (s : State) (e : Envelope) (w : WriteBody) (v : Int), AcceptedWrite s e 0x1200 1 w v → 0 ≤ v →
      let r : Request := .write 0x1200 1 w
      let a := atRequest s e r
      let code := v.toNat % 64
      let here := v.toNat / 16384 = 0 ∨ v.toNat / 16384 = 3 ∨ (v.toNat / 16384 = 1 ∧ s.pins.unitB = false)
        ∨ (v.toNat / 16384 = 2 ∧ s.pins.unitB = true)
      (here → v.toNat / 16384 < 4 → code ≤ 25 → Completes (.resetBlock e w) s (fun t => RequestDone s t e r
        { a with rst := { a.rst with starting := a.rst.starting ++ [(s.frame + 1, code, natO a Obj.rst.blockHold)] } }))
      ∧ (here → v.toNat / 16384 < 4 → code = 62 → s.rst.soft = none → Completes (.resetWarm e w) s (fun t => RequestDone s t e r
        { a with rst := { a.rst with soft := some false } }))
      ∧ (here → v.toNat / 16384 < 4 → code = 63 → Completes (.resetCold e w) s (fun t => RequestDone s t e r
        { a with rst := { a.rst with soft := some true } }))
      ∧ ((v.toNat / 16384 = 1 ∧ s.pins.unitB = true) ∨ (v.toNat / 16384 = 2 ∧ s.pins.unitB = false) →
          Completes (.resetBlock e w) s (fun t => RequestDone s t e r a)))

/-- R398, R399: a firmware chunk stores its bytes at OFFSET of the image TARGET names and takes its version away, FW_VERIFY begins
its verification, and a hand-over that names this unit begins, with event 235. -/
def Obligations.FirmwareWrites : Prop :=
  (∀ (s : State) (e : Envelope) (w : WriteBody), AcceptedBlob s e 0x1620 5 w →
    let a := atRequest s e (.write 0x1620 5 w)
    let img := natO s Obj.fw.target
    let at_ := img * 0x1000000 + natO s Obj.fw.offset
    Completes (.fwChunk e w) s (fun t => ∃ b, RequestDone s t e (.write 0x1620 5 w) b
      ∧ bytesGet b.bus.flash at_ w.value.length = w.value
      ∧ (∀ x, x < at_ ∨ at_ + w.value.length ≤ x → byteGet b.bus.flash x = byteGet s.bus.flash x)
      ∧ natO b (Obj.fw.version img) = 0 ∧ ObjectsKept a b [Obj.fw.version img]))
  ∧ (∀ (s : State) (e : Envelope) (w : WriteBody), AcceptedWrite s e 0x1620 6 w 1 →
    let a := atRequest s e (.write 0x1620 6 w)
    Completes (.fwVerify e w) s (fun t => RequestDone s t e (.write 0x1620 6 w)
      { a with bus := { a.bus with fwVerifying := some (natO s Obj.fw.target) } }))
  ∧ (∀ (s : State) (e : Envelope) (w : WriteBody) (v : Int), AcceptedWrite s e 0x1620 10 w v →
    let a := atRequest s e (.write 0x1620 10 w)
    (v = 0 ∨ v = 3 ∨ (v = 1 ∧ s.pins.unitB = false) ∨ (v = 2 ∧ s.pins.unitB = true) →
      Completes (.fwHandover e w) s (fun t => RequestDone s t e (.write 0x1620 10 w)
        (raise { a with ctl := { a.ctl with handover := true } } 235 noDetail)))
    ∧ ((v = 1 ∧ s.pins.unitB = true) ∨ (v = 2 ∧ s.pins.unitB = false) →
      Completes (.fwHandover e w) s (fun t => RequestDone s t e (.write 0x1620 10 w) a)))

/-- R134, R194, R266: DISCARD ends the open group with LAST_RESULT 6 and no other effect; a staging chunk replaces the bytes from
STAGE_OFFSET of the beam's staging buffer; ASYM_CLEAR clears ASYM_DEGRADE. R232, R235: RETRAIN of an ACTIVE link drops it to
DETECT, or DISABLED where it may not train, with event 96; RETRAIN of a lane takes it out of service for retraining, bearing no
logical lane and not locked. -/
def Obligations.GroupBeamAndRetrainWrites : Prop :=
  (
    (∀ (s : State) (e : Envelope) (w : WriteBody), AcceptedWrite s e 0x4300 8 w 1 → s.slu.openSession ≠ 0 →
      let a := atRequest s e (.write 0x4300 8 w)
      Completes (.groupDiscard e w) s (fun t => ∃ b, RequestDone s t e (.write 0x4300 8 w) b
        ∧ b.slu = { s.slu with openTag := 0, openSession := 0, openSeq := 0, openSet := [] }
        ∧ natO b Obj.slu.lastTag = s.slu.openTag ∧ natO b Obj.slu.lastResult = 6 ∧ natO b Obj.slu.lastFrame = s.frame
        ∧ natO b Obj.slu.lastFinal = s.frame ∧ natO b Obj.slu.fedTag = 0
        ∧ ObjectsKept a b [Obj.slu.lastTag, Obj.slu.lastResult, Obj.slu.lastFrame, Obj.slu.lastFinal, Obj.slu.fedTag]
        ∧ b = { a with obj := b.obj, slu := b.slu, ctl := { a.ctl with journal := b.ctl.journal } }))
    ∧ (∀ (s : State) (e : Envelope) (w : WriteBody), AcceptedBlob s e 0x5300 9 w →
      let a := atRequest s e (.write 0x5300 9 w)
      let n := w.element
      let buf := stagingBuffer a n
      let off := natO a (Obj.beam.stageOffset n)
      Completes (.stageChunk e w) s (fun t => ∃ b, RequestDone s t e (.write 0x5300 9 w) b
        ∧ bufferOf b n buf = (bufferOf a n buf).take off ++ w.value ++ (bufferOf a n buf).drop (off + w.value.length)
        ∧ (∀ m c, 2 * m + c ≠ 2 * n + buf → bufferOf b m c = bufferOf a m c) ∧ b.obj = a.obj))
    ∧ (∀ (s : State) (e : Envelope) (w : WriteBody), AcceptedWrite s e 0x2100 75 w 1 →
      Completes (.asymClear e w) s (fun t => RequestDone s t e (.write 0x2100 75 w)
        (setO (atRequest s e (.write 0x2100 75 w)) Obj.tb.asymDegrade 0))))
  ∧ (
    (∀ (s : State) (e : Envelope) (w : WriteBody), AcceptedWrite s e 0x3000 9 w 1 →
      let a := atRequest s e (.write 0x3000 9 w)
      let l := w.element
      (linkActive s l = true → NotYetRaised s 96 → Completes (.linkRetrain e w) s (fun t => ∃ b, RequestDone s t e (.write 0x3000 9 w) b
        ∧ natO b (Obj.link.state l) = (if getO s (Obj.link.enable l) = 1 ∧ inReset s (19 + l) = false then 1 else 0)
        ∧ natO b (Obj.link.txWidth l) = 0 ∧ natO b (Obj.link.rxWidth l) = 0 ∧ natO b (Obj.link.txSpareFor l) = 255
        ∧ natO b (Obj.link.rxSpareFor l) = 255 ∧ EventRaised b 96 ∧ (∀ k, k ≠ l → linkOf b k = linkOf s k)
        ∧ b = { a with obj := b.obj, braid := b.braid, ev := b.ev }))
      ∧ (linkActive s l = false → Completes (.linkRetrain e w) s (fun t => RequestDone s t e (.write 0x3000 9 w) a)))
    ∧ (∀ (s : State) (e : Envelope) (w : WriteBody), AcceptedWrite s e 0x3010 14 w 1 →
      let a := atRequest s e (.write 0x3010 14 w)
      let n := w.element
      Completes (.laneRetrain e w) s (fun t => ∃ b, RequestDone s t e (.write 0x3010 14 w) b
        ∧ natO b (Obj.lane.role n) = 3 ∧ natO b (Obj.lane.logical n) = 255 ∧ natO b (Obj.lane.locked n) = 0
        ∧ ObjectsKept a b [Obj.lane.role n, Obj.lane.logical n, Obj.lane.locked n]
        ∧ (laneOf b (n / 10) (n % 10)).tuned = false ∧ b = { a with obj := b.obj, braid := { a.braid with lanes := b.braid.lanes } })))

/-- R374, R376, R381, R391: FLUSH empties a Drift queue, counts the items in FLUSHED and marks the next word as following a loss;
SHUTDOWN saves the persistent values (R32), writes a record of kind 3 to Moraine and mirrors the log; START of a host-to-memory
transfer makes the channel busy with nothing done, and of no byte at all complete. FLUSHED counts as log entry 46 says. -/
def Obligations.QueueAndTransferWrites : Prop :=
  (∀ (s : State) (e : Envelope) (w : WriteBody), AcceptedWrite s e 0x1380 4 w 1 → s.array.mapOut = none →
    let a := atRequest s e (.write 0x1380 4 w)
    let q := w.element
    let items := ((driftQ s q).words ++ (driftQ s q).packing.toList).foldl (fun n x => n + x.items) 0
    natO s (Obj.drift.flushed q) + items < 4294967296 →
    Completes (.driftFlush e w) s (fun t => ∃ b, RequestDone s t e (.write 0x1380 4 w) b
      ∧ (driftQ b q).words = [] ∧ (driftQ b q).packing = none ∧ (driftQ b q).afterLoss = true ∧ natO b (Obj.drift.depth q) = 0
      ∧ natO b (Obj.drift.flushed q) = natO s (Obj.drift.flushed q) + items ∧ (∀ k, k ≠ q → driftQ b k = driftQ s k)
      ∧ ObjectsKept a b [Obj.drift.flushed q, Obj.drift.depth q]
      ∧ b = { a with obj := b.obj, ev := { a.ev with queues := b.ev.queues } }))
  ∧ (∀ (s : State) (e : Envelope) (w : WriteBody), AcceptedWrite s e 0x1500 8 w 1 → s.ev.ring.length < 128 →
    let a := atRequest s e (.write 0x1500 8 w)
    Completes (.shutdown e w) s (fun t => ∃ b r, RequestDone s t e (.write 0x1500 8 w) b
      ∧ b.ev.ring = s.ev.ring ++ [r] ∧ r.seq = natO s Obj.mor.nextSeq ∧ r.frame = s.frame ∧ r.event = 65535 ∧ r.flags / 16 = 3
      ∧ r.stage = stageOf s ∧ (∀ x ∈ b.ev.ring, ∃ y ∈ b.ev.flash ++ s.ev.flash, y.seq = x.seq)
      ∧ (∀ i el sub d, declAt a i el sub = some d → d.persistent = true → i < 0x6000 → el < 65536 → sub < 256 →
          (d.typ.size ≠ 0 → getO a (okey i el sub) ≠ dfltOf (okey i el sub) →
            Sparse.get (fun _ => (0 : Int)) b.ctl.savedNum (okey i el sub) = getO a (okey i el sub))
          ∧ (d.typ.size = 0 → getB a (okey i el sub) ≠ blobDflt (okey i el sub) →
            Sparse.get (fun _ => []) b.ctl.savedBlob (okey i el sub) = getB a (okey i el sub)))
      ∧ b = { a with
          obj := b.obj
          ctl := { a.ctl with savedNum := b.ctl.savedNum, savedBlob := b.ctl.savedBlob, savedHash := b.ctl.savedHash }
          ev := { a.ev with ring := b.ev.ring, flash := b.ev.flash } }))
  ∧ (∀ (s : State) (e : Envelope) (w : WriteBody), AcceptedWrite s e 0x1600 7 w 1 → getO s (Obj.dma.direction w.element) = 1 →
    let a := atRequest s e (.write 0x1600 7 w)
    let c := w.element
    Completes (.dmaStart e w) s (fun t => ∃ b, RequestDone s t e (.write 0x1600 7 w) b
      ∧ natO b (Obj.dma.state c) = (if natO s (Obj.dma.length c) = 0 then 2 else 1) ∧ natO b (Obj.dma.doneBytes c) = 0
      ∧ ObjectsKept a b [Obj.dma.state c, Obj.dma.doneBytes c]
      ∧ b.bus = { s.bus with dmaDone := s.bus.dmaDone.filter (fun x => x.1 != c) }
      ∧ b = { a with obj := b.obj, bus := b.bus }))

/-- R316, R320, R313, Table 13.12: RESYNC at an active unit starts the resync at the running frame, with event 132; FORCE_ACTIVE
makes an orphan ACTIVE and ALONE; PARTNER_RESET sends a reset request over the pair link. -/
def Obligations.PairWrites : Prop :=
  (∀ (s : State) (e : Envelope) (w : WriteBody), AcceptedWrite s e 0x3800 8 w 1 → resyncOk s = true → NotYetRaised s 132 →
    Completes (.resync e w) s (fun t => ∃ b, RequestDone s t e (.write 0x3800 8 w) b
      ∧ pairState b = 2 ∧ natO b Obj.pair.resyncPhase = 1 ∧ natO b Obj.pair.resyncBytes = 0 ∧ b.pair.resyncAsked = false
      ∧ b.pair.autoStopped = false ∧ EventRaised b 132))
  ∧ (∀ (s : State) (e : Envelope) (w : WriteBody), AcceptedWrite s e 0x3800 10 w 1 → pairState s = 9 → 1 < natO s Obj.prog.bootSlot →
    Completes (.forceActive e w) s (fun t => ∃ b, RequestDone s t e (.write 0x3800 10 w) b
      ∧ natO b Obj.pair.role = 0 ∧ pairState b = 1 ∧ natO b Obj.pair.exposed = 1 ∧ b.pair.watching = 0 ∧ b.pair.pullsRole = true
      ∧ b.pair.aliveOut = 1 ∧ b.pair.pathsSent = [true, true]))
  ∧ (∀ (s : State) (e : Envelope) (w : WriteBody), AcceptedWrite s e 0x3800 12 w 1 → isActive s = true →
    Completes (.partnerReset e w) s (fun t => RequestDone s t e (.write 0x3800 12 w)
      (sendPair (atRequest s e (.write 0x3800 12 w)) 0x16 (natBE 6 1))))

/-! ## Timers of the control plane -/

/-- R42, R38, R41: a gap that stays open has every held request of the session answered; an open series is discarded; a session
without a message goes DORMANT and keeps NEXT_SEQ, its fence and its results; a dormant one is freed. R46, R47, R48, Table 2.15:
when the window closes, the candidate of highest priority, at a tie of the lower station, owns and OWNER_EPOCH rises by one;
without a candidate there is no owner. 100 ms without the owner open an election, with event 230, and the owner's open group is
discarded. -/
def Obligations.SessionAndElectionTimers : Prop :=
  (
    ∀ (s : State) (i : Fin 32),
      let n := i.val + 1
      Completes (.sequenceGapTimeout i) s (fun t => (session t n).held = [] ∧ (∀ m, m ≠ n → session t m = session s m) ∧ t.slu = s.slu
        ∧ ((∀ h ∈ (session s n).held, forwarded h.envelope = false ∧ reqCode h.request ≠ 8) →
          t.out.length = s.out.length + (session s n).held.length
          ∧ (∀ k, (∀ m, m < 32 → k ≠ Obj.sess.naks m) → getO t k = getO s k) ∧ SessionOnly s t)
        ∧ (∀ h b, (session s n).held = [h] → h.request = .groupCommit b → CountsOne s t Obj.slu.rejects ∧ Raises s t 165 b.tag))
      ∧ (∀ index elem sub, Completes (.blobSeriesTimeout i index elem sub) s (fun t =>
          t.obj = s.obj ∧ (∀ x, x ∈ t.ctl.series ↔ x ∈ s.ctl.series ∧ ¬ (x.session = n ∧ x.object = okey index elem sub))
          ∧ t = { s with ctl := { s.ctl with series := t.ctl.series }, ev := { s.ev with evtN := t.ev.evtN } }))
      ∧ (sessState s n = 1 ∨ sessState s n = 2 → ownerSession s ≠ some n → Completes (.sessionDormant i) s (fun t =>
          sessState t n = 3 ∧ (session t n).subs = [] ∧ (session t n).held = [] ∧ (session t n).results = (session s n).results
          ∧ (∀ m, m ≠ n → session t m = session s m) ∧ ObjectsKept s t [Obj.sess.state i] ∧ t.out = s.out
          ∧ t.slu = s.slu ∧ t.ctl.journal = s.ctl.journal))
      ∧ (sessState s n = 3 → ownerSession s ≠ some n → Completes (.sessionFree i) s (fun t =>
          sessState t n = 0 ∧ session t n = Session.free ∧ natO t (Obj.sess.nextSeq i) = 1 ∧ natO t (Obj.sess.station i) = 0
          ∧ (∀ m, m ≠ n → session t m = session s m) ∧ (∀ k, (∀ b, k ≠ okey 0x1110 i b) → getO t k = getO s k)
          ∧ t.out = s.out ∧ t.slu = s.slu ∧ t.ctl.journal = s.ctl.journal)))
  ∧ (
    ∀ s : State,
      (∀ w, ownerState s = 1 → decidesNothing s = false → isStandby s = false → winner s (allCandidates s) = some w →
        (∀ c ∈ allCandidates s, (session s c.session).held = []) →
        natO s Obj.own.ownerEpoch + 1 < 4294967296 →
        Completes .claimWindowClose s (fun t => ownerSession t = some w.session ∧ natO t Obj.own.ownerPriority = w.priority
          ∧ getO t Obj.own.preemptible = boolNum w.preemptible ∧ natO t Obj.own.ownerEpoch = natO s Obj.own.ownerEpoch + 1
          ∧ t.ctl.candidates = [] ∧ t.slu = s.slu))
      ∧ (ownerState s = 1 → decidesNothing s = false → isStandby s = false → winner s (allCandidates s) = none →
        natO s Obj.own.ownerEpoch + 1 < 4294967296 →
        Completes .claimWindowClose s (fun t =>
          ownerState t = boolNum (sessionNumbers.any (fun n => sessState s n != 0 && (session s n).standing.isSome))
          ∧ natO t Obj.own.ownerEpoch = natO s Obj.own.ownerEpoch + 1 ∧ (confirms s = false → t.out = s.out) ∧ t.slu = s.slu))
      ∧ (isStandby s = true → exec .claimWindowClose s = .next s
        ∧ (s.ctl.handover = false → inReset s 25 = false → exec .ownerLossTimeout s = .next (driveEvtN s)))
      ∧ (∀ n, s.ctl.handover = false → inReset s 25 = false → isStandby s = false → ownerSession s = some n → n ≠ 0 → (session s n).held = [] → NotYetRaised s 230 →
        Completes .ownerLossTimeout s (fun t => ownerState t = 1 ∧ natO t Obj.own.ownerSession = 0 ∧ natO t Obj.own.ownerStation = 0
          ∧ t.ctl.candidates = [] ∧ EventRaised t 230 ∧ (s.slu.openSession = n → t.slu.openSession = 0 ∧ t.slu.openSet = [])
          ∧ (s.slu.openSession ≠ n → t.slu = s.slu)))
      ∧ (∀ w, winner s (allCandidates s) = some w → w ∈ allCandidates s ∧ ∀ c ∈ allCandidates s, c.priority < w.priority
          ∨ (c.priority = w.priority ∧ natO s (Obj.sess.station (w.session - 1)) ≤ natO s (Obj.sess.station (c.session - 1)))))

/-- R44, Table 2.12: the period of a subscription to an object pushes one EVENT message with its value, that of a subscription to
events one for each unmasked event of the range, with the push numbers in turn; nothing else changes. R50, R306: where the partner
of a PAIRED engine has not confirmed an entry in time, the pair is out of step, the engine goes on alone and exposed, and every
answer that waited is sent. R51: the replay of an empty journal ends at once; an entry with a bad CRC goes with all behind it and
event 233; an accepted CONTROL write takes effect again and its entry retires. R32: a persistent value is saved under its key. -/
def Obligations.PushConfirmReplaySave : Prop :=
  (∀ (s : State) (i : Fin 32) (id : Nat) (u : Sub),
    (session s (i.val + 1)).subs.find? (fun x => x.id == id && x.mode == 1) = some u → inReset s 25 = false →
    let v := session s (i.val + 1)
    let addr := natO s (Obj.sess.peerAddress i)
    let port := natO s (Obj.sess.peerPort i)
    (∀ d, u.kind = 0 → declAt s (keyIndex u.object) (keyElem u.object) (keySub u.object) = some d →
      let b := (liveValue s d u.object).take 1416
      Completes (.subscriptionPeriod i id) s (fun t =>
        (∃ flags tag, t.out = .gultin addr port (i.val + 1) v.pushSeq 10 flags (natBE u.id 2 ++ [0xFF, 0xFF, 0x00, 0x00, 0x00, 0x00]
          ++ natBE s.frame 8 ++ natBE (keyIndex u.object) 2 ++ natBE (keyElem u.object) 2 ++ natBE (keySub u.object) 1
          ++ natBE d.typ.code 1 ++ natBE b.length 2 ++ b) tag :: s.out)
        ∧ session t (i.val + 1) = { v with pushSeq := v.pushSeq + 1 }
        ∧ (∀ m, m ≠ i.val + 1 → session t m = session s m) ∧ t.obj = s.obj ∧ SessionOnly s t))
    ∧ (u.kind ≠ 0 →
      let due := (List.range 256).filter (fun x => decide (u.first ≤ x) && decide (x ≤ u.last) && getO s (Obj.evt.mask x) == 0)
      Completes (.subscriptionPeriod i id) s (fun t =>
        (∀ x ∈ due, ∃ q flags tag, .gultin addr port (i.val + 1) q 10 flags (eventPayload s u.id x (natO s (Obj.evt.severity x))
          (natO s (Obj.evt.count x)) (natO s (Obj.evt.lastFrame x)) (natO s (Obj.evt.detail x))) tag ∈ t.out)
        ∧ t.out.length = s.out.length + due.length ∧ session t (i.val + 1) = { v with pushSeq := v.pushSeq + due.length }
        ∧ (∀ m, m ≠ i.val + 1 → session t m = session s m) ∧ t.obj = s.obj ∧ SessionOnly s t)))
  ∧ (∀ (s : State) (i : Fin 32) (q : Nat), pairState s = 3 →
    s.ctl.await.any (fun a => a.envelope.session == i.val + 1 && a.envelope.sequence == q) = true →
    Completes (.journalConfirmTimeout i q) s (fun t => t.ctl.await = [] ∧ pairState t = 1 ∧ natO t Obj.pair.exposed = 1
      ∧ t.pair.pathsSent = [true, true] ∧ t.slu = s.slu ∧ (∀ x ∈ t.ctl.journal, x.waits = false ∧ x.state ≠ 1)
      ∧ (∀ a ∈ s.ctl.await, forwarded a.envelope = false → a.result.ack = true → getO s Obj.own.authMode = 0 → a.envelope.flags.getLsbD 0 = false →
        ∃ flags, .gultin a.envelope.srcAddr a.envelope.srcPort a.envelope.session a.envelope.sequence 11 flags
          (ackPayload s a.result.kind a.result.info) [] ∈ t.out)))
  ∧ (∀ s : State, s.ctl.replay = true → 2 ≤ stageOf s → isActive s = true → inReset s 25 = false → s.slu = Sluice.reset →
    let fresh := setMany { s with ctl := { s.ctl with replay := false } } [(Obj.jrn.replayed, 0), (Obj.jrn.replayDropped, 0)]
    (s.ctl.journal = [] → exec .journalReplay s = .next (driveEvtN fresh))
    ∧ (∀ x r, s.ctl.journal = x :: r → x.bad = true →
      Completes .journalReplay s (fun t => t.ctl.journal = [] ∧ t.ctl.replay = false ∧ t.slu = s.slu ∧ Raises s t 233 noDetail
        ∧ natO t Obj.jrn.replayed = 0 ∧ ObjectsKept s t (Obj.jrn.replayed :: Obj.jrn.replayDropped :: eventKeys 233)))
    ∧ (∀ x i sub w d v, s.ctl.journal = [x] → x.bad = false → x.request = .write i sub w → i < 65536 → w.element < 65536 → sub < 256 →
      declAt s i w.element sub = some d → d.effect = .control → d.typ.size ≠ 0 → decodeNum d.typ w.value = some v →
      replayable s (okey i w.element sub) = true →
      exec .journalReplay s = .next (driveEvtN (retireEntry
        (applyNum (bumpO fresh Obj.jrn.replayed) s.frame (okey i w.element sub) v false) x.session x.sequence))))
  ∧ (∀ (s : State) (i e b : Nat) (d : Decl), declAt s i e b = some d → d.persistent = true → i < 0x6000 → e < 65536 → b < 256 →
    inReset s 25 = false → 2 ≤ stageOf s →
    (d.typ.size ≠ 0 → Completes (.persistSave i e b) s (fun t =>
      Sparse.get (fun _ => (0 : Int)) t.ctl.savedNum (okey i e b) = getO s (okey i e b)
      ∧ (∀ k, k ≠ okey i e b → Sparse.get (fun _ => (0 : Int)) t.ctl.savedNum k = Sparse.get (fun _ => (0 : Int)) s.ctl.savedNum k)
      ∧ t = { s with ctl := { s.ctl with savedNum := t.ctl.savedNum }, ev := { s.ev with evtN := t.ev.evtN } }))
    ∧ (d.typ.size = 0 → Completes (.persistSave i e b) s (fun t =>
      Sparse.get (fun _ => []) t.ctl.savedBlob (okey i e b) = getB s (okey i e b)
      ∧ (∀ k, k ≠ okey i e b → Sparse.get (fun _ => []) t.ctl.savedBlob k = Sparse.get (fun _ => []) s.ctl.savedBlob k)
      ∧ t = { s with ctl := { s.ctl with savedBlob := t.ctl.savedBlob }, ev := { s.ev with evtN := t.ev.evtN } })))

/-! ## Confluence, TDM, Eddy and images -/

/-- R119, R121, R123: a timeout starts the 64-sample fade or ramp of every search of the destination, or of its link group, whose T
samples have passed, leaves every other destination alone, and charges the lead of the gain searches once, with event 167. R125: a
meter period ends once its frames have passed; then every destination, element and beam shows the level of its largest magnitude, destinations also their RMS
over the window, their clips are those of the period that ended, and their peaks start anew. The error of a level is a free value within R125's bound (log entry 13). -/
def Obligations.ZxTimeoutsAndMeters : Prop :=
  (
    ∀ (s : State) (d : Nat), let ds := zxGroup s d
      Completes (.zxTimeout d) s (fun t =>
        (∀ m ∈ ds, ∀ c, (destOf s m).cut = some c → c.count = c.limit →
          (destOf t m).cut = none ∧ (destOf t m).fade = some ⟨c.old, 0, 64, false⟩)
        ∧ (∀ m ∈ ds, ∀ g n, (destOf s m).target = some g → (destOf s m).search = some n → (destOf s m).ramp = none →
          zxSamples s (leadOf s m) ≤ n →
          (destOf t m).ramp = some ⟨(destOf s m).g, linearGain g, 0⟩ ∧ (destOf t m).search = none ∧ (destOf t m).target = some g)
        ∧ (∀ m, m ∉ ds → destOf t m = destOf s m)
        ∧ (Sparse.wf dfltOf s.obj = true → d < 65536 → leadOf s d < 65536 → (∀ m ∈ ds, (destOf s m).cut = none) →
            (∃ m ∈ ds, ∃ g n, (destOf s m).target = some g ∧ (destOf s m).search = some n ∧ (destOf s m).ramp = none
              ∧ zxSamples s (leadOf s m) ≤ n) →
            CountsOne s t (Obj.dest.zxTimeouts (leadOf s d)) ∧ Raises s t 167 (leadOf s d)
              ∧ ObjectsKept s t (Obj.dest.zxTimeouts (leadOf s d) :: eventKeys 167))
        ∧ EventsOnly s { t with conf := { t.conf with dests := s.conf.dests } }))
  ∧ (
    ∀ s : State, Sparse.wf (fun _ => Dest.idle) s.conf.dests = true → Sparse.wf (fun _ => Elem.idle) s.array.elems = true →
      Sparse.wf (fun _ => BeamSt.idle) s.array.beams = true → (∀ e ∈ s.conf.dests, e.1 < 65536) → (∀ e ∈ s.array.elems, e.1 < 65536) →
      (∀ e ∈ s.array.beams, e.1 < 65536) →
      (s.conf.meterRun < natO s Obj.meter.period → exec .meterPeriod s = .next s)
      ∧ (natO s Obj.meter.period ≤ s.conf.meterRun → Completes .meterPeriod s (fun t =>
        (∀ e ∈ s.conf.dests, destOf t e.1 = { destOf s e.1 with peak := 0, clips := natO s (Obj.dest.clips e.1) }
          ∧ (∃ x, getO t (Obj.dest.peak e.1) = levelOf ((destOf s e.1).peak * (destOf s e.1).peak) (2 ^ 46) x)
          ∧ (let win := natO s Obj.meter.rmsWindow
             ∃ x, getO t (Obj.dest.rms e.1)
               = levelOf (((destOf s e.1).squares.take win).foldl (· + ·) 0) (2 ^ 46 * win * frameSamples s) x))
        ∧ (∀ e ∈ s.array.elems, elemOf t e.1 = { elemOf s e.1 with peak := 0 }
          ∧ ∃ x, getO t (Obj.elem.peak e.1) = levelOf ((elemOf s e.1).peak.toNat * (elemOf s e.1).peak.toNat) (2 ^ 46) x)
        ∧ (∀ e ∈ s.array.beams, beamOf t e.1 = { beamOf s e.1 with peak := 0 }
          ∧ ∃ x, getO t (Obj.beam.peak e.1) = levelOf ((beamOf s e.1).peak * (beamOf s e.1).peak) (2 ^ 46) x)
        ∧ t.conf.meterFrame = s.frame ∧ t.conf.meterRun = 0
        ∧ (∀ k, (∀ e ∈ s.conf.dests, k ≠ Obj.dest.peak e.1 ∧ k ≠ Obj.dest.rms e.1) → (∀ e ∈ s.array.elems, k ≠ Obj.elem.peak e.1) →
            (∀ e ∈ s.array.beams, k ≠ Obj.beam.peak e.1) → getO t k = getO s k))))

/-- R15, R127, Table 5.1: a TDM frame of a clock group without Rill routes plays one sample per slot of its driven ports, with a
clock where the engine is the master of the group, and captures one per slot; a slip of a group another device clocks repeats or
drops a captured sample, is counted and raises event 172. A Rill route within one group plays the sample captured a frame before,
one between two groups that of TDM frame t − 2, at its gain, and an input it has skipped or played again is counted with event 172.
A group is not read before TDM runs. Which end clocks a group, and its slots, are those of log entry 136. -/
def Obligations.TdmFrames : Prop :=
  ∀ (s : State) (g : Fin 4) (samples : List (Nat × Int)),
    (s.conf.tdm.running = false → ∀ slip, exec (.tdmFrame g samples slip) s = .next s)
    ∧ (s.conf.tdm.running = true →
    let heard := inGroup s g samples
    (liveRills s = [] → (samples.map (·.1)).Nodup → ∀ slip : Option Int,
      let moved := if groupMaster s g then none else slip
      Completes (.tdmFrame g samples slip) s (fun t =>
        (∀ code x, (code, x) ∈ samples → groupOf code = g → code % 32 < groupSlots s g →
          let v := signed 24 (wrapTo 24 x)
          let before := Sparse.get (fun _ => ([] : List Int)) s.conf.tdm.capture code
          Sparse.get (fun _ => ([] : List Int)) t.conf.tdm.capture code = match moved with
            | none => v :: before
            | some k => if 0 < k then v :: v :: before else before)
        ∧ (∀ code, groupOf code ≠ g → Sparse.get (fun _ => ([] : List Int)) t.conf.tdm.capture code
            = Sparse.get (fun _ => ([] : List Int)) s.conf.tdm.capture code)
        ∧ (moved = none → t.obj = s.obj ∧ ∀ p, s.conf.tdm.position[g.val]? = some p → p < frameSamples s → 2 ≤ stageOf s →
            s.conf.tdm.outFade = none →
            t.out = .tdm g p (groupMaster s g && t.conf.tdm.driving.getD g false && s.jtag.ir != .extest)
                ((inGroup s g (confluenceSlots s g p)).filter (fun e => portDriven t g (e.1 / 32))) :: s.out
              ∧ t.conf.tdm.position[g.val]? = some (p + 1))
        ∧ (moved ≠ none → CountsOne s t Obj.health.tdmSlips ∧ Raises s t 172 g ∧ ObjectsKept s t (Obj.health.tdmSlips :: eventKeys 172))
        ∧ (∀ k : Nat, k ≠ g.val → t.conf.tdm.position[k]? = s.conf.tdm.position[k]? ∧ t.conf.tdm.driving[k]? = s.conf.tdm.driving[k]?
            ∧ t.conf.tdm.heard[k]? = s.conf.tdm.heard[k]?)
        ∧ EventsOnly s { t with out := s.out, conf := s.conf }))
    ∧ (∀ r, liveRills s = [r] → (rillOf s r).mode = 2 → (rillOf s r).ramp = none → groupOf (rillOut s r) = g →
      rillOut s r % 32 < groupSlots s g → s.conf.tdm.heard.length = 4 → s.conf.tdm.position[g.val]? = some 0 →
      Completes (.tdmFrame g samples none) s (fun t => ∃ p clock l, t.out = .tdm g p clock l :: s.out
        ∧ t.conf.tdm.heard[g.val]? = some (((tdmNumber s g, heard) :: s.conf.tdm.heard.getD g []).take 4)
        ∧ rillOf t r = { rillOf s r with last := (rillSource s r (tdmNumber s g)).map (·.1) }
        ∧ (∀ m x, rillSource s r (tdmNumber s g) = some (m, x) → portDriven t g (rillOut s r / 32) = true →
            (rillOut s r, sat24 (scale23 ((assocGet x (rillIn s r)).getD 0 * (rillOf s r).g))) ∈ l)
        ∧ (groupOf (rillIn s r) = g →
            rillSource s r (tdmNumber s g) = (s.conf.tdm.heard.getD g []).head? ∧ t.obj = s.obj)
        ∧ (groupOf (rillIn s r) ≠ g →
            rillSource s r (tdmNumber s g) = (s.conf.tdm.heard.getD (groupOf (rillIn s r)) []).find? (fun e => decide (e.1 + 2 ≤ tdmNumber s g))
            ∧ (∀ m x k, rillSource s r (tdmNumber s g) = some (m, x) → (rillOf s r).last = some k →
                if m = k + 1 then t.obj = s.obj
                else CountsOne s t (Obj.rill.slips r) ∧ CountsOne s t Obj.health.tdmSlips ∧ Raises s t 172 r)))))

/-- R69, R103, R106, R107: the samples of a tap fetched in time are kept for the next frame, or placed at once where the frame still
waits for them and the cell's schedule is not under way; at the deadline a tap without data is given those of the frame before, counted, with event 160; a finished
background copy is noted. -/
def Obligations.EddyFetches : Prop :=
  ∀ (s : State) (d : Nat) (tap : Fin 16) (cell base : Nat), d < 65536 → (eddyOf s d).taps[tap.val]? = some (cell, base) →
    let e := eddyOf s d
    (getO s (Obj.eddy.state d) ≠ 0 → e.due.contains tap.val = true → cellBusy s cell = true →
      exec (.eddyFetchDone d tap) s = .next s)
    ∧ (getO s (Obj.eddy.state d) ≠ 0 → e.due.contains tap.val = true → cellBusy s cell = false →
      Completes (.eddyFetchDone d tap) s (fun t =>
        eddyOf t d = { e with delivered := (eddyOf t d).delivered, due := e.due.filter (· != tap.val) }
        ∧ cellOf t cell = (if cellRuns s cell = true then (tapWords s d e tap (natO s (Obj.eddy.writeCount d))).foldl
            (fun c x => memPut c (base + x.1) x.2) (cellOf s cell) else cellOf s cell)
        ∧ (∀ m, m ≠ cell → cellOf t m = cellOf s m) ∧ (∀ m, m ≠ d → eddyOf t m = eddyOf s m)
        ∧ t.obj = s.obj ∧ ObjectsOnly s { t with eddy := s.eddy, cells := s.cells }))
    ∧ (getO s (Obj.eddy.state d) ≠ 0 → e.due.contains tap.val = false → e.fetched.contains tap.val = false →
      Completes (.eddyFetchDone d tap) s (fun t => eddyOf t d = { e with fetched := e.fetched ++ [tap.val] }
        ∧ (∀ m, m ≠ d → eddyOf t m = eddyOf s m) ∧ t.obj = s.obj ∧ ObjectsOnly s { t with eddy := s.eddy }))
    ∧ (e.due.contains tap.val = true →
      Completes (.eddyFetchDeadline d tap) s (fun t =>
        eddyOf t d = { e with due := e.due.filter (· != tap.val) }
        ∧ (cellRuns s cell = true → cellBusy s cell = false → cellOf t cell = ((List.range (frameSamples s)).flatMap (fun j =>
              (List.range (natO s (Obj.eddy.channels d))).map (fun c => 8 * j + c))).foldl
            (fun c x => memPut c (base + x) (Sparse.get (fun _ => (0 : Word)) e.delivered (128 * tap.val + x))) (cellOf s cell))
        ∧ (cellRuns s cell = false ∨ cellBusy s cell = true → t.cells = s.cells)
        ∧ (∀ m, m ≠ cell → cellOf t m = cellOf s m) ∧ (∀ m, m ≠ d → eddyOf t m = eddyOf s m)
        ∧ CountsOne s t (Obj.eddy.overruns d) ∧ Raises s t 160 d ∧ ObjectsKept s t (Obj.eddy.overruns d :: eventKeys 160)
        ∧ EventsOnly s { t with eddy := s.eddy, cells := s.cells }))
    ∧ (getO s (Obj.eddy.state d) = 2 → Completes (.eddyCopyDone d) s (fun t => eddyOf t d = { e with copied := true }
        ∧ (∀ m, m ≠ d → eddyOf t m = eddyOf s m) ∧ t.obj = s.obj ∧ ObjectsOnly s { t with eddy := s.eddy }))

/-- R91, R92: STORE_LENGTH takes the slot of STORE_SELECT out of verification, a chunk stores its bytes at STORE_OFFSET of the slot
and no other byte of the flash, VERIFY begins the verification of that slot. R92, R93, R95: a verification ends with its result in
VERIFY_RESULT; an image that passes every check has its slot named with its hash, and is
staged unless a swap is committed already (log entry 116). -/
def Obligations.ProgramStore : Prop :=
  (
    (∀ (s : State) (e : Envelope) (w : WriteBody) (v : Int), AcceptedWrite s e 0x4000 5 w v → natO s Obj.prog.storeSelect < 2 →
      let a := atRequest s e (.write 0x4000 5 w)
      let slot := natO s Obj.prog.storeSelect
      Completes (.storeLength e w) s (fun t => ∃ b, RequestDone s t e (.write 0x4000 5 w) b
        ∧ getO b Obj.prog.storeLength = v ∧ natO b (Obj.prog.slotHash slot) = 0
        ∧ (natO s Obj.prog.stagedSlot = slot → b.prog.staged = none ∧ natO b Obj.prog.stagedSlot = 255)
        ∧ (natO s Obj.prog.stagedSlot ≠ slot → b.prog = s.prog)
        ∧ ObjectsKept a b [Obj.prog.storeLength, Obj.prog.slotHash slot, Obj.prog.stagedSlot]
        ∧ b = { a with obj := b.obj, prog := { a.prog with staged := b.prog.staged } }))
    ∧ (∀ (s : State) (e : Envelope) (w : WriteBody), AcceptedBlob s e 0x4000 7 w → natO s Obj.prog.storeSelect < 2 →
      let a := atRequest s e (.write 0x4000 7 w)
      let slot := natO s Obj.prog.storeSelect
      let at_ := 0x2000000 + slot * 0x3000000 + natO s Obj.prog.storeOffset
      Completes (.storeChunk e w) s (fun t => ∃ b, RequestDone s t e (.write 0x4000 7 w) b
        ∧ bytesGet b.bus.flash at_ w.value.length = w.value
        ∧ (∀ x, x < at_ ∨ at_ + w.value.length ≤ x → byteGet b.bus.flash x = byteGet s.bus.flash x)
        ∧ natO b (Obj.prog.slotHash slot) = 0 ∧ ObjectsKept a b [Obj.prog.slotHash slot, Obj.prog.stagedSlot]))
    ∧ (∀ (s : State) (e : Envelope) (w : WriteBody), AcceptedWrite s e 0x4000 8 w 1 →
      let a := atRequest s e (.write 0x4000 8 w)
      Completes (.verify e w) s (fun t => RequestDone s t e (.write 0x4000 8 w)
        { a with prog := { a.prog with verifying := some (natO s Obj.prog.storeSelect) } })))
  ∧ (
    ∀ (s : State) (slot : Nat), s.prog.verifying = some slot → slot < 2 →
      let len := natO s Obj.prog.storeLength
      let r := verifyImage (bytesGet s.bus.flash (storeBase slot) len) len (natO s Obj.ident.fwVersion) s.rst.rate (programKey s) s.prog.running
      Completes .verifyDone s (fun t => getO t Obj.prog.verifyResult = r.1 ∧ t.prog.verifying = none
        ∧ (∀ im, r.2 = some im → swapPending s none = true → getO t (Obj.prog.slotHash slot) = im.hash
          ∧ ObjectsKept s t [Obj.prog.verifyResult, Obj.prog.slotHash slot]
          ∧ t = { s with obj := t.obj, prog := { s.prog with verifying := none }, ev := { s.ev with evtN := t.ev.evtN } })
        ∧ (∀ im, r.2 = some im → swapPending s none = false → t.prog.staged = some im ∧ getO t (Obj.prog.slotHash slot) = im.hash ∧ natO t Obj.prog.stagedSlot = slot
          ∧ ObjectsKept s t [Obj.prog.verifyResult, Obj.prog.slotHash slot, Obj.prog.stagedSlot]
          ∧ t = { s with obj := t.obj, prog := { s.prog with verifying := none, staged := some im }, ev := { s.ev with evtN := t.ev.evtN } })
        ∧ (r.2 = none → t.prog = { s.prog with verifying := none }
          ∧ (r.1 / 16777216 = 7 → Raises s t 171 noDetail) ∧ ObjectsKept s t (Obj.prog.verifyResult :: eventKeys 171)
          ∧ EventsOnly s { t with prog := s.prog })))

/-! ## Sluice groups -/

/-- R138, R142, R145: the group whose background preparation ends counts as prepared, and no other; what its swap loads in the
background is loaded then (R94); a held federated one that a PREPARE named answers READY. R138: at F - 2 a complete group becomes
ready; an incomplete one moves when FIRST_FEASIBLE says so, and is rejected otherwise. R140: a group whose frame has passed untested
moves to its earliest frame, in the order of the original targets. R142: a later sub-group becomes ready or moves, and is never
rejected. R143: the active unit journals each outcome before it acts, and a standby decides nothing and reports its preparation. Which
frame a group takes that was skipped is log entry 67, the DETAIL of a group of one log entry 68, when a re-base is decided log entry
115. -/
def Obligations.GroupTests : Prop :=
  (∀ (s : State) (id : Nat),
    let mark (g : Group) : Group := if g.id = id ∧ g.prepAt = none then { g with prepared := true } else g
    (s.slu.coord = none → s.slu.heldFed = none → (∀ g ∈ s.slu.waiting, g.id = id → swapOf g.changes = none) →
      exec (.preparationDone id) s = .next (driveEvtN { s with slu := { s.slu with waiting := s.slu.waiting.map mark } }))
    ∧ (∀ g im, s.slu.coord = none → s.slu.heldFed = none → s.slu.waiting = [g] → g.id = id → g.prepAt = none → g.prepared = false →
      swapOf g.changes ≠ none → s.prog.staged = some im →
      exec (.preparationDone id) s = .next (driveEvtN (let p := prepareSwap s im
        { p with slu := { s.slu with waiting := [{ g with prepared := true }] } }))
      ∧ prepareSwap s im = { s with cells := (prepareSwap s im).cells, bus := { s.bus with cluster := (prepareSwap s im).bus.cluster },
                                    prog := { s.prog with prepared := true } })
    ∧ (∀ g, s.slu.coord = some g → g.id = id → s.slu.heldFed = none → (otherMembers s).isEmpty = false → s.slu.waiting = [] →
      swapOf g.changes = none →
      exec (.preparationDone id) s = .next (driveEvtN { s with slu := { s.slu with coord := some (mark g) } }))
    ∧ (∀ g f, s.slu.coord = none → s.slu.heldFed = some g → g.id = id → g.prepared = false → g.prepAt = none →
      s.slu.fedAsk = some (g.fedTag, f) → s.slu.waiting = [] → swapOf g.changes = none →
      exec (.preparationDone id) s = .next (driveEvtN (sendFed { s with slu := { s.slu with heldFed := some { g with prepared := true } } }
        2 g.fedTag f 0))))
  ∧ (∀ (s : State) (id : Nat) (g : Group) (partner : Bool), waitingGroup s id = some g → g.phase ≠ 4 → inReset s 25 = false →
    g.target = s.frame + 2 →
    (isStandby s = true → exec (.commitTest id partner) s = .next (driveEvtN (reportPrepared s g)))
    ∧ (isStandby s = false → decidesNothing s = false → g.isReady = false →
      (complete s g partner = true → Completes (.commitTest id partner) s (fun t =>
          t.slu = { s.slu with waiting := s.slu.waiting.map (fun x => if x.id = id then { g with isReady := true, phase := 2 } else x) }
          ∧ natO t Obj.slu.lastEarliest = g.target ∧ ObjectsKept s t [Obj.slu.lastEarliest]
          ∧ (confirms s = false → t.out = s.out ∧ t.braid = s.braid ∧ t.time = s.time)
          ∧ (confirms s = true → (∀ c ∈ g.changes, c.object ≠ Obj.tb.rebase) →
              t.out = (journalDecision s (.groupReady g.session g.seq g.target)).out ∧ t.time = s.time)
          ∧ t = { s with obj := t.obj, slu := t.slu, out := t.out, braid := t.braid, time := { s.time with rebase := t.time.rebase },
                         ev := { s.ev with evtN := t.ev.evtN } }))
      ∧ (complete s g partner = false → g.firstFeasible = true → Completes (.commitTest id partner) s (fun t =>
          t.slu = { s.slu with waiting := s.slu.waiting.map (fun x => if x.id = id then
            { g with target := (if hasCatch g.all then up16 (s.frame + 3) else s.frame + 3), moved := true, isReady := false } else x) }
          ∧ natO t Obj.slu.lastEarliest = (if hasCatch g.all then up16 (s.frame + 3) else s.frame + 3)
          ∧ t.out = (journalDecision s (.groupMoved g.session g.seq (if hasCatch g.all then up16 (s.frame + 3) else s.frame + 3))).out
          ∧ (g.moved = false → Raises s t 166 g.tag) ∧ ObjectsKept s t (Obj.slu.lastEarliest :: eventKeys 166)
          ∧ EventsOnly s { t with slu := s.slu, out := s.out, braid := s.braid }))
      ∧ (complete s g partner = false → g.firstFeasible = false → Completes (.commitTest id partner) s (fun t =>
          (∀ x, x ∈ t.slu.waiting ↔ x ∈ s.slu.waiting ∧ x.id ≠ id) ∧ natO t Obj.slu.lastTag = g.tag ∧ natO t Obj.slu.lastResult = 4
          ∧ natO t Obj.slu.lastFrame = g.target ∧ natO t Obj.slu.lastFinal = g.target
          ∧ natO t Obj.slu.lastEarliest = (if hasCatch g.all then up16 (s.frame + 3) else s.frame + 3)
          ∧ t.out = (journalDecision s (.groupRejected g.session g.seq)).out
          ∧ CountsOne s t Obj.slu.rejects ∧ Raises s t 165 g.tag))))
  ∧ (∀ (s : State) (g : Group) (partner : Bool), waitingGroup s g.id = some g → s.slu.waiting = [g] → g.phase ≠ 4 → isStandby s = false →
    decidesNothing s = false → skipped s g = true → 0 < boundLeft s g → Completes (.commitTest g.id partner) s (fun t =>
      let f := s.frame + boundLeft s g + 2
      t.slu = { s.slu with waiting := [{ g with firstFeasible := true, late := true, moved := true, isReady := false,
                                                target := (if hasCatch g.all then up16 f else f) }] }
      ∧ Raises s t 166 g.tag ∧ EventsOnly s { t with slu := s.slu, out := s.out, braid := s.braid }))
  ∧ (∀ (s : State) (g h : Group) (partner : Bool), waitingGroup s g.id = some g → s.slu.waiting = [h, g] → g.phase ≠ 4 → h.phase ≠ 4 →
    g.id ≠ h.id → isStandby s = false → decidesNothing s = false → skipped s g = true → skipped s h = true → g.asked < h.asked →
    0 < boundLeft s g → Completes (.commitTest g.id partner) s (fun t => ∃ g' h', t.slu.waiting = [h', g'] ∧ g'.id = g.id ∧ h'.id = h.id
      ∧ g'.target ≤ h'.target ∧ s.frame + 2 < g'.target))
  ∧ (∀ (s : State) (id : Nat) (g : Group) (partner : Bool), waitingGroup s id = some g → g.phase = 4 → g.target = s.frame + 2 →
    g.isReady = false →
    (isStandby s = true → exec (.subgroupTest id partner) s = .next (driveEvtN (reportPrepared s g)))
    ∧ (isStandby s = false → decidesNothing s = false → Completes (.subgroupTest id partner) s (fun t =>
      t.slu = { s.slu with waiting := s.slu.waiting.map (fun x => if x.id = id then
        (if complete s g partner = true then { g with isReady := true }
         else { g with target := (if hasCatch g.changes then up16 (s.frame + 3) else s.frame + 3), moved := true, isReady := false })
        else x) }
      ∧ (complete s g partner = false → g.moved = false → Raises s t 166 g.tag)
      ∧ (confirms s = false → t.out = s.out ∧ t.braid = s.braid ∧ t.time = s.time)
      ∧ EventsOnly s { t with slu := s.slu, out := s.out, braid := s.braid, time := s.time })))

/-- R20: DIRECT writes that are not due at the next boundary stay as they are; one that is due is applied there, and leaves the
queue and the journal; where its block is in reset it is held for the release instead (R53). R139: what is due at a boundary is
applied in the order of the acknowledgements, whichever of it a command names. R140, R142, R144: a ready group, or a ready later
sub-group, applies all its changes at the boundary of its frame; the last part ends it with its result, frame and final frame, and
event 164; another part then begins its preparation a frame later and waits for its own frame. A held group no PREPARE names ends
with LAST_RESULT 6 and event 165. The boundary at which the command comes is that of log entry 17. -/
def Obligations.ChangesApply : Prop :=
  (
    ∀ s : State, s.ctl.replay = false → 2 ≤ stageOf s →
      ((∀ d ∈ s.slu.direct, s.frame + 1 < d.frame) → exec .directApply s = .next (driveEvtN s))
      ∧ (∀ d, dueAt s (s.frame + 1) = [.direct d] →
        let a := { s with slu := { s.slu with direct := s.slu.direct.filter (fun x => x.order != d.order) } }
        (keyBlocked s d.change.object = false →
          exec .directApply s = .next (driveEvtN (retireEntry (applySet a (s.frame + 1) false [d.change]).1 d.session d.seq)))
        ∧ (keyBlocked s d.change.object = true → Completes .directApply s (fun t =>
            (∃ b, t.slu = { a.slu with heldBlock := s.slu.heldBlock ++ [⟨b, d.session, d.seq, d.change⟩] })
            ∧ t = { s with slu := t.slu, ev := { s.ev with evtN := t.ev.evtN } })))
      ∧ (∀ l d r, dueAt s (s.frame + 1) = l ++ .direct d :: r → (∀ x ∈ r, x.isDirect = false) →
          exec .directApply s = .next (driveEvtN ((l ++ [.direct d]).foldl (fun a x => applyDue a (s.frame + 1) x) s))))
  ∧ (
    (∀ (s : State) (id : Nat) (g : Group), waitingGroup s id = some g → g.isReady = true → g.target = s.frame + 1 → g.fedTag = 0 →
      let d := dropGroup s g
      let f := s.frame + 1
      let a := applySet (holdOldRings d f g.changes) f (isBoot g) g.changes
      let c : Instr := if g.phase = 4 then .subgroupApply id else .groupApply id
      (∀ l r, dueAt s f = l ++ .group g :: r → (∀ x ∈ r, isGroup id x = false) →
        exec c s = .next (driveEvtN ((l ++ [.group g]).foldl (fun a x => applyDue a f x) s)))
      ∧ (dueAt s f = [.group g] → g.rest = [] → Completes c s (fun t => t = driveEvtN (finishGroup a.1 g (g.firstAt.getD f) f (g.heldCount + a.2))
        ∧ natO t Obj.slu.lastTag = g.tag ∧ natO t Obj.slu.lastFrame = g.firstAt.getD f ∧ natO t Obj.slu.lastFinal = f
        ∧ natO t Obj.slu.lastResult = resultOf (decide (g.asked < g.firstAt.getD f)) (g.heldCount + a.2)
        ∧ (∀ x ∈ t.slu.waiting, x.id ≠ g.id) ∧ (a.1.ev.now.find? (fun r => r.event == 164 && r.frame == f) = none → EventRaised t 164)))
      ∧ (∀ p bound r, dueAt s f = [.group g] → g.rest = (p, bound) :: r → Completes c s (fun t => ∃ h ∈ t.slu.waiting, h.id = g.id
        ∧ h.changes = p ∧ h.rest = r ∧ h.phase = 4 ∧ h.isReady = false ∧ h.prepared = false ∧ h.prepAt = some (f + 1)
        ∧ h.firstAt = some (g.firstAt.getD f)
        ∧ h.heldCount = g.heldCount + a.2 ∧ h.target = (if hasCatch p then up16 (f + 3 + bound) else f + 3 + bound))))
    ∧ (∀ (s : State) (g : Group), s.slu.heldFed = some g → s.slu.prepareSeen = false → isStandby s = false → s.slu.waiting = [] →
      s.slu.coord = none →
      Completes .heldGroupTimeout s (fun t => t.slu = { s.slu with heldFed := none } ∧ natO t Obj.slu.lastTag = g.tag
        ∧ natO t Obj.slu.lastResult = 6 ∧ natO t Obj.slu.lastFrame = s.frame ∧ natO t Obj.slu.lastFinal = s.frame ∧ Raises s t 165 g.tag
        ∧ t.out = (journalDecision s (.groupRejected g.session g.seq)).out ∧ t.cells = s.cells ∧ t.conf = s.conf)))

/-! ## Federation -/

/-- R145, R146, Tables 6.4 and 6.5: a phase is received, passed on to the neighbours and journaled in the member's pair before the
member acts on it; a standby acts on none. A member holds the group a PREPARE names and answers READY when it is prepared and its test
accepts it, REFUSE when it has none of that tag; the coordinator counts the READYs, and releases its group with the last, under the
next generation, with GO, or aborts where its own preparation is incomplete; REFUSE or the deadline reject it with LAST_RESULT 5 and
ABORT, but for a deadline at which every member is ready; GO releases the held group at F; ABORT, or no GO, leaves it held. The
frame a REFUSE names, and the decision with the last READY, are those of log entry 85. -/
def Obligations.FederatedCommits : Prop :=
  (∀ (s : State) (f : BraidFrame), takenAs s f 0x21 → fedOn s = true → inReset s 25 = false → msgField f 2 1 ≠ s.pins.fedId →
    let p := afterFed s f
    let member := msgField f 2 1
    let tag := msgField f 4 4
    let frame := msgField f 8 6
    let value := msgField f 16 8
    let told (phase : Nat) := journalDecision p (.fedPhase false phase tag frame (if phase = 2 then member else value))
    (isStandby s = true →
      (msgField f 1 1 = 1 → exec (.prepare f) s = .next (driveEvtN p)) ∧ (msgField f 1 1 = 2 → exec (.ready f) s = .next (driveEvtN p))
      ∧ (msgField f 1 1 = 3 → exec (.refuse f) s = .next (driveEvtN p)) ∧ (msgField f 1 1 = 4 → exec (.go f) s = .next (driveEvtN p))
      ∧ (msgField f 1 1 = 5 → exec (.abort f) s = .next (driveEvtN p)))
    ∧ (isStandby s = false →
      (msgField f 1 1 = 1 → s.slu.heldFed = none →
        exec (.prepare f) s = .next (driveEvtN (sendFed (told 1) 3 tag frame (s.frame + 2)))
        ∧ (sendFed (told 1) 3 tag frame (s.frame + 2)).slu = s.slu)
      ∧ (∀ g, msgField f 1 1 = 1 → s.slu.heldFed = some g → g.fedTag = tag →
          let a := { told 1 with slu := { s.slu with prepareSeen := true, fedAsk := some (tag, frame) } }
          let others := { told 1 with slu := { s.slu with prepareSeen := true, fedAsk := some (tag, frame), heldFed := none } }
          ((∃ t' i w, judge others g.all 0 true false 0 = .accept t' i w) →
            (g.prepared = true → exec (.prepare f) s = .next (driveEvtN (sendFed a 2 tag frame 0)))
            ∧ (g.prepared = false → frame < s.slu.fedReady + 8 →
                exec (.prepare f) s = .next (driveEvtN (sendFed a 3 tag frame (s.slu.fedReady + 2))))
            ∧ (g.prepared = false → s.slu.fedReady + 8 ≤ frame → exec (.prepare f) s = .next (driveEvtN a)))
          ∧ ((∃ code i w, judge others g.all 0 true false 0 = .nak code i w ∧ code ≠ 10) →
              exec (.prepare f) s = .next (driveEvtN (sendFed a 3 tag frame (s.frame + 2)))))
      ∧ (∀ g, msgField f 1 1 = 2 → s.slu.coord = some g → g.fedTag = tag → g.target = frame → s.slu.answers.contains member = false →
          let all := (otherMembers s).all (member :: s.slu.answers).contains
          (all = false → Completes (.ready f) s (fun t => t.slu = { s.slu with answers := member :: s.slu.answers }))
          ∧ (all = true → g.prepared = true → Completes (.ready f) s (fun t => t.slu.coord = none
              ∧ t.slu.goAt = some (g.id, natO s Obj.fed.generation + 1) ∧ t.slu.fedAsk = none
              ∧ { g with asked := frame, phase := 2, isReady := true } ∈ t.slu.waiting))
          ∧ (all = true → g.prepared = false → (otherMembers s).isEmpty = false → Completes (.ready f) s (fun t => t.slu.coord = none
              ∧ natO t Obj.slu.lastTag = g.tag ∧ natO t Obj.slu.lastResult = 5 ∧ CountsOne s t Obj.slu.rejects)))
      ∧ (∀ g, msgField f 1 1 = 3 → s.slu.coord = some g → g.fedTag = tag → g.target = frame → Completes (.refuse f) s (fun t =>
          t.slu.coord = none ∧ natO t Obj.slu.lastTag = g.tag ∧ natO t Obj.slu.lastResult = 5 ∧ natO t Obj.slu.lastEarliest = value
          ∧ CountsOne s t Obj.slu.rejects ∧ ∀ x ∈ t.slu.waiting, x ∈ s.slu.waiting))
      ∧ (∀ g, msgField f 1 1 = 4 → s.slu.heldFed = some g → s.slu.fedAsk = some (tag, frame) → g.fedTag = tag → Completes (.go f) s (fun t =>
          t.slu.heldFed = none ∧ t.slu.goAt = some (g.id, value) ∧ t.slu.fedAsk = none
          ∧ { g with target := frame, asked := frame, phase := 2, isReady := true } ∈ t.slu.waiting))
      ∧ (msgField f 1 1 = 5 → s.slu.fedAsk = some (tag, frame) → Completes (.abort f) s (fun t =>
          t.slu = { s.slu with fedAsk := none }))))
  ∧ (∀ (s : State) (g : Group), s.slu.coord = some g → g.target ≤ s.frame + 6 → isStandby s = false → decidesNothing s = false →
      (allReady s = true → g.prepared = true →
        exec .fedDecisionDeadline s = .next (driveEvtN (decideGo s g)) ∧ (decideGo s g).slu.coord = none
          ∧ (decideGo s g).slu.goAt = some (g.id, natO s Obj.fed.generation + 1)
          ∧ { g with asked := g.target, phase := 2, isReady := true } ∈ (decideGo s g).slu.waiting)
      ∧ (allReady s = false ∨ g.prepared = false → Completes .fedDecisionDeadline s (fun t =>
          t.slu.coord = none ∧ natO t Obj.slu.lastTag = g.tag ∧ natO t Obj.slu.lastResult = 5 ∧ natO t Obj.slu.lastFrame = s.frame
          ∧ natO t Obj.slu.lastFinal = s.frame ∧ CountsOne s t Obj.slu.rejects ∧ ∀ x ∈ t.slu.waiting, x ∈ s.slu.waiting)))
  ∧ (∀ (s : State) (tag f : Nat), s.slu.fedAsk = some (tag, f) → f ≤ s.frame + 2 → isStandby s = false → decidesNothing s = false →
      Completes .fedGoMissing s (fun t => t.slu = { s.slu with fedAsk := none }
        ∧ t.out = (journalDecision s (.fedPhase false 5 tag f 0)).out
        ∧ ObjectsOnly s { t with slu := s.slu, out := s.out, braid := s.braid }))

/-- R326 to R330: a federation part of another member is passed on, held for its frame when it lies within the next six, and
counted when it comes too late; a FEDTICK notes the hops and, from the neighbour nearer to the leader, the phase of entry 6; a
member missing for six frames raises event 136; a mismatch clears after sixty good frames. What counts as heard is log entry 86. -/
def Obligations.FederationFrames : Prop :=
  (∀ (s : State) (f : BraidFrame), takenAs s f 0x20 → fedOn s = true → f.link = 4 ∨ f.link = 5 → partOk s (frameBytes f) = true →
    (parsePart (frameBytes f)).member ≠ s.pins.fedId →
    let p := parsePart (frameBytes f)
    (s.frame < p.frame → p.frame ≤ s.frame + 6 → s.fed.parts.any (samePart p) = false → Completes (.fedframe f) s (fun t =>
      t.fed.parts = s.fed.parts ++ [p] ∧ t.fed.heard = s.fed.heard ∧ t.fed.missing = s.fed.missing
      ∧ (p.hops < 7 → linkActive s (oppositeLink f.link.val) = true → ∃ seq,
          t.out = .braid (oppositeLink f.link.val) 0 seq 0x20 (partBytes { p with hops := p.hops + 1 }) :: s.out)))
    ∧ (p.frame + 1 ≤ s.frame → Completes (.fedframe f) s (fun t =>
      t.fed = s.fed ∧ CountsOne s t Obj.fed.lateParts)))
  ∧ (∀ (s : State) (f : BraidFrame) (ns : Int), takenAs s f 0x22 → fedOn s = true → f.link = 4 ∨ f.link = 5 → s.fed.hops.length = 2 →
    s.sel.entries.length = 8 →
    let i := f.link.val - 4
    let hops := s.fed.hops.set i (msgField f 8 1)
    Completes (.fedtick f ns) s (fun t => t.fed = { s.fed with hops := hops } ∧ t.out = s.out
      ∧ (hops.getD i 255 < hops.getD (1 - i) 255 ∨ (hops.getD i 255 = hops.getD (1 - i) 255 ∧ i = 0) → natO s Obj.fed.leader ≠ s.pins.fedId →
          entryOf t 6 = { entryOf s 6 with raw := ns })
      ∧ (hops.getD (1 - i) 255 < hops.getD i 255 ∨ natO s Obj.fed.leader = s.pins.fedId → t.sel = s.sel)
      ∧ ∀ e, e ≠ 6 → entryOf t e = entryOf s e))
  ∧ (∀ (s : State) (k : Fin 8), fedOn s = true → (otherMembers s).contains k.val = true → s.fed.missing.getD k 0 = 6 →
    Completes (.fedMemberLost k) s (fun t => Raises s t 136 k ∧ ObjectsKept s t (eventKeys 136) ∧ EventsOnly s t))
  ∧ (∀ (s : State) (bit : Fin 3), bit.val = 1 ∧ 60 ≤ s.fed.goodVersion ∨ bit.val = 2 ∧ 60 ≤ s.fed.goodTime →
    memberBit s Obj.fed.mismatch bit = true → Completes (.fedMismatchClear bit) s (fun t =>
      (∀ b, memberBit t Obj.fed.mismatch b = (memberBit s Obj.fed.mismatch b && b != bit.val))
      ∧ (137 + bit.val) ∉ t.ev.lasting ∧ natO t Obj.fed.state = fedState t
      ∧ ObjectsKept s t [Obj.fed.mismatch, Obj.fed.state, Obj.evt.status (137 + bit.val)] ∧ EventsOnly s t))

/-! ## Catchment -/

/-- R152, R154, R155, R174, R179, R180, R181: a good array block that is not late is counted and held for its frame, a bad or a late
one is counted and dropped; the next subband sample becomes available and enters the lookback; a computed snapshot becomes ready in its
slot with its events, in the slots allocated last when its generation is the first that writes into them; one whose samples a jump of
FRAME_NO has abandoned is dropped. -/
def Obligations.IngestAndSnapshots : Prop :=
  (∀ (s : State) (f : BraidFrame), (receive s f).2 = true → inReset s 16 = false → f.link = 2 ∨ f.link = 3 →
    let b := parseBlock f.link.val (frameBytes f)
    (blockBad s (frameBytes f) = true → Completes (.arrayBlock f) s (fun t => CountsOne s t Obj.chan.badBlocks ∧ t.array = s.array))
    ∧ (blockBad s (frameBytes f) = false → b.frame + 2 ≤ s.frame → Completes (.arrayBlock f) s (fun t =>
        CountsOne s t Obj.chan.lateBlocks ∧ t.array = s.array))
    ∧ (blockBad s (frameBytes f) = false → s.frame < b.frame + 2 → Completes (.arrayBlock f) s (fun t =>
        CountsOne s t (if f.link = 2 then Obj.chan.blocksBl2 else Obj.chan.blocksBl3)
        ∧ t.array = (if b.frame < s.array.base then s.array else { s.array with copies := s.array.copies ++ [b] })
        ∧ t = { s with obj := t.obj, array := t.array, braid := { s.braid with links := t.braid.links },
                       ev := { s.ev with evtN := t.ev.evtN } })))
  ∧ (∀ s : State, let m := s.array.nextSub
      catchRuns s = true → availFrame s m ≤ s.frame → 128 * m + 128 ≤ s.array.nextIn → (∀ e ∈ activeAt s (16 * m), e < 65536) →
      Completes .subbandAvailable s (fun t => t.array.nextSub = m + 1 ∧ natO t Obj.chan.subbandNo = m
        ∧ (let l := natAt s (16 * m) Obj.chan.lookbackLength
           l ≠ 0 → s.array.lookFrom ≤ m → numAt s (16 * m) Obj.chan.lookbackFreeze ≠ 1 →
           t.array.lookback = ((computeSubbands s m).1 :: s.array.lookback).take l)))
  ∧ (∀ (s : State) (x : Snapshot) (rest : List Snapshot) (unfinished : List Nat), s.array.corr.computing = x :: rest →
      x.readyFrame ≤ s.frame →
      (16 * x.start < s.array.exactFrom →
        exec (.snapshotReady unfinished) s = .next { s with array := { s.array with corr := { s.array.corr with computing := rest } } })
      ∧ (∀ l a, s.array.exactFrom ≤ 16 * x.start → s.array.corr.areas = l ++ [a] → (∀ o ∈ l, l = [o] ∧ a.since ≤ x.gen) →
        a.snaps.length = 2 →
        let left := unfinished.filter (fun n => decide (n < blockCount x.groups.length))
        Completes (.snapshotReady unfinished) s (fun t => t.array.corr.computing = rest
          ∧ natO t Obj.corr.snapshotNo = x.number ∧ natO t Obj.corr.readyFrame = x.readyFrame ∧ Raises s t 195 noDetail
          ∧ (∃ y, t.array.corr.areas = [{ a with snaps := a.snaps.set (x.number % 2) y }]
              ∧ y.number = x.number ∧ y.ready = true ∧ y.counts = x.counts ∧ y.incomplete = left
              ∧ (left = [] → y = { x with ready := true, incomplete := [] })
              ∧ (∀ k ∈ y.satur, k ∈ x.satur ∧ k / 16777216 ∉ left) ∧ (∀ e ∈ y.entries, e ∈ x.entries ∧ e.1 / 16777216 ∉ left)
              ∧ (y.satur ≠ [] → CountsOne s t Obj.corr.satSnapshots ∧ Raises s t 197 noDetail))
          ∧ natO t (Obj.corr.slotBase 0) = a.base0 ∧ natO t (Obj.corr.slotBase 1) = a.base1 ∧ natO t Obj.corr.slotBytes = a.bytes
          ∧ (x.isPartial = true → Raises s t 196 noDetail)
          ∧ (left ≠ [] → CountsOne s t Obj.corr.overruns ∧ Raises s t 198 noDetail)
          ∧ ObjectsKept s t ([Obj.corr.snapshotNo, Obj.corr.readyFrame, Obj.corr.satSnapshots, Obj.corr.overruns, Obj.corr.slotBase 0,
              Obj.corr.slotBase 1, Obj.corr.slotBytes] ++ eventKeys 195 ++ eventKeys 196 ++ eventKeys 197 ++ eventKeys 198)
          ∧ EventsOnly s { t with array := s.array })))

/-- R204, R208, R209: weights late for an adaptive beam are counted, with event 160, and the beam keeps its last output; a map is
complete at its frame, with its number, and its record begins to be pushed. -/
def Obligations.BeamsAndMaps : Prop :=
  (∀ (s : State) (b : Fin 256), catchRuns s = true → (beamOf s b).late = false →
    (∃ c ∈ ({ beginFade (beamOf s b) s.array.nextSub with next := [] } : BeamSt).sides, c.on = true ∧ c.mode = 1) →
    Completes (.weightFetchLate b) s (fun t => beamOf t b = { beamOf s b with late := true } ∧ (∀ k, k ≠ b.val → beamOf t k = beamOf s k)
      ∧ CountsOne s t (Obj.beam.overruns b) ∧ Raises s t 160 b ∧ ObjectsKept s t (Obj.beam.overruns b :: eventKeys 160)
      ∧ EventsOnly s { t with array := s.array }))
  ∧ (∀ (s : State) (d : MapDone) (rest : List MapDone), s.array.ended = d :: rest → availFrame s d.last + 16 ≤ s.frame → d.satur = 0 →
    s.array.mapOut = none →
    Completes .mapComplete s (fun t => CountsOne s t Obj.scan.mapNo ∧ natO t Obj.scan.mapFrame = s.frame
      ∧ (let r := { d with number := natO t Obj.scan.mapNo, frame := s.frame }
         t.array = { s.array with ended := rest, lastMap := some r, mapOut := some ⟨natO s Obj.scan.scanQueue, mapRecord r, true, false⟩ })
      ∧ ObjectsKept s t [Obj.scan.mapNo, Obj.scan.mapFrame] ∧ ObjectsOnly s { t with array := s.array }))

/-! ## Braid links -/

/-- R226, R229 to R232, R238, Table 10.6: a sensed partner or a received FC begins an attempt, with the widths as they stand; with block
lock on every lane the link goes on to TX_TUNE; TRAIN blocks carry readiness, requests and echoes, and end DESKEW together with the
own deskew; a receiver that is not satisfied asks for a step under the next REQ_ID and waits for its echo; a state without progress,
or an attempt that takes too long, fails with its code, and retries or backs off; a back-off ends in an attempt. A TRAIN payload
outside Table 10.7 is that of log entry 129, a timeout of TX_TUNE that of log entry 130. -/
def Obligations.LinkTraining : Prop :=
  ∀ (s : State) (l : Fin 6),
    (linkState s l = 1 → Completes (.detectPoll l true) s (fun t => AttemptBegun s t l
        ∧ linkOf t l = { linkOf s l with latched := (natO s (Obj.link.width l), natO s (Obj.link.minWidth l)) }
        ∧ (∀ k, k ≠ l.val → linkOf t k = linkOf s k)
        ∧ ObjectsOnly s { t with braid := s.braid }))
    ∧ (linkState s l = 1 → Completes (.fcReceived l) s (fun t => AttemptBegun s t l ∧ laneLocked t l 9 = true ∧ (linkOf t l).fcLost = false))
    ∧ (linkState s l = 2 → Completes (.fcReceived l) s (fun t => laneLocked t l 9 = true ∧ (linkOf t l).fcLost = false
        ∧ ((∃ i, i < 9 ∧ laneLocked s l i = false) → linkState t l = 3)
        ∧ ((∀ i, i < 9 → laneLocked s l i = true) → linkState t l = 4 ∨ linkState t l = 5)))
    ∧ (2 ≤ linkState s l → linkState s l ≤ 6 → pairRuns s = false → laneLocked s l 9 = true → Completes (.fcLost l) s (fun t =>
        linkState t l = 1 ∧ laneLocked t l 9 = false ∧ (linkOf t l).fcLost = true ∧ (linkOf t l).fails = 0
        ∧ CountsOne s t (Obj.link.fcLosses l) ∧ Raises s t 103 (laneNo l 9)))
    ∧ (∀ lane : Fin 9, 2 ≤ linkState s l → linkState s l ≤ 6 → Completes (.blockLockAcquired l lane) s (fun t =>
        laneLocked t l lane = true ∧ (laneOf t l lane).lockLost = false ∧ (laneOf t l lane).lastCount = none
        ∧ (linkState s l ≠ 3 → linkState t l = linkState s l)
        ∧ (linkState s l = 3 → (∀ i, i < 9 → i ≠ lane.val → laneLocked s l i = true) → linkState t l = 4 ∨ linkState t l = 5)))
    ∧ (∀ b : TrainBlock, trainOk b = false → exec (.train l b) s = .next (driveEvtN s))
    ∧ (∀ b : TrainBlock, trainOk b = true → 2 ≤ linkState s l → linkState s l ≤ 6 → Completes (.train l b) s (fun t =>
        let st := linkState s l
        let a := laneOf s l b.lane
        let c := laneOf t l b.lane
        let training := st = 4 ∨ laneRole s l b.lane = 3
        let request := b.block.byte 2
        let asks := training ∧ b.satisfied = false ∧ b.ask ≠ (0, 0)
        c.partnerReady = (b.block.byte 1 / 16 % 2 == 1)
        ∧ (c.tuned = true ↔ a.tuned = true ∨ (training ∧ b.satisfied = true))
        ∧ (training → c.eq = b.eq.mapIdx (fun i v => sat (eqRange i).1 (eqRange i).2 v)) ∧ (¬ training → c.eq = a.eq)
        ∧ (st ≠ 4 → st ≠ 5 → linkState t l = st) ∧ (st = 4 → linkState t l = 4 ∨ linkState t l = 5)
        ∧ (st = 5 → ¬ ((linkOf s l).deskewed = true ∧ ((linkOf s l).partnerDeskew = true ∨ b.block.byte 1 / 32 = 5)) → linkState t l = 5)
        ∧ (st = 5 → (linkOf s l).deskewed = true → (linkOf s l).partnerDeskew = true ∨ b.block.byte 1 / 32 = 5 →
            linkState t l = 6 ∧ natO t (Obj.link.rxWidth l) = (linkOf s l).width ∧ (linkOf t l).fails = 0
            ∧ natO t (Obj.link.txWidth l) = (if b.block.byte 4 % 16 ≠ 0 then b.block.byte 4 % 16 else (linkOf s l).partnerWidth))
        ∧ (st = 6 ∨ a.lastReq = some (request % 16) → natO t (Obj.lane.txPre (laneNo l b.lane)) = natO s (Obj.lane.txPre (laneNo l b.lane))
            ∧ natO t (Obj.lane.txPost (laneNo l b.lane)) = natO s (Obj.lane.txPost (laneNo l b.lane)) ∧ (¬ asks → t.out = s.out))
        ∧ (st ≠ 6 → a.lastReq ≠ some (request % 16) →
            let r := tuneTaps (request / 64) (request / 16 % 4) (natO s (Obj.lane.txPre (laneNo l b.lane)))
              (natO s (Obj.lane.txPost (laneNo l b.lane)))
            natO t (Obj.lane.txPre (laneNo l b.lane)) = r.1 ∧ natO t (Obj.lane.txPost (laneNo l b.lane)) = r.2.1
            ∧ c.lastReq = some (request % 16) ∧ c.status = r.2.2.1 * 64 + r.2.2.2 * 16 + request % 16
            ∧ (¬ asks → ∃ payload, t.out = .train l b.lane payload :: s.out))
        ∧ (a.waiting = false → asks → c.waiting = true ∧ c.reqId = (a.reqId + 1) % 16 ∧ c.asked = (b.ask.1.val, b.ask.2.val))
        ∧ (a.waiting = true → st ≠ 6 → ¬ asks → c.waiting = (b.block.byte 3 % 16 != a.reqId) ∧ c.reqId = a.reqId)))
    ∧ (linkState s l = 2 ∨ linkState s l = 5 → Completes (.trainStateTimeout l) s (fun t => AttemptFailed s t l (linkState s l)))
    ∧ (linkState s l = 3 → (chooseWidth s l false).isSome = false → Completes (.trainStateTimeout l) s (fun t => AttemptFailed s t l 3))
    ∧ (linkState s l = 3 → (chooseWidth s l false).isSome = true → Completes (.trainStateTimeout l) s (fun t =>
        linkState t l = 4 ∨ linkState t l = 5))
    ∧ (∀ w sp, linkState s l = 4 → chooseWidth s l true = some (w, sp) →
        (partnerTuned s l false = true → Completes (.trainStateTimeout l) s (fun t =>
          linkState t l = 5 ∧ (linkOf t l).width = w ∧ (linkOf t l).spareLane = sp))
        ∧ (partnerTuned s l false = false → (linkOf s l).width = 0 → Completes (.trainStateTimeout l) s (fun t =>
          linkState t l = 4 ∧ (linkOf t l).width = w ∧ (linkOf t l).spareLane = sp))
        ∧ (partnerTuned s l false = false → (linkOf s l).width ≠ 0 → Completes (.trainStateTimeout l) s (fun t => AttemptFailed s t l 4)))
    ∧ (linkState s l = 4 → chooseWidth s l true = none → Completes (.trainStateTimeout l) s (fun t => AttemptFailed s t l 4))
    ∧ (2 ≤ linkState s l → linkState s l ≤ 5 → Completes (.trainAttemptTimeout l) s (fun t => AttemptFailed s t l 8))
    ∧ (linkState s l = 7 → Completes (.backoffExpiry l) s (fun t => AttemptBegun s t l))
    ∧ (linkState s l = 6 → Completes (.backoffExpiry l) s (fun t => linkState t l = 6 ∧ ∀ i, i < 9 →
        laneRole t l i = (if laneRole s l i = 4 then 3 else laneRole s l i)))

/-- R219 to R222, R228, R233 to R235, Table 10.8: lost block lock is counted and makes a lane fail over, retrain or drop its link, and
ends a sparing under way with SPARE_CANCEL; a marker carries the BIP and the count of its interval, and ends the run when it is none;
pilots are descrambled and compared; too many pilot errors in a second ask for the spare; a lane is spared by request, copy and done,
or cancelled; TUNE sets transmit taps; a retrained lane is the idle spare, one that takes too long has failed. -/
def Obligations.LaneCommands : Prop :=
  ∀ (s : State) (l : Fin 6) (lane : Fin 9), let n := laneNo l lane
    (∀ bad, laneLocked s l lane = true → Completes (.blockLockLost l lane bad) s (fun t =>
        laneLocked t l lane = false ∧ CountsOne s t (Obj.lane.lockLosses n) ∧ Raises s t 101 n
        ∧ (natO s (Obj.lane.headerErrors n) + bad < counterSpan (Obj.lane.headerErrors n) →
            natO t (Obj.lane.headerErrors n) = natO s (Obj.lane.headerErrors n) + bad)
        ∧ (linkActive s l = false → linkState t l = linkState s l ∧ t.out = s.out)
        ∧ (linkActive s l = true → laneRole s l lane = 1 → (lane.val = 8 → (linkOf s l).rxSpare = none) →
            laneRole t l lane = 3 ∧ linkState t l = 6)
        ∧ (∀ p, linkActive s l = true → lane.val = 8 → (linkOf s l).rxSpare = some p →
            (p.checks = true → (linkOf t l).rxSpare = none ∧ laneRole t l 8 = 3 ∧ linkState t l = 6 ∧ Raises s t 104 (laneNo l p.logical)
              ∧ ∃ seq, t.out = .braid l 1 seq 0xF2 (spareBytes p.logical) :: s.out)
            ∧ (p.checks = false → linkState t l ≤ 1))
        ∧ (linkActive s l = true → laneRole s l lane = 0 → lane.val < 8 → spareFree s l = true →
            (linkOf t l).rxSpare = some ⟨lane.val, false, false, true⟩ ∧ ∃ seq, t.out = .braid l 1 seq 0xF0 (spareBytes lane.val) :: s.out)
        ∧ (linkActive s l = true → laneRole s l lane = 0 → lane.val < 8 → spareFree s l = false → linkState t l ≤ 1)))
    ∧ (laneLocked s l lane = false → ∀ bad, exec (.blockLockLost l lane bad) s = .next (driveEvtN s))
    ∧ (∀ m : MarkerBlock, laneLocked s l lane = true → Completes (.marker l lane m) s (fun t =>
        let a := laneOf s l lane
        let c := laneOf t l lane
        let count := m.block.field 4 4
        (natO s (Obj.lane.headerErrors n) + badHeaders m.since < counterSpan (Obj.lane.headerErrors n) →
            natO t (Obj.lane.headerErrors n) = natO s (Obj.lane.headerErrors n) + badHeaders m.since)
        ∧ (markerOk m.block = false → c = { a with bipArmed := false, agreed := false, lastCount := none }
            ∧ linkState t l = linkState s l ∧ t.out = s.out)
        ∧ (markerOk m.block = true →
          natO t (Obj.link.partnerLink l) = m.block.byte 1 / 16
          ∧ (a.bipArmed = true → m.block.byte 3 ≠ bip8 m.since → CountsOne s t (Obj.lane.bipErrors n))
          ∧ (a.bipArmed = false ∨ m.block.byte 3 = bip8 m.since → natO t (Obj.lane.bipErrors n) = natO s (Obj.lane.bipErrors n))
          ∧ (linkState s l ≠ 5 → qualifying m.since < 4096 → lane.val < 8 → c = { a with
              bipArmed := true
              agreed := a.lastCount.any (fun k => (k + 1) % 4294967296 == count)
              lastCount := some count
              arrival := m.arrival })
          ∧ (linkActive s l = true → 4096 ≤ qualifying m.since → laneRole s l lane ≠ 3 → laneRole s l lane ≠ 4 →
              c.eq = adaptAll 0 a.eq a.trained m.wish)
          ∧ (linkState s l = 5 → (linkOf s l).deskewed = false → usedLanes (linkOf s l).width (linkOf s l).spareLane = [lane.val] →
              a.lastCount.any (fun k => (k + 1) % 4294967296 == count) = true →
              (linkOf t l).deskewed = true ∧ natO t (Obj.link.maxSkew l) = 0)
          ∧ (∀ p, linkActive s l = true → lane.val = 8 → (linkOf s l).rxSpare = some p → qualifying m.since < 4096 → p.logical < 8 →
              (p.copying = false → copiesLane m.block p.logical = true →
                (linkOf t l).rxSpare = some { p with copying := true, clean := true } ∧ laneRole t l 8 = 2)
              ∧ (p.copying = true → p.checks = false →
                (linkOf t l).rxSpare = none ∧ natO t (Obj.link.rxSpareFor l) = p.logical ∧ laneRole t l 8 = 0
                ∧ laneRole t l p.logical = 3 ∧ Raises s t 99 (laneNo l p.logical)
                ∧ ∃ seq, t.out = .braid l 1 seq 0xF1 (spareBytes p.logical) :: s.out)
              ∧ (p.copying = true → p.checks = true → badHeaders m.since ≠ 0 →
                (linkOf t l).rxSpare = none ∧ laneRole t l 8 = 3 ∧ Raises s t 104 (laneNo l p.logical)
                ∧ ∃ seq, t.out = .braid l 1 seq 0xF2 (spareBytes p.logical) :: s.out)))))
    ∧ (∀ (pos : Fin 16) (before : BitVec 58) (payload : BitVec 64), laneLocked s l lane = true → pos.val ≠ 0 →
        Completes (.pilot l lane pos ⟨before, payload⟩) s (fun t =>
        (natO s (Obj.lane.pilotBits n) + 64 < counterSpan (Obj.lane.pilotBits n) →
          natO t (Obj.lane.pilotBits n) = natO s (Obj.lane.pilotBits n) + 64)
        ∧ (let e := popCount (descrambled before payload ^^^ pilotBits pos)
           natO s (Obj.lane.pilotErrors n) + e < counterSpan (Obj.lane.pilotErrors n) →
           natO t (Obj.lane.pilotErrors n) = natO s (Obj.lane.pilotErrors n) + e)
        ∧ ObjectsKept s t [Obj.lane.pilotBits n, Obj.lane.pilotErrors n] ∧ ObjectsOnly s t))
    ∧ (let errors := natO s (Obj.lane.pilotErrors n)
       let exceeds := natO s (Obj.link.berThreshold l) < errors - (laneOf s l lane).pilotBase
       Completes (.berSecond l lane) s (fun t => laneOf t l lane = { laneOf s l lane with pilotBase := errors }
        ∧ (exceeds → Raises s t 100 n)
        ∧ (exceeds → laneRole s l lane = 0 → lane.val < 8 → linkActive s l = true → spareFree s l = true →
            (linkOf t l).rxSpare = some ⟨lane.val, false, true, true⟩)
        ∧ (¬ exceeds → t.obj = s.obj ∧ t.out = s.out)))
    ∧ (linkActive s l = true → laneRole s l lane = 3 → retrained s l lane = true → Completes (.laneRetrainDone l lane) s (fun t =>
        laneRole t l lane = 1 ∧ laneOf t l lane = { laneOf s l lane with
          trained := (laneOf s l lane).eq, atBound := false }))
    ∧ (laneRole s l lane = 3 → Completes (.laneRetrainTimeout l lane) s (fun t => laneRole t l lane = 4
        ∧ ObjectsKept s t [Obj.lane.role n] ∧ ObjectsOnly s t))
    ∧ (∀ p, (linkOf s l).txSpare = some p → Completes (.spareCopyStart l) s (fun t =>
        linkOf t l = { linkOf s l with txSpare := some { p with copying := true } } ∧ (∀ k, k ≠ l.val → linkOf t k = linkOf s k)
        ∧ laneOf t l 8 = { laneOf s l 8 with training := false } ∧ t.obj = s.obj ∧ t.out = s.out))
    ∧ (∀ f : BraidFrame, f.link = l → let k := msgField f 1 1
        (takenAs s f 0xF0 → (linkOf s l).txSpare = none → natO s (Obj.link.txSpareFor l) = 255 → k < natO s (Obj.link.txWidth l) →
          Completes (.spareReq f) s (fun t => (linkOf t l).txSpare = some ⟨k, false, true, true⟩))
        ∧ (∀ p, takenAs s f 0xF1 → (linkOf s l).txSpare = some p → p.copying = true → p.logical = k →
          Completes (.spareDone f) s (fun t => (linkOf t l).txSpare = none ∧ natO t (Obj.link.txSpareFor l) = k
            ∧ (laneOf t l k).training = true))
        ∧ (∀ p, takenAs s f 0xF2 → (linkOf s l).txSpare = some p → p.logical = k →
          Completes (.spareCancel f) s (fun t => (linkOf t l).txSpare = none ∧ natO t (Obj.link.txSpareFor l) = natO s (Obj.link.txSpareFor l)
            ∧ (laneOf t l 8).training = true))
        ∧ (takenAs s f 0xF3 → k = lane.val →
          let request := msgField f 2 1
          ((laneOf s l lane).lastReq ≠ some (request % 16) → Completes (.tune f) s (fun t =>
            let r := tuneTaps (request / 64) (request / 16 % 4) (natO s (Obj.lane.txPre n)) (natO s (Obj.lane.txPost n))
            natO t (Obj.lane.txPre n) = r.1 ∧ natO t (Obj.lane.txPost n) = r.2.1
            ∧ ∃ seq, t.out = .braid l 1 seq 0xF3 (natBE lane.val 1 ++ natBE (requestByte (laneOf s l lane)) 1
                ++ natBE (r.2.2.1 * 64 + r.2.2.2 * 16 + request % 16) 1) :: s.out))
          ∧ ((laneOf s l lane).lastReq = some (request % 16) → Completes (.tune f) s (fun t => t.out = s.out
            ∧ ((laneOf s l lane).waiting = true → msgField f 3 1 % 16 = (laneOf s l lane).reqId → (laneOf t l lane).waiting = false)))))

/-! ## Network -/

/-- R253 to R257, R250, R251, Table 9.6: a media packet of one enabled stream is counted, and held under its sample index when it
is in time, the first of its number; duplicates, late, early and malformed ones are counted apart; a silent path is lost with event
66; a transmit packet leaves on its paths, and one without room is an underrun; a link loss clears LINK, with event 64 or 70, and a
link gained sets it. The frames queued for a media port are lost with its link (log entry 131). -/
def Obligations.StreamCommands : Prop :=
  (∀ (s : State) (path : Fin 2) (p : RtpPacket) (n : Nat), n < 512 → pathRuns s path = true → getO s (Obj.rx.enable n) ≠ 0 →
    rxGroup s n path ≠ 0 → rxGroup s n path = p.dst → natO s (Obj.rx.udpPort n) = p.port →
    (∀ m, m < 512 → m ≠ n → getO s (Obj.rx.enable m) = 0 ∨ rxGroup s m path ≠ p.dst ∨ natO s (Obj.rx.udpPort m) ≠ p.port) →
    let size := packetSamples s.rst.rate (natO s (Obj.rx.packetTime n))
    let enc := natO s (Obj.rx.encoding n)
    let good := (rxSource s n path = 0 ∨ rxSource s n path = p.src) ∧ p.version = 2 ∧ p.extension = false ∧ p.csrcCount = 0
      ∧ p.payloadType = natO s (Obj.rx.payloadType n)
      ∧ p.payload.length = natO s (Obj.rx.channels n) * size * (if enc = 0 then 3 else 2)
    let i0 := nearestIndex ((p.timestamp : Int) - getO s (Obj.rx.rtpOffset n) - getO s Obj.tb.tsShift) (sampleIndex s s.frame)
      + getO s (Obj.rx.linkOffset n)
    let now : Int := (sampleIndex s s.frame : Nat)
    let early := s.frame + 240 < (i0 + size - 1).fdiv (frameSamples s : Nat)
    let forgotten := (i0 + size - 1).fdiv (frameSamples s : Nat) + 61 < s.frame
    let seen := s.net.seen.any (fun e => e.1 == n && e.2.1 == p.sequence)
    (good → Completes (.rtpPacket path p) s (fun t => CountsOne s t (Obj.rx.packets n path) ∧ natO t (Obj.rx.ssrc n) = p.ssrc
        ∧ (2 * n + path.val) ∈ t.net.hearing ∧ (2 * n + path.val) ∉ t.net.lossSeen
        ∧ (early → CountsOne s t (Obj.rx.early n) ∧ t.net.copies = s.net.copies)
        ∧ (¬ early → forgotten → t.net.copies = s.net.copies ∧ t.net.seen = s.net.seen)
        ∧ (¬ early → ¬ forgotten → seen = true → CountsOne s t (Obj.rx.duplicates n))
        ∧ (¬ early → ¬ forgotten → seen = false → i0 < now → CountsOne s t (Obj.rx.late n) ∧ Raises s t 67 n)
        ∧ (¬ early → seen = false → now ≤ i0 → 0 < size →
            s.net.copies.any (fun c => c.stream == n && c.path == path && c.seq == p.sequence) = false →
            t.net.copies = s.net.copies ++ [⟨n, path, p.sequence, i0.toNat, size, payloadSamples enc p.payload, crc32 p.payload,
              p.timestamp, p.payload⟩]
            ∧ getO t (Obj.rx.late n) = getO s (Obj.rx.late n) ∧ getO t (Obj.rx.duplicates n) = getO s (Obj.rx.duplicates n))))
    ∧ (¬ good → Completes (.rtpPacket path p) s (fun t => CountsOne s t (Obj.rx.bad n) ∧ t.net.copies = s.net.copies
        ∧ (Sparse.get (fun _ => 0) s.net.badAt n = 0 → Raises s t 69 n)
        ∧ ObjectsKept s t (Obj.rx.bad n :: eventKeys 69) ∧ EventsOnly s { t with net := s.net })))
  ∧ (∀ (s : State) (n : Fin 512) (path : Fin 2), let key := 2 * n.val + path.val
    getO s (Obj.rx.enable n) = 1 → rxGroup s n path ≠ 0 → s.net.lossSeen.contains key = false →
    Completes (.rxPathLoss n path) s (fun t => t.net = { s.net with lossSeen := s.net.lossSeen ++ [key]
                                                                    hearing := s.net.hearing.filter (· != key) }
      ∧ CountsOne s t (Obj.rx.pathLosses n) ∧ Raises s t 66 n ∧ ObjectsKept s t (Obj.rx.pathLosses n :: eventKeys 66)
      ∧ EventsOnly s { t with net := s.net }))
  ∧ (∀ (s : State) (n : Fin 512) (fullA fullB : Bool) (next : Nat), Sparse.get (fun _ => 0) s.net.txNext n.val = next + 1 → 3 ≤ stageOf s →
    let size := packetSamples s.rst.rate (natO s (Obj.tx.packetTime n))
    (∀ i, assocGet s.net.txUntil n = some i → i ≤ next * size → Completes (.rtpTx n fullA fullB) s (fun t =>
        t = driveEvtN { s with net := { s.net with txNext := Sparse.drop s.net.txNext n, txUntil := Sparse.drop s.net.txUntil n } }))
    ∧ (assocGet s.net.txUntil n = none → (next * size + size - 1) / frameSamples s ≤ s.frame → natO s (Obj.tx.paths n) = 1 →
        sendsPacket s 0 (next * size) = true →
        (fullA = false → pathUp s 0 = true → Completes (.rtpTx n fullA fullB) s (fun t =>
          (∃ fields, t.out = .eth 5 "rtp" fields (rtpHeader s n next ++ rtpPayload s n next) :: s.out)
          ∧ CountsOne s t (Obj.tx.packets n) ∧ Sparse.get (fun _ => 0) t.net.txNext n.val = next + 2
          ∧ ObjectsKept s t [Obj.tx.packets n]))
        ∧ (fullA = true ∨ pathUp s 0 = false → Completes (.rtpTx n fullA fullB) s (fun t => t.out = s.out
          ∧ CountsOne s t (Obj.tx.underruns n) ∧ Raises s t 68 n ∧ Sparse.get (fun _ => 0) t.net.txNext n.val = next + 2))))
  ∧ (∀ (s : State) (p : Fin 5),
    (portUp s p = true → Completes (.portLinkDown p) s (fun t => portUp t p = false ∧ CountsOne s t (Obj.port.linkDowns p)
        ∧ Raises s t (if p = 4 then 70 else 64) p ∧ EventsOnly s { t with net := s.net }
        ∧ (p.val < 4 → s.net.paths.length = 2 → (pathOf s (p / 2)).queues.length = 3 → queuesOf t (p / 2) (p % 2) = [[], [], [], []])))
    ∧ (getO s (Obj.port.enable p) ≠ 0 → 2 ≤ stageOf s → (p.val < 4 → inReset s (pathBlock (p / 2)) = false) →
        Completes (.portLinkUp p) s (fun t => portUp t p = true ∧ EventsOnly s t
          ∧ (∀ k : Nat, k ≠ Obj.port.link p → k ≠ Obj.evt.status 64 → k ≠ Obj.evt.status 70 → getO t k = getO s k))))

/-- R239 to R246: a frame with an error, or one that is too long, is counted and goes no further; a sound one goes into its queue at the
port its destination was learned at, or at each other port, or is dropped and counted where that queue is full, and a port sends the
frame of the highest queue first; tables age; reports and queries keep the memberships, and a query is answered; the ring breaker
probes, opens with event 71 and closes; a flush clears the table; ARP and ICMP echo are answered. The frames are represented as log
entry 43 says, a querier of version 2 is that of log entry 132. -/
def Obligations.SwitchCommands : Prop :=
  ∀ (s : State) (path : Fin 2), s.net.paths.length = 2 → let v := pathOf s path
    (∀ (f : EthFrame) (port : Fin 3), port.val < 2 → pathRuns s path = true → portUp s (portNo path port) = true →
      f.sound = false ∨ 1522 < f.length →
      Completes (.switchFrame path.castSucc port f) s (fun t => CountsOne s t (Obj.port.rxErrors (portNo path port))
        ∧ t.out = s.out ∧ t.net = s.net))
    ∧ (∀ (f : EthFrame) (port : Fin 3), port.val < 2 → 2 ≤ stageOf s → portUp s 4 = true →
      (f.sound = false ∨ 1522 < f.length → Completes (.switchFrame 2 port f) s (fun t => CountsOne s t (Obj.port.rxErrors 4)
        ∧ t.out = s.out))
      ∧ (f.sound = true → f.length ≤ 1522 → Completes (.switchFrame 2 port f) s (fun t => CountsOne s t (Obj.port.rxFrames 4)
        ∧ t.net = s.net)))
    ∧ (∀ (f : EthFrame), pathRuns s path = true → portUp s (portNo path 0) = true → portUp s (portNo path 1) = true → f.length ≤ 1522 →
      f.sound = true → ¬ (0x0180C2000000 ≤ f.dst ∧ f.dst ≤ 0x0180C200000F) → assocGet v.macs f.dst = some 1 ∨ assocGet v.macs f.dst = none →
      f.dst ≠ ifcMac s path → groupMac f.dst = false → groupMac f.src = false → f.src ≠ f.dst → v.macs.length < 4096 →
      ringState s path ≠ 1 → f.ptp = none → v.queues.length = 3 → (queuesOf s path 1).length = 4 →
      let c := queueOf s path f
      let q := (queuesOf s path 1).getD c []
      let full := 262144 < q.foldl (fun n x => n + x.2.length) 0 + f.length
      (f.sent = (0, 0, 0) → Completes (.switchFrame path.castSucc 0 f) s (fun t => CountsOne s t (Obj.port.rxFrames (portNo path 0))
        ∧ assocGet (pathOf t path).macs f.src = some 0 ∧ t.out = s.out
        ∧ (¬ full → queuesOf t path 1 = (queuesOf s path 1).set c (q ++ [(0, f)]))
        ∧ (full → queuesOf t path 1 = queuesOf s path 1 ∧ CountsOne s t (Obj.port.drops (portNo path 1)))))
      ∧ (f.sent = (0, 1, 0) → queuesOf s path 1 = [[], [], [], []] → Completes (.switchFrame path.castSucc 0 f) s (fun t =>
        (∃ fields, t.out = .eth (portNo path 1) "frame" ([(f.dst : Int), f.src] ++ fields) [] :: s.out)
        ∧ CountsOne s t (Obj.port.txFrames (portNo path 1)) ∧ CountsOne s t (Obj.ifc.forwarded (ifcElem s path))
        ∧ queuesOf t path 1 = [[], [], [], []]))
      ∧ (∀ p x r, f.sent = (0, 1, 0) → queuesOf s path 1 = [(p, x) :: r, [], [], []] → x.ptp = none → ¬ full →
        Completes (.switchFrame path.castSucc 0 f) s (fun t =>
          (∃ fields, t.out = .eth (portNo path 1) "frame" ([(x.dst : Int), x.src] ++ fields) [] :: s.out)
          ∧ (queuesOf t path 1).getD c [] = (if c = 0 then r else []) ++ [(0, f)])))
    ∧ (∀ src q, Completes (.twoStepHoldExpiry path src q) s (fun t => pathOf t path = { v with
        holds := v.holds.filter (fun h => !(h.1 == src && h.2.1 == q)) } ∧ t.obj = s.obj ∧ t.out = s.out))
    ∧ (∀ mac, Completes (.macAgeExpiry path mac) s (fun t => pathOf t path = { v with macs := v.macs.filter (·.1 != mac) }
        ∧ natO t (Obj.ifc.macEntries (ifcElem s path)) = (v.macs.filter (·.1 != mac)).length
        ∧ ObjectsKept s t [Obj.ifc.macEntries (ifcElem s path)] ∧ t.out = s.out))
    ∧ (∀ (port : Fin 2) (g : Nat), Completes (.membershipExpiry path port g) s (fun t =>
        (∀ x, x ∈ (pathOf t path).members ↔ x ∈ v.members ∧ x ≠ (g, port.val)) ∧ t.obj = s.obj ∧ t.out = s.out))
    ∧ (pathRuns s path = true →
      (∀ (port : Fin 2) (g : Nat), getO s (Obj.ifc.igmpSnoop (ifcElem s path)) ≠ 0 → Completes (.igmpReport path port g) s (fun t =>
          (∀ x, x ∈ (pathOf t path).members ↔ x ∈ v.members ∨ x = (g, port.val)) ∧ t.obj = s.obj ∧ t.out = s.out))
      ∧ (∀ (port : Fin 2) (version : Nat), Completes (.igmpQuery path port version) s (fun t =>
          port.val ∈ (pathOf t path).queriers ∧ (pathOf t path).v2At = (if version = 2 then s.rst.upFrames + 1 else v.v2At)
          ∧ t.out = .eth (5 + path) "igmp report" ((if version = 2 ∨ hearsV2 s path = true then 2 else 3)
              :: List.map Int.ofNat (ownGroups s path)) [] :: s.out))
      ∧ (∀ b, breaker s path = some b → ringSends s path = true → Completes (.ringProbeSend path) s (fun t =>
          t = driveEvtN { s with out := .eth (portNo path (1 - b)) "probe" [ringType] [] :: s.out }))
      ∧ ((breaker s path).isSome = true → ringState s path = 1 → Completes (.ringProbeMiss path) s (fun t => ringState t path = 2
          ∧ Raises s t 71 path
          ∧ ∀ e : Fin 2, ringSends s path = true → portUp s (portNo path e) = true → .eth (portNo path e) "flush" [ringType] [] ∈ t.out))
      ∧ (∀ port : Fin 2, Completes (.flushFrame path port) s (fun t => (pathOf t path) = { v with macs := [] }
          ∧ natO t (Obj.ifc.macEntries (ifcElem s path)) = 0
          ∧ (ringState s path = 1 → t.out = s.out)
          ∧ (ringState s path ≠ 1 → portUp s (portNo path (1 - port)) = true →
              t.out = .eth (portNo path (1 - port)) "flush" [ringType] [] :: s.out))))
    ∧ ((breaker s path).isSome = true → ringState s path = 2 → Completes (.ringRestore path) s (fun t => ringState t path = 1
        ∧ ∀ e : Fin 2, ringSends s path = true → portUp s (portNo path e) = true → .eth (portNo path e) "flush" [ringType] [] ∈ t.out))
    ∧ (∀ (i : Fin 3) (mac ip : Nat), ifcRuns s i = true → exec (.arpRequest i (ifcAddress s i) mac ip) s
        = .next (driveEvtN { s with out := .eth (ifcPort i) "arp reply" [ifcMac s i, ifcAddress s i, mac, ip] [] :: s.out }))
    ∧ (∀ (i : Fin 3) (src id seq : Nat) (data : List Byte), ifcRuns s i = true → exec (.icmpEcho i (ifcAddress s i) src id seq data) s
        = .next (driveEvtN { s with out := .eth (ifcPort i) "icmp echo reply" [ifcAddress s i, src, id, seq] data :: s.out }))

/-- R260 to R267: Sync and Follow_Up give the offset, used, or set aside as an outlier; the best master of those qualified is followed;
delay requests and responses, of one step or two, give the path delay, and at a port of a peer-to-peer transparent clock the delay of
its link; missing Announce or Sync messages lose the lock; a step no grandmaster explains is judged as a path shift, with event 45.
The servo is opaque, the handling of first offsets and outliers is that of log entry 35, and which master is qualified that of log
entry 134. -/
def Obligations.NetworkTime : Prop :=
  ∀ (s : State) (i : Fin 2), s.time.inst.length = 2 → let v := ptpOf s i
    (∀ (port : Fin 2) (m : PtpMsg), hears s i m = true → -7 ≤ m.interval → m.interval ≤ 1 → m.twoStep = true →
      Completes (.sync i port m) s (fun t => ptpOf t i = { v with waitSync := some (m, port.val) } ∧ t.obj = s.obj ∧ t.out = s.out))
    ∧ (∀ (c : Instr) (port : Nat) (w : PtpMsg) (t1 : Int), SyncBy s i c port w t1 →
        let t2 := ballIngress s i port w.ingress
        let offset := t2 - t1 - getO s (Obj.ptp.meanPathDelay i) - getO s (Obj.cal.asymmetry (portNo i port))
        (natO s (Obj.ptp.state i) = 4 → Completes c s (fun t => getO t (Obj.ptp.offset i) = offset
          ∧ ptpOf t i = { v with syncT := some (t1, t2), port := port, waitSync := none } ∧ ObjectsKept s t [Obj.ptp.offset i]))
        ∧ (natO s (Obj.ptp.state i) ≠ 4 → 655360000 < (offset - v.predict).natAbs → v.outliers.length < 2 → Completes c s (fun t =>
          getO t (Obj.ptp.offset i) = offset ∧ (ptpOf t i).outliers = offset :: v.outliers ∧ (ptpOf t i).syncT = some (t1, t2)
          ∧ ObjectsKept s t [Obj.ptp.offset i]))
        ∧ (natO s (Obj.ptp.state i) = 1 ∨ natO s (Obj.ptp.state i) = 2 → (offset - v.predict).natAbs ≤ 655360000 → v.inside < 15 →
          Completes c s (fun t => getO t (Obj.ptp.offset i) = offset ∧ natO t (Obj.ptp.state i) = 2
            ∧ CountsOne s t (Obj.ptp.syncs i) ∧ (ptpOf t i).outliers = [] ∧ (ptpOf t i).syncT = some (t1, t2)
            ∧ (ptpOf t i).inside = (if offset.natAbs ≤ natO s (Obj.ptp.lockWindow i) * 65536 then v.inside + 1 else 0)
            ∧ ObjectsKept s t [Obj.ptp.offset i, Obj.ptp.ratePpb i, Obj.ptp.syncs i, Obj.ptp.state i])))
    ∧ (∀ (m w : PtpMsg) (port : Nat), hears s i m = true → v.waitSync = some (w, port) → w.sourcePort = m.sourcePort → w.seqId = m.seqId →
        let t1 := m.origin + m.correction + w.correction
        let t2 := ballIngress s i port w.ingress
        let offset := t2 - t1 - getO s (Obj.ptp.meanPathDelay i) - getO s (Obj.cal.asymmetry (portNo i port))
        natO s (Obj.ptp.state i) = 4 ∨ (offset - v.predict).natAbs ≤ 655360000 →
        Completes (.followUp i m) s (fun t => getO t (Obj.ptp.offset i) = offset ∧ (ptpOf t i).syncT = some (t1, t2)
          ∧ (ptpOf t i).waitSync = none ∧ (ptpOf t i).port = port))
    ∧ (∀ m : PtpMsg, natO s (Obj.ptp.state i) ≠ 0 → m.domain = natO s (Obj.ptp.domain i) → -3 ≤ m.interval → m.interval ≤ 4 →
        let ms := hearMaster s.rst.upFrames v.masters m
        let best := bestMaster ((ms.filter Master.qualified).map (·.msg))
        (best = none → Completes (.announce i m) s (fun t => ptpOf t i = { v with masters := ms } ∧ t.obj = s.obj ∧ t.out = s.out))
        ∧ (∀ b, best = some b → Completes (.announce i m) s (fun t => (ptpOf t i).masters = ms ∧ (ptpOf t i).master = some b.sourcePort
          ∧ natO t (Obj.ptp.gmIdentity i) = b.gmIdentity ∧ natO t (Obj.ptp.gmClass i) = b.gmClass
          ∧ (natO s (Obj.ptp.gmIdentity i) ≠ b.gmIdentity → Raises s t 46 i))))
    ∧ (∀ egress : Int, natO s (Obj.ptp.state i) ≠ 0 → pathRuns s i = true → let p2p := getO s (Obj.ptp.delayMechanism i) == 1
        p2p = true ∨ v.master.isSome = true → Completes (.delayReqSend i ⟨2, egress⟩) s (fun t =>
          ptpOf t i = { v with reqOut := some (egress + getO s (Obj.cal.egressLatency (portNo i v.port))), respWait := none }
          ∧ (∃ fields, t.out = .eth (5 + i) (if p2p then "pdelay req" else "delay req") fields [] :: s.out) ∧ t.obj = s.obj))
    ∧ (∀ (ext : Fin 3) (egress : Int), ext.val < 2 → natO s (Obj.ifc.tcMode (ifcElem s i)) = 2 → pathRuns s i = true →
        portUp s (portNo i ext) = true → s.net.paths.length = 2 → (pathOf s i).reqOut.length = 2 →
        Completes (.delayReqSend i ⟨ext, egress⟩) s (fun t =>
          (pathOf t i).reqOut[ext.val]? = some (some (egress + getO s (Obj.cal.egressLatency (portNo i ext))))
          ∧ (∃ fields, t.out = .eth (portNo i ext) "pdelay req" fields [] :: s.out) ∧ t.obj = s.obj ∧ t.time = s.time))
    ∧ (∀ (m : PtpMsg) (t3 : Int), natO s (Obj.ptp.state i) ≠ 0 → m.domain = natO s (Obj.ptp.domain i) → v.reqOut = some t3 →
        (getO s (Obj.ptp.delayMechanism i) = 1 → m.msgType = 3 → m.twoStep = false → Completes (.delayResp i m) s (fun t =>
            getO t (Obj.ptp.meanPathDelay i) = (ballIngress s i v.port m.ingress - t3 - m.correction).fdiv 2
            ∧ ptpOf t i = { v with reqOut := none, respWait := none } ∧ ObjectsKept s t [Obj.ptp.meanPathDelay i]))
        ∧ (getO s (Obj.ptp.delayMechanism i) = 1 → m.msgType = 3 → m.twoStep = true → Completes (.delayResp i m) s (fun t =>
            ptpOf t i = { v with respWait := some m } ∧ t.obj = s.obj))
        ∧ (∀ w, getO s (Obj.ptp.delayMechanism i) = 1 → m.msgType = 10 → v.respWait = some w → w.sourcePort = m.sourcePort →
            w.seqId = m.seqId → Completes (.delayResp i m) s (fun t =>
            getO t (Obj.ptp.meanPathDelay i)
              = (ballIngress s i v.port w.ingress - t3 - (m.origin - w.origin) - w.correction - m.correction).fdiv 2
            ∧ ptpOf t i = { v with reqOut := none, respWait := none } ∧ ObjectsKept s t [Obj.ptp.meanPathDelay i]))
        ∧ (∀ t1 t2, getO s (Obj.ptp.delayMechanism i) ≠ 1 → m.msgType = 9 → v.master = some m.sourcePort → v.syncT = some (t1, t2) →
            Completes (.delayResp i m) s (fun t =>
              getO t (Obj.ptp.meanPathDelay i) = ((t2 - t1) + (m.origin - m.correction - t3)).fdiv 2
              ∧ ptpOf t i = { v with reqOut := none } ∧ ObjectsKept s t [Obj.ptp.meanPathDelay i])))
    ∧ (∀ (port : Fin 3) (m : PtpMsg) (egress : Int), port.val < 2 → natO s (Obj.ifc.tcMode (ifcElem s i)) = 2 → pathRuns s i = true →
        let n := portNo i port
        let inT := m.ingress - getO s (Obj.cal.ingressLatency n)
        let outT := egress + getO s (Obj.cal.egressLatency n)
        (m.msgType = 2 → exec (.pdelayMessage i port m egress) s = .next (driveEvtN { s with
            out := .eth n "pdelay resp" [m.domain, m.sourcePort, m.seqId, outT - inT + m.correction] [] :: s.out }))
        ∧ (∀ t1, (pathOf s i).reqOut[port.val]? = some (some t1) →
            (m.msgType = 3 → m.twoStep = false → Completes (.pdelayMessage i port m egress) s (fun t =>
              getO t (Obj.cal.peerDelay n) = (inT - t1 - m.correction).fdiv 2 ∧ ObjectsKept s t [Obj.cal.peerDelay n]
              ∧ t.out = s.out ∧ t.time = s.time))
            ∧ (∀ w, m.msgType = 10 → (pathOf s i).respWait[port.val]? = some (some w) → w.sourcePort = m.sourcePort → w.seqId = m.seqId →
                Completes (.pdelayMessage i port m egress) s (fun t =>
                  getO t (Obj.cal.peerDelay n) = (w.ingress - getO s (Obj.cal.ingressLatency n) - t1 - (m.origin - w.origin)
                    - w.correction - m.correction).fdiv 2
                  ∧ ObjectsKept s t [Obj.cal.peerDelay n] ∧ t.out = s.out ∧ t.time = s.time))))
    ∧ Completes (.announceTimeout i) s (fun t =>
        let ms := v.masters.filter (fun x => v.master != some x.msg.sourcePort)
        (ptpOf t i).masters = ms ∧ (ptpOf t i).waitSync = none
        ∧ (ptpOf t i).master = (bestMaster ((ms.filter Master.qualified).map (·.msg))).map (·.sourcePort)
        ∧ (natO s (Obj.ptp.state i) = 2 → natO t (Obj.ptp.state i) = 1)
        ∧ (natO s (Obj.ptp.state i) = 3 → natO t (Obj.ptp.state i) = 5 ∧ CountsOne s t (Obj.ptp.lockLosses i)
            ∧ Raises s t (42 + i) i))
    ∧ (natO s (Obj.ptp.state i) = 3 → Completes (.syncTimeout i) s (fun t => natO t (Obj.ptp.state i) = 5
        ∧ CountsOne s t (Obj.ptp.lockLosses i) ∧ Raises s t (42 + i) i ∧ (ptpOf t i).inside = 0 ∧ (ptpOf t i).outside = 0
        ∧ (ptpOf t i).outliers = [] ∧ (ptpOf t i).pending = none))
    ∧ (∀ (d : Int) (was : Nat) (a b : Int), v.pending = some (d, was) → Completes (.stepPendingTimeout i a b) s (fun t =>
        (ptpOf t i).counter = (v.counter + d * 65536) % counterSize ∧ (ptpOf t i).pending = none ∧ natO t (Obj.ptp.state i) = was
        ∧ (isGrandmasterStep s i = false → getO t Obj.tb.asymShift = roundDiv d nsUnit ∧ Raises s t 45 noDetail)))

/-! ## References and clocks -/

/-- R276 to R284, R288, R289: a window measures an entry, which fails outside its limits, with event 33, counted; a source that
goes away disqualifies it with event 32; after QUAL_TIME, or WTR, it is selectable with event 34; at the boundary of a switch the
new entry is selected, with event 35 and the step handled; a PLL that unlocks raises event 47 and asks for a step; a glide ends;
the PLLs lock. R23, R24: a switch or a join that takes FRAME_NO from PTP or from the leader jumps at its boundary; the lead by
which it jumps is never negative (log entry 40). -/
def Obligations.ClockCommands : Prop :=
  ∀ (s : State), s.sel.entries.length = 8 →
    (∀ (e : Fin 8) (ppb : Int) (jitter : Nat) (ns : Int), s.sel.running = true → let r := entryOf s e
      let ok := ppb.natAbs ≤ natO s (Obj.ref.hardLimit e) ∧ jitter ≤ natO s (Obj.ref.jitterLimit e)
      Completes (.refWindow e ppb jitter ns) s (fun t => getO t (Obj.ref.offsetPpb e) = ppb ∧ natO t (Obj.ref.jitterNs e) = jitter
        ∧ (entryOf t e).raw = ns ∧ (entryOf t e).present = sourcePresent s e ∧ ((entryOf t e).limitsOk = true ↔ ok)
        ∧ (r.qualified = true → sourcePresent s e = true → ¬ ok → (entryOf t e).qualified = false ∧ (entryOf t e).selectable = false
            ∧ Raises s t 33 e ∧ CountsOne s t (Obj.ref.disqualifications e))
        ∧ (sourcePresent s e = true → classOk s e = true → ok → (entryOf t e).qualified = r.qualified
            ∧ (entryOf t e).selectable = r.selectable)
        ∧ (∀ k : Nat, k ≠ e.val → entryOf t k = entryOf s k)))
    ∧ (∀ e : Fin 8, (entryOf s e).present = true → (entryOf s e).qualified = true → Completes (.refAbsent e) s (fun t =>
        (entryOf t e).present = false ∧ (entryOf t e).qualified = false ∧ (entryOf t e).selectable = false
        ∧ Raises s t 32 e ∧ CountsOne s t (Obj.ref.disqualifications e) ∧ ∀ k : Nat, k ≠ e.val → entryOf t k = entryOf s k))
    ∧ (∀ e : Fin 8, (entryOf s e).qualified = false → conditionsHold s e = true →
        ((entryOf s e).requal = true → natO s (Obj.ref.wtr e) ≠ 0 → Completes (.refQualTime e) s (fun t =>
          entryOf t e = { entryOf s e with qualified := true, since := s.rst.upFrames } ∧ t.obj = s.obj))
        ∧ ((entryOf s e).requal = false ∨ natO s (Obj.ref.wtr e) = 0 → Completes (.refQualTime e) s (fun t =>
          entryOf t e = { entryOf s e with qualified := true, selectable := true, requal := false } ∧ Raises s t 34 e)))
    ∧ (∀ e : Fin 8, (entryOf s e).qualified = true → (entryOf s e).selectable = false → conditionsHold s e = true →
        Completes (.refWtrExpiry e) s (fun t => entryOf t e = { entryOf s e with selectable := true, requal := false } ∧ Raises s t 34 e))
    ∧ (∀ p : Pending, s.sel.pending = some p → p.frame ≤ s.frame + 1 → p.jump = 0 → s.sel.steps = none → s.sel.later = 0 →
        selectedEntry s ≠ some p.entry → Completes .refSwitchApply s (fun t => natO t Obj.sel.selected = p.entry
          ∧ natO t Obj.sel.lastSwitch = s.frame + 1 ∧ CountsOne s t Obj.sel.switches ∧ t.sel.pending = none
          ∧ natO t Obj.pll.lastStepFrame = s.frame + 1
          ∧ (4 * p.step3.natAbs ≤ (sample3 s).toNat → natO t Obj.pll.lastAction = 1 ∧ t.sel.glide6 = s.sel.glide6 + 2 * p.step3)))
    ∧ (∀ p : Pending, s.sel.pending = some p → p.frame ≤ s.frame + 1 → p.jump ≠ 0 → s.sel.steps = none → s.sel.later = 0 →
        Completes .refSwitchApply s (fun t => t.frame + 1 = min (s.frame + 1 + p.ahead) 281474976710655
          ∧ t.sel.pending = none ∧ natO t Obj.pll.lastStepFrame = min (s.frame + 1 + p.ahead) 281474976710655
          ∧ (p.jump = 1 → natO t Obj.clk.epoch = 1)
          ∧ (p.jump = 1 → selectedEntry s ≠ some p.entry → natO t Obj.sel.selected = p.entry ∧ CountsOne s t Obj.sel.switches)))
    ∧ (∀ ns : Int, s.sel.running = true → Completes (.pllUnlock ns) s (fun t => Raises s t 47 noDetail
        ∧ getO t Obj.pll.phaseError = sat (-2147483648) 2147483647 ns
        ∧ (isStandby s = true → t.sel = s.sel)
        ∧ (isStandby s = false → ns ≠ 0 → s.sel.steps = none → s.sel.pending = none → ∃ b re, t.sel = { s.sel with steps := some (b, 3 * ns, re) }
            ∧ b = (if re then s.frame + 18 else s.frame + 6))
        ∧ ObjectsKept s t (Obj.pll.phaseError :: eventKeys 47)))
    ∧ Completes .glideEnd s (fun t =>
        (s.sel.glide6 ≠ 0 → t.sel = { s.sel with glide6 := 0 } ∧ natO t Obj.pll.glideLeft = 0 ∧ ObjectsKept s t [Obj.pll.glideLeft])
        ∧ (s.sel.glide6 = 0 → t.sel = { s.sel with slew6 := 0 } ∧ natO t Obj.tb.slewRemaining = 0
            ∧ ObjectsKept s t [Obj.tb.slewRemaining]))
    ∧ (3 ≤ s.rst.released → exec .pllLock s = .next (driveEvtN { s with rst := { s.rst with pllLocked := true } }))

/-! ## Pair -/

/-- R294, R296, R297, R300, R305, R310, R313, Tables 13.2 and 13.3: PAIR_ALIVE classifies the partner; its absence ends what needs
it; after the watch a unit takes its role, Unit B on a high line only after its further wait; a standby takes over with events 128
and 129; a unit without its tick raises event 141 and leaves step; a path is handed over at its frame; a partner's reset request
resets this unit cold. Which partner lets an active unit leave the pair is log entry 82. -/
def Obligations.PairRoles : Prop :=
  ∀ s : State,
    (∀ ns, pairRuns s = true → let k := if ns ≤ 52000 then 1 else if ns ≤ 73000 then 2 else if ns ≤ 125000 then 3 else 0
      let runs := if k = 1 then s.pair.activeRuns + 1 else 0
      (k ≠ 3 → runs < 3 → exec (.pairAliveEdge ns) s
        = .next (driveEvtN { s with pair := { s.pair with partnerKind := k, activeRuns := runs } }))
      ∧ (k = 3 → pairState s = 3 → Completes (.pairAliveEdge ns) s (fun t => pairState t = 1 ∧ natO t Obj.pair.exposed = 1
          ∧ t.pair.pathsSent = [true, true] ∧ t.pair.partnerKind = 3))
      ∧ (3 ≤ runs → s.pair.watching = 0 → isActive s = true → s.pins.unitB = true → Completes (.pairAliveEdge ns) s (fun t =>
          natO t Obj.pair.role = 1 ∧ pairState t = 7 ∧ t.pair.pullsRole = false ∧ Raises s t 129 noDetail)))
    ∧ (pairRuns s = true → Completes .partnerAbsent s (fun t => natO t Obj.pair.partnerState = 255 ∧ t.pair.partnerKind = 0
        ∧ (pairState s = 3 → pairState t = 1) ∧ (pairState s = 5 → pairState t = 9)
        ∧ (pairState s = 2 → pairState t = 1 ∧ natO t Obj.pair.abortCause = 2 ∧ CountsOne s t Obj.pair.resyncAborts ∧ Raises s t 134 noDetail)
        ∧ (pairState s = 6 → pairState t = 9 ∧ natO t Obj.pair.abortCause = 1 ∧ CountsOne s t Obj.pair.resyncAborts
            ∧ Raises s t 134 noDetail)
        ∧ (pairState s = 8 → getO s Obj.pair.takeoverSilent ≠ 1 → pairState t = 9)
        ∧ (pairState s = 4 → pairState t = 4)))
    ∧ (pairRuns s = true → s.pair.watching = 1 →
        (s.pair.roleHigh = false → Completes .roleWatchEnd s (fun t => natO t Obj.pair.role = 1 ∧ t.pair.watching = 0
          ∧ pairState t = (if s.pair.partnerKind = 0 then 9 else 5) ∧ t.pair.pathsSent = [false, false] ∧ t.pair.pullsRole = false))
        ∧ (s.pair.roleHigh = true → s.pins.unitB = false → Completes .roleWatchEnd s (fun t => natO t Obj.pair.role = 0
          ∧ t.pair.watching = 0 ∧ pairState t = 1 ∧ t.pair.pullsRole = true ∧ t.pair.pathsSent = [true, true]))
        ∧ (s.pair.roleHigh = true → s.pins.unitB = true → exec .roleWatchEnd s
            = .next (driveEvtN { s with pair := { s.pair with watching := 2 } })))
    ∧ (pairRuns s = true → s.pair.watching = 2 → Completes .unitBRoleWait s (fun t => t.pair.watching = 0
        ∧ (s.pair.roleHigh = true → natO t Obj.pair.role = 0 ∧ pairState t = 1 ∧ t.pair.pullsRole = true)
        ∧ (s.pair.roleHigh = false → natO t Obj.pair.role = 1 ∧ pairState t = (if s.pair.partnerKind = 0 then 9 else 5))))
    ∧ (∀ high, Completes (.pairRoleChange high) s (fun t => t.pair = { s.pair with roleHigh := high && !s.pair.pullsRole } ∧ t.obj = s.obj
        ∧ (stageOf s ≠ 1 → t.conf = s.conf)))
    ∧ (∀ b, pairRuns s = true → isStandby s = true → pairState s = 4 ∨ pairState s = 7 ∨ (pairState s = 8 ∧ getO s Obj.pair.takeoverSilent = 1) →
        b = true ∨ ((linkOf s 0).fcLost && (linkOf s 1).fcLost) = true → Completes (.takeover b) s (fun t => natO t Obj.pair.role = 0
          ∧ pairState t = 1 ∧ natO t Obj.pair.lastFailover = s.frame ∧ natO t Obj.pair.lastCause = (if b then 2 else 1)
          ∧ CountsOne s t Obj.pair.failovers ∧ Raises s t 128 noDetail ∧ Raises s t 129 noDetail ∧ t.pair.pathsSent = [true, true]
          ∧ (pairState s ≠ 4 → natO t Obj.pair.unverified = 1)
          ∧ (pairState s = 4 → natO t Obj.pair.unverified = natO s Obj.pair.unverified)))
    ∧ (2 ≤ stageOf s → Completes .tickWatchdog s (fun t => Raises s t 141 noDetail
        ∧ (pairState s = 4 → isActive s = false → pairState t = 7 ∧ t.pair.aliveOut = 3 ∧ t.pair.pathsSent = [false, false])
        ∧ (pairRuns s = true → isActive s = true → natO s Obj.pair.partnerState ∈ [4, 7, 8] → pairState s ≠ 0 →
            t.pair.tickLost = true ∧ t.pair.pullsRole = false ∧ t.pair.aliveOut = 0 ∧ linkState t 0 = 0 ∧ linkState t 1 = 0)))
    ∧ (∀ (p : Fin 2) (z : Nat) (take : Bool), s.pair.handovers.find? (fun h => h.1 == p.val) = some (p.val, z, take) → z ≤ s.frame + 1 →
        exec (.pathHandover p) s = .next (driveEvtN { s with pair := { s.pair with
          pathsSent := s.pair.pathsSent.set p take, handovers := s.pair.handovers.filter (fun h => h.1 != p.val) } }))
    ∧ (∀ f : BraidFrame, takenAs s f 0x16 → f.link.val ≤ 1 → msgField f 1 1 = 5 → pairRuns s = true → pairState s = 4 →
        Completes (.handoverFrame f) s (fun t => t.pair = { s.pair with handovers := [(ownPath s, msgField f 2 6, true)] }))
    ∧ (∀ f : BraidFrame, takenAs s f 0x16 → f.link.val ≤ 1 → msgField f 1 1 = 6 → s.rst.pairEnable = true → 2 ≤ stageOf s →
        Completes (.partnerResetRequest f) s (fun t => 4 ∈ t.rst.asserted ∧ 4 ∈ t.rst.sources ∧ t.rst.cold = true
          ∧ t.cells = [] ∧ t.braid = Braid.reset))

/-- R302 to R307, R309, R348, R50: a part of the partner's AGREE is noted with its records, once, and its arrival measures the skew of the ticks; a differing digest raises event 130 and
parts the units; without AGREE the frame is missed, and after six the pair is out of step; fills and captures of the partner are
adopted; the standby journals a decided request and confirms it, and takes a decision of the active unit over; the active unit then
answers; a forwarded request reaches the active unit as its session's own, and one that finds its control complex in reset goes back
with BUSY (log entry 137). The layouts of FILL and JOURNAL are those of log entry 63. -/
def Obligations.PairAgreement : Prop :=
  (∀ (s : State) (f : BraidFrame), takenAs s f 0x10 → pairRuns s = true → f.link.val ≤ 1 → agreeOk s f = true → msgField f 2 6 = s.frame →
    s.pair.agreeClosed = false → ∀ ns : Int, let part := msgField f 22 1
    (s.pair.agreeParts ≠ [] → s.pair.agreeParts.contains part = false → msgField f 23 1 = 0 → s.pair.agreeLast = none →
      Completes (.agree ⟨f, ns⟩) s (fun t => (isStandby s = true → getO t Obj.pair.tickSkew = max (-2147483648) (min 2147483647 ns))
        ∧ t.pair = { s.pair with
          agreeParts := part :: s.pair.agreeParts, records := s.pair.records ++ agreeRecords f, agreeMissing := 0 }
        ∧ t.out = s.out))
    ∧ (s.pair.agreeParts ≠ [] → s.pair.agreeParts.contains part = true → Completes (.agree ⟨f, ns⟩) s (fun t => t.pair = s.pair ∧ t.out = s.out))
    ∧ (∀ own, s.pair.agreeParts = [] → 0 < s.frame → pairState s = 3 → assocGet s.pair.digests (s.frame - 1) = some own →
        own ≠ msgField f 8 8 → (msgField f 1 1).testBit 1 = false → Completes (.agree ⟨f, ns⟩) s (fun t => pairState t = 1
          ∧ CountsOne s t Obj.pair.divergences ∧ natO t Obj.pair.lastDiverge = s.frame - 1 ∧ Raises s t 130 noDetail
          ∧ t.pair.pathsSent = [true, true])))
  ∧ (∀ s : State, agrees s = true → s.pair.agreeClosed = false → s.pair.agreeParts = [] → Completes .agreeTimeout s (fun t =>
      CountsOne s t Obj.pair.agreeMissed ∧ t.pair.agreeClosed = true ∧ t.pair.agreeMissing = s.pair.agreeMissing + 1
      ∧ (s.pair.agreeMissing < 5 → pairState t = pairState s ∧ ObjectsKept s t [Obj.pair.agreeMissed])
      ∧ (5 ≤ s.pair.agreeMissing → pairState s = 3 → pairState t = 1)
      ∧ (5 ≤ s.pair.agreeMissing → pairState s = 4 → pairState t = 7 ∧ t.pair.pathsSent = [false, false])))
  ∧ (∀ (s : State) (f : BraidFrame), takenAs s f 0x11 → agrees s = true → f.link.val ≤ 1 → msgField f 6 1 ≤ 1 → msgField f 5 1 = 1 →
      let v := parseBlock (2 + msgField f 6 1) ((frameBytes f).drop 7)
      blockBad s ((frameBytes f).drop 7) = false → v.seq = msgField f 1 4 → s.frame < v.frame + 4 →
      s.array.copies.any (fun y => y.link == v.link && y.seq == v.seq && y.frame == v.frame) = false →
      Completes (.fill f) s (fun t => t.array = { s.array with copies := s.array.copies ++ [v] } ∧ (v.frame + 4) ∈ t.pair.fills
        ∧ t.out = s.out))
  ∧ (∀ (s : State) (f : BraidFrame), takenAs s f 0x12 → agrees s = true → isActive s = false →
      let h := msgField f 1 6
      let codes := (List.range (msgField f 8 1)).flatMap (fun p => (List.range (portSlots s)).map (fun i => 32 * (msgField f 7 1 + p) + i))
      s.frame < h + 3 → msgField f 7 1 + msgField f 8 1 ≤ 16 → (frameBytes f).length = 9 + 3 * frameSamples s * codes.length →
      Completes (.tdmIn f) s (fun t => t.out = s.out ∧ ∃ cap, assocGet t.conf.tdm.adopted h = some cap ∧ ∀ i, i < codes.length →
        Sparse.get (fun _ => ([] : List Int)) cap (codes.getD i 0)
          = (((pieces 3 ((frameBytes f).drop 9)).map (fun x => signed 24 (beNat x))).drop (frameSamples s * i)).take (frameSamples s)))
  ∧ (∀ s : State, agrees s = true → isActive s = false → 2 ≤ s.frame → assocGet s.conf.tdm.adopted (s.frame - 2) = none →
      exec .tdmInDeadline s = .next (driveEvtN (bumpO s Obj.pair.agreeMissed)))
  ∧ (∀ (s : State) (f : BraidFrame) (e : Envelope) (b : ClaimBody), takenAs s f 0x13 → pairRuns s = true → inReset s 25 = false → f.link.val ≤ 1 →
      isStandby s = true → pairState s = 4 ∨ pairState s = 6 → 1 ≤ e.session → e.session ≤ 32 → sessState s e.session ≠ 0 →
      b.bits.getLsbD 2 = false → ownerSession s = none → s.ctl.forwarded = [] →
      Completes (.journal f e (.entry (.claim b)) 0 0) s (fun t => ownerSession t = some e.session ∧ natO t Obj.own.ownerPriority = b.priority
        ∧ e.sequence + 1 ≤ natO t (Obj.sess.nextSeq (e.session - 1))
        ∧ ∃ l seq, pairLink s = some l ∧ t.out = .braid l 1 seq 0x14 (natBE e.session 2 ++ natBE e.sequence 4) :: s.out))
  ∧ (∀ (s : State) (f : BraidFrame) (e : Envelope) (d : Decision) (frame result : Nat), takenAs s f 0x13 → pairRuns s = true → inReset s 25 = false → f.link.val ≤ 1 → isStandby s = true →
      pairState s = 4 ∨ pairState s = 6 →
      exec (.journal f e (.decision d) frame result) s = .next (driveEvtN (applyDecision (receive s f).1 d))
      ∧ (∀ n prio pre, d = .elected (some (n, prio, pre)) → Completes (.journal f e (.decision d) frame result) s (fun t =>
          ownerState t = 2 ∧ natO t Obj.own.ownerSession = n ∧ natO t Obj.own.ownerPriority = prio ∧ t.ctl.candidates = []))
      ∧ (∀ n q g, d = .groupRejected n q → s.slu.heldFed = none → s.slu.waiting = [g] → g.session = n → g.seq = q →
          Completes (.journal f e (.decision d) frame result) s (fun t => t.slu.waiting = [] ∧ natO t Obj.slu.lastTag = g.tag
            ∧ natO t Obj.slu.lastResult = 4 ∧ CountsOne s t Obj.slu.rejects ∧ Raises s t 165 g.tag)))
  ∧ (∀ (s : State) (f : BraidFrame) (a : AwaitAck), takenAs s f 0x14 → f.link.val ≤ 1 → forwarded a.envelope = false → a.result.ack = true →
      s.ctl.await.filter (fun x => x.envelope.session == msgField f 1 2 && x.envelope.sequence == msgField f 3 4) = [a] →
      Completes (.journalAck f) s (fun t =>
        t.ctl.await = s.ctl.await.filter (fun x => !(x.envelope.session == msgField f 1 2 && x.envelope.sequence == msgField f 3 4))
        ∧ t.out = (sendResult s a.envelope a.result false).out ∧ t.ctl.sessions = s.ctl.sessions))
  ∧ (∀ (s : State) (f : BraidFrame) (e : Envelope) (r : Request), takenAs s f 0x15 → pairRuns s = true → f.link.val ≤ 1 →
      inReset s 25 = false → sessionOpen s e.session = true →
      let v := { e with flags := e.flags ||| 0x4000 }
      let a := touch (receive s f).1 e.session v
      (∀ ep, r = .heartbeat ep → exec (.gultinFwd f e r) s = .next (driveEvtN a))
      ∧ ((∀ b, r ≠ .hello b) → (∀ b, r ≠ .heartbeat b) →
        (isActive s = false → (∀ b, r ≠ .claim b) → exec (.gultinFwd f e r) s = .next (driveEvtN a))
        ∧ (∀ b, isActive s = false → r = .claim b → exec (.gultinFwd f e r) s = .next (driveEvtN (claimHeard a e.session b)))
        ∧ (isActive s = true → (∀ x, (session a e.session).results.find? (fun x => x.sequence == e.sequence) = some x →
            exec (.gultinFwd f e r) s = .next (driveEvtN (sendJournal a e.session e.sequence x.info r x))))
        ∧ (isActive s = true → (session a e.session).results.find? (fun x => x.sequence == e.sequence) = none → inHand a v = false →
            natO s (Obj.sess.nextSeq (e.session - 1)) ≤ e.sequence → (session s e.session).held = [] →
            exec (.gultinFwd f e r) s = .next (driveEvtN (drain (execute a v r) e.session 129)))))
  ∧ (∀ (s : State) (f : BraidFrame) (e : Envelope) (r : Request), takenAs s f 0x15 → pairRuns s = true → f.link.val ≤ 1 →
      inReset s 25 = true → isActive s = true → reqSequenced r = true → sessionOpen s e.session = true →
      exec (.gultinFwd f e r) s = .next (driveEvtN (sendJournal (receive s f).1 e.session e.sequence 0 r
        ⟨e.sequence, false, 5, busyHint, reqCode r⟩)))

/-- R308, R309, R316 to R319, Tables 13.7 and 13.8: a resync asked for begins where it may; its phases follow one another at source
and target, with their frames and what they send; an abort message or a timeout abort it, with event 134; versions are compared; bytes of the image
come into the target; the target computes the stored frames in order; sixteen matching digests bring the pair in step, with event
133. The layouts of the messages are those of log entries 60 and 63. -/
def Obligations.PairResync : Prop :=
  ∀ s : State,
    (∀ f : BraidFrame, takenAs s f 0x16 → pairRuns s = true → f.link.val ≤ 1 → let g := msgField f 3 6
      (msgField f 1 1 = 1 → pairState s = 1 → getO s Obj.pair.resyncAuto ≠ 1 → Completes (.resyncReq f) s (fun t =>
          t.pair = { s.pair with resyncAsked := true } ∧ t.out = s.out))
      ∧ (msgField f 1 1 = 2 → msgField f 2 1 = 1 → pairState s = 5 ∨ pairState s = 7 ∨ pairState s = 8 →
          Completes (.resyncPhase f) s (fun t => pairState t = 6 ∧ natO t Obj.pair.resyncPhase = 1 ∧ t.frame = g
            ∧ natO t Obj.pair.resyncBytes = 0 ∧ t.pair.stored = [] ∧ t.pair.agreeing = 0))
      ∧ (msgField f 1 1 = 2 → msgField f 2 1 = 2 → pairState s = 6 → natO s Obj.pair.resyncPhase ≤ 2 →
          Completes (.resyncPhase f) s (fun t => natO t Obj.pair.resyncPhase = 2 ∧ t.pair = { s.pair with epochC := g }))
      ∧ (msgField f 1 1 = 2 → msgField f 2 1 = 3 → pairState s = 6 → natO s Obj.pair.resyncPhase ≤ 3 →
          Completes (.resyncPhase f) s (fun t => natO t Obj.pair.resyncPhase = 3 ∧ natO t Obj.pair.resyncEpoch = g ∧ t.pair = s.pair
            ∧ t.array.exactFrom = g))
      ∧ (msgField f 1 1 = 2 → msgField f 2 1 = 4 → pairState s = 6 → natO s Obj.pair.resyncPhase ≤ 4 →
          Completes (.resyncPhase f) s (fun t => natO t Obj.pair.resyncPhase = 4
            ∧ natO t Obj.pair.catchupLag = min 65535 (s.frame + 1 - natO s Obj.pair.resyncEpoch)))
      ∧ (msgField f 1 1 = 3 → pairState s = 2 → Completes (.resyncAbortMsg f) s (fun t => pairState t = 1
          ∧ natO t Obj.pair.abortCause = msgField f 2 1 ∧ natO t Obj.pair.resyncPhase = 0 ∧ CountsOne s t Obj.pair.resyncAborts
          ∧ Raises s t 134 noDetail))
      ∧ (msgField f 1 1 = 4 → isActive s = false →
          let rev := (getB s Obj.ident.revision).take 4
          let own := natBE (natO s Obj.clk.sampleRate) 1 ++ rev ++ List.replicate (4 - rev.length) 0 ++ natBE (fwMajor s) 1
          (((frameBytes f).drop 2).take 6 = own → Completes (.versions f) s (fun t =>
            t.pair = { s.pair with versionsOk := true, partnerMajor := msgField f 7 1 } ∧ t.out = s.out))
          ∧ (((frameBytes f).drop 2).take 6 ≠ own → pairState s ≠ 2 → pairState s ≠ 6 → Completes (.versions f) s (fun t =>
            t.pair.versionsOk = false ∧ natO t Obj.pair.abortCause = 6))))
    ∧ (getO s Obj.pair.resyncAuto = 1 → s.pair.autoStopped = false → resyncOk s = true → Completes .resyncAutoDelay s (fun t =>
        pairState t = 2 ∧ natO t Obj.pair.resyncPhase = 1 ∧ t.pair.resyncAsked = false ∧ t.pair.waitAuto = false
        ∧ Raises s t 132 noDetail))
    ∧ (pairState s = 2 → Completes .resyncTimeout s (fun t => pairState t = 1 ∧ natO t Obj.pair.abortCause = 5
        ∧ CountsOne s t Obj.pair.resyncAborts ∧ Raises s t 134 noDetail))
    ∧ (pairState s = 6 → Completes .resyncTimeout s (fun t => pairState t = 5 ∧ natO t Obj.pair.abortCause = 5
        ∧ CountsOne s t Obj.pair.resyncAborts ∧ Raises s t 134 noDetail))
    ∧ (natO s Obj.pair.resyncPhase = 1 → pairState s = 2 → Completes .configEnd s (fun t => natO t Obj.pair.resyncPhase = 2
        ∧ t.pair = { s.pair with epochC := up16 (s.frame + 1) }
        ∧ ∀ l, pairLink s = some l → ∃ seq, t.out = .resync (bulkPiece s)
            :: .braid l 1 seq 0x16 (natBE 2 1 ++ (natBE 2 1 ++ natBE (up16 (s.frame + 1)) 6)) :: s.out))
    ∧ (natO s Obj.pair.resyncPhase = 1 → pairState s = 6 → s.pair.imageLen = 0 → Completes .configEnd s (fun t =>
        natO t Obj.pair.resyncPhase = 2 ∧ t.pair = { s.pair with epochC := up16 (s.frame + 1) } ∧ t.out = s.out))
    ∧ (pairState s = 2 → 2 ≤ natO s Obj.pair.resyncPhase → s.pair.epochC ≤ s.frame + 1 → Completes .catchmentCapture s (fun t =>
        t.array = s.array ∧ ((pairLink s).isSome = true → t.out = .resync (catchPiece s) :: s.out)))
    ∧ (pairState s = 6 → 2 ≤ natO s Obj.pair.resyncPhase → s.pair.epochC ≤ s.frame + 1 → Completes .catchmentCapture s (fun t =>
        t.array.running = true ∧ t.array.base = s.pair.epochC ∧ t.array.nextIn = 8 * s.pair.epochC
        ∧ (∀ a ∈ t.array.corr.areas, a.snaps = [Snapshot.none, Snapshot.none]) ∧ t.out = s.out))
    ∧ (natO s Obj.pair.resyncPhase = 2 → pairState s = 2 → let e := max (s.frame + 2) (s.pair.epochC + 720)
        Completes .bulkEnd s (fun t => natO t Obj.pair.resyncEpoch = e ∧ t.pair = s.pair
          ∧ ∀ l, pairLink s = some l → ∃ seq, t.out = .braid l 1 seq 0x16 (natBE 2 1 ++ (natBE 3 1 ++ natBE e 6)) :: s.out))
    ∧ (natO s Obj.pair.resyncPhase = 2 → pairState s = 6 → let e := max (s.frame + 2) (s.pair.epochC + 720)
        Completes .bulkEnd s (fun t => natO t Obj.pair.resyncEpoch = e ∧ t.array = { s.array with exactFrom := e } ∧ t.out = s.out))
    ∧ (pairState s = 2 → natO s Obj.pair.resyncPhase = 2 ∨ natO s Obj.pair.resyncPhase = 3 → natO s Obj.pair.resyncEpoch ≠ 0 →
        natO s Obj.pair.resyncEpoch ≤ s.frame + 1 → Completes .capture s (fun t => natO t Obj.pair.resyncPhase = 3 ∧ t.pair = s.pair
          ∧ ∀ l, pairLink s = some l → ∃ seq, t.out = .braid l 1 seq 0x16 (natBE 2 1 ++ (natBE 4 1 ++ natBE (natO s Obj.pair.resyncEpoch) 6))
            :: .resync (corePiece (setO s Obj.pair.resyncPhase 3)) :: s.out))
    ∧ (∀ f : BraidFrame, takenAs s f 0x17 → pairState s = 6 → f.link.val ≤ 1 → msgField f 1 1 = 0x10 →
        Completes (.resyncData ⟨f, .bytes⟩) s (fun t =>
          t.pair = { s.pair with image := bytesPut s.pair.image (msgField f 2 8) ((frameBytes f).drop 10)
                                 imageLen := max s.pair.imageLen (msgField f 2 8 + ((frameBytes f).drop 10).length) }
          ∧ (natO s Obj.pair.resyncBytes + ((frameBytes f).drop 10).length < counterSpan Obj.pair.resyncBytes →
              natO t Obj.pair.resyncBytes = natO s Obj.pair.resyncBytes + ((frameBytes f).drop 10).length)))
    ∧ (∀ (f : BraidFrame) (rings : Sparse Eddy) (buffers kept : Sparse (List Byte)), takenAs s f 0x17 → pairState s = 6 → f.link.val ≤ 1 →
        msgField f 1 1 = 0x10 → Completes (.resyncData ⟨f, .bulk rings buffers kept⟩) s (fun t =>
          t.eddy = rings ∧ t.array = { s.array with buffers := buffers, kept := kept }))
    ∧ (∀ (f : BraidFrame) (piece : ResyncPiece), takenAs s f 0x17 → pairState s = 6 → f.link.val ≤ 1 →
        let b := (frameBytes f).drop 10
        exec (.resyncData ⟨f, piece⟩) s = .next (driveEvtN
          (takePiece (resyncBytes (addO (receive s f).1 Obj.pair.resyncBytes b.length) (msgField f 1 1) (msgField f 2 8) b) piece)))
    ∧ (∀ (g : Nat) (ext : Sparse (List Int)) (rest : List (Nat × Sparse (List Int))) (digest : Nat), pairState s = 6 →
        natO s Obj.pair.resyncPhase = 4 → catchUpDue s = true → s.pair.stored = (g, ext) :: rest → rest ≠ [] →
        let a := computeStored { s with pair := { s.pair with stored := rest } } g ext
        natO a Obj.pair.digest = digest → Completes (.catchUpFrame digest) s (fun t =>
          t = driveEvtN (setO a Obj.pair.catchupLag ((natO a Obj.pair.catchupLag - 1 : Nat) : Int))))
    ∧ (natO s Obj.pair.resyncPhase = 5 → 16 ≤ s.pair.agreeing → pairState s = 2 → Completes .inStep s (fun t => pairState t = 3
        ∧ natO t Obj.pair.resyncPhase = 0 ∧ natO t Obj.pair.exposed = 0 ∧ Raises s t 133 noDetail
        ∧ t.pair.handovers = [(1 - ownPath s, s.frame + 2, false)]
        ∧ ∀ l, pairLink s = some l → ∃ seq, t.out = .braid l 1 seq 0x16 (natBE 5 1 ++ natBE (s.frame + 2) 6) :: s.out))
    ∧ (natO s Obj.pair.resyncPhase = 5 → 16 ≤ s.pair.agreeing → pairState s = 6 → Completes .inStep s (fun t => pairState t = 4
        ∧ natO t Obj.pair.resyncPhase = 0 ∧ natO t Obj.pair.exposed = 0 ∧ natO t Obj.pair.unverified = 0 ∧ Raises s t 133 noDetail
        ∧ t.pair.aliveOut = 2 ∧ t.pair.handovers = [(ownPath s, s.frame + 2, true)]
        ∧ (stageOf s = 2 → stageOf t = 3)))

/-! ## Reset, start and power -/

/-- R335 to R338, R343, R360, Table 14.1: each cold and warm source takes the engine into reset with its reach, and ends when its
condition does; a RESET_N pulse under 1.4 µs is no reset, one of 1.6 µs is; thermal, supply and VBAT warnings raise events 12, 13
and 14, and VBAT below its threshold clears the backup domain. -/
def Obligations.ResetSources : Prop :=
  ∀ s : State,
    Completes .powerOnReset s (fun t => ResetTaken s t 0 true ∧ 0 ∈ t.rst.asserted ∧ t.pins = { s.pins with supplyOk := false }
        ∧ t.jtag = Jtag.reset)
    ∧ exec .powerOnRelease s = .next (driveEvtN { s with pins := { s.pins with supplyOk := true }, rst := { s.rst with
        asserted := s.rst.asserted.filter (· != 0) } })
    ∧ (∀ ns, 1600 ≤ ns → Completes (.resetNAssert ns) s (fun t => ResetTaken s t 1 true ∧ 1 ∈ t.rst.asserted
        ∧ t.pins = { s.pins with resetN := false }))
    ∧ (∀ ns, ns < 1400 → exec (.resetNAssert ns) s = .next (driveEvtN s) ∧ exec (.resetNRelease ns) s = .next (driveEvtN s))
    ∧ (∀ ns, 1600 ≤ ns → exec (.resetNRelease ns) s = .next (driveEvtN { s with pins := { s.pins with resetN := true }
                                                                                rst := { s.rst with
        asserted := s.rst.asserted.filter (· != 1) } }))
    ∧ Completes .systemWatchdog s (fun t => ResetTaken s t 2 false ∧ 2 ∈ t.rst.asserted ∧ t.pins = s.pins)
    ∧ Completes .thermalReset s (fun t => ResetTaken s t 5 true ∧ 5 ∈ t.rst.asserted ∧ t.pins = s.pins)
    ∧ (∀ cold, s.rst.soft = some cold → Completes .softResetDelay s (fun t => ResetTaken s t 3 cold ∧ 3 ∉ t.rst.asserted
        ∧ t.rst.soft = none ∧ t.pins = s.pins))
    ∧ (∀ c : Fin 8, c.val = 2 ∨ c.val = 4 → exec (.resetPulseEnd c) s
        = .next (driveEvtN { s with rst := { s.rst with asserted := s.rst.asserted.filter (· != c.val) } }))
    ∧ exec (.resetPulseEnd 6) s = .next (driveEvtN { s with rst := { s.rst with corePulse := false } })
    ∧ Completes .thermalWarn s (fun t => t.rst = { s.rst with thermLow := true } ∧ Raises s t 12 noDetail
        ∧ ObjectsKept s t (eventKeys 12) ∧ EventsOnly s { t with rst := s.rst })
    ∧ (∀ c : Int, Completes (.junctionCooling c) s (fun t =>
        (c < 1100 → t.rst.asserted = s.rst.asserted.filter (· != 5)) ∧ (1100 ≤ c → t = driveEvtN s)
        ∧ (c < 1050 → t.rst.thermLow = false) ∧ (1050 ≤ c → t.rst.thermLow = s.rst.thermLow)
        ∧ ObjectsKept s t [Obj.evt.status 12] ∧ EventsOnly s { t with rst := s.rst }))
    ∧ Completes .supplyWarn s (fun t => Raises s t 13 noDetail ∧ ObjectsKept s t (eventKeys 13) ∧ EventsOnly s t)
    ∧ (∀ mv, mv < 1450 → Completes (.vbatLow mv) s (fun t => t.ctl.sessions = [] ∧ t.ctl.journal = [] ∧ t.rst.rtc = 0 ∧ t.rst.vbatLost = true
        ∧ t.bus = { s.bus with aon := [] } ∧ t.ev.ring = [] ∧ t.cells = s.cells ∧ t.conf = s.conf ∧ t.out = s.out))
    ∧ (∀ mv, 1450 ≤ mv → mv < 1700 → 2 ≤ stageOf s → Completes (.vbatLow mv) s (fun t => Raises s t 14 noDetail
        ∧ ObjectsKept s t (eventKeys 14) ∧ EventsOnly s t))

/-- R339, R341, R344, R349 to R352, Tables 14.4 and 14.8: option load takes the highest valid slot; T_R counts the sequence and its
sources; the domains are released one by one, the control complex with the straps, Confluence with Trickle; verified firmware
begins Rising, a bad image raises event 11; at a frame divisible by 16 the engine enters Flowing with its cause and event 10.
FIRMWARE_BOOTED and the frame of FLOWING_ENTRY are read as log entry 53 says. -/
def Obligations.ReleaseSequence : Prop :=
  ∀ s : State,
    (s.rst.asserted = [] → s.rst.optionsLoaded = false → Completes .optionLoadDone s (fun t => t.rst.optionsLoaded = true
        ∧ t.rst.released = 2 ∧ natO t Obj.opt.slot = (bestSlot s).getD 255 ∧ natO t Obj.opt.bad = badSlots s
        ∧ natO t Obj.opt.blank = blankSlots s ∧ t.rst.options = ((bestSlot s).map (optionSlot s)).getD defaultOptions
        ∧ (badSlots s ≠ 0 ∨ bestSlot s = none → Raises s t 9 noDetail)
        ∧ (optionField t 3 1 % 4 = 1 → t.rst.begun = true ∧ CountsOne s t Obj.rcnt.total)
        ∧ (optionField t 3 1 % 4 ≠ 1 → t.rst.begun = s.rst.begun ∧ natO t Obj.rcnt.total = natO s Obj.rcnt.total)))
    ∧ (s.rst.asserted = [] → s.rst.optionsLoaded = true → s.rst.begun = false → s.rst.sources.Nodup → (∀ c ∈ s.rst.sources, c < 6) →
        Completes .stretchExpiry s (fun t => t.rst.begun = true ∧ t.rst.outHigh = true ∧ CountsOne s t Obj.rcnt.total
          ∧ (∀ c ∈ s.rst.sources, natO t (Obj.rcnt.source c) = min (natO s (Obj.rcnt.source c) + 1) 65535 ∧ c ∈ t.rst.tell)
          ∧ (∀ c, c < 6 → c ∉ s.rst.sources → natO t (Obj.rcnt.source c) = natO s (Obj.rcnt.source c))
          ∧ natO t Obj.rcnt.lastReach = (if s.rst.cold then 2 else 1)))
    ∧ (s.rst.begun = true → 2 ≤ s.rst.released → s.rst.released < 10 → (s.rst.released = 3 → s.rst.pllLocked = true) →
        Completes .releaseGap s (fun t => t.rst.released = s.rst.released + 1
          ∧ (s.rst.released = 3 → getO t Obj.ident.unit = boolNum s.pins.unitB ∧ natO t Obj.fed.memberId = s.pins.fedId % 8)
          ∧ (s.rst.released = 7 → stageOf t = 1 ∧ t.conf.tdm.running = true)
          ∧ (s.rst.released ≠ 3 → s.rst.released ≠ 7 →
              t = driveEvtN { s with rst := { s.rst with released := s.rst.released + 1 } })))
    ∧ (∀ img : Fin 2, stageOf s = 1 → s.rst.released = 10 → getO s Obj.stage.bootState = 0 → Completes (.firmwareBooted img) s (fun t =>
        stageOf t = 2 ∧ natO t Obj.stage.bootState = 1 ∧ natO t Obj.stage.fwImage = img ∧ natO t Obj.fw.running = img
        ∧ (NotYetRaised s 10 → EventRaised t 10) ∧ t.rst.tell = [] ∧ t.rst.vbatLost = false ∧ t.sel.running = true
        ∧ (t.rst.pairEnable = true → t.pair.watching = 1) ∧ (t.rst.pairEnable = false → t.pair.pathsSent = [true, true])))
    ∧ (stageOf s = 1 → Completes (.bootImageBad none) s (fun t => Raises s t 11 noDetail ∧ natO t Obj.stage.bootState = 2
        ∧ ObjectsKept s t (Obj.stage.bootState :: eventKeys 11) ∧ EventsOnly s t))
    ∧ (∀ img, stageOf s = 1 → Completes (.bootImageBad (some img)) s (fun t => Raises s t 11 noDetail
        ∧ ObjectsKept s t (eventKeys 11) ∧ EventsOnly s t))
    ∧ (∀ c, stageOf s = 2 → s.frame % 16 = 0 → s.pair.watching = 0 → isActive s = true → s.rst.rateNext = none → flowCause s = some c →
        Completes .flowingEntry s (fun t => stageOf t = 3 ∧ natO t Obj.stage.flowCause = c ∧ (NotYetRaised s 10 → EventRaised t 10)
          ∧ t.array.running = true ∧ t.array.base = s.frame ∧ natO t Obj.stage.entered = s.frame))

/-- R335, R345 to R348, R359, Table 14.6: a core watchdog and the safety core plan the reset of a block for the next frame; a
graceful block closes when it is idle, or on IDLE_TIMEOUT with event 8, and 7 for what was outstanding; a block whose hold has
ended is released; restarted control firmware leaves its sessions DORMANT; a woken domain is clear, with event 15; the RTC follows
the selected PTP instance. The hold is counted as log entry 57 says. -/
def Obligations.BlockResets : Prop :=
  ∀ s : State,
    (∀ core, 4 ≤ s.rst.released → Completes (.coreWatchdog core) s (fun t => Raises s t 2 25
        ∧ t.rst = { s.rst with corePulse := true, starting := s.rst.starting ++ [(s.frame + 1, 25, 0)] }
        ∧ ObjectsKept s t (eventKeys 2) ∧ EventsOnly s { t with rst := s.rst }))
    ∧ (∀ b : Fin 26, 4 ≤ s.rst.released → exec (.safetyCoreReset b) s
        = .next (driveEvtN { s with rst := { s.rst with starting := s.rst.starting ++ [(s.frame + 1, b.val, 0)] } }))
    ∧ (∀ (b : Fin 26) (v : BlockSt), blockOf s b = some v → v.idling = true →
        Completes (.blockIdle b) s (fun t => blockOf t b = some { v with idling := false }
          ∧ (b.val < 16 → (∀ i, i < 8 → (cellOf t (8 * b.val + i)).active = false) ∧ t.obj = s.obj)
          ∧ (b.val = 25 → t.ctl.await = [] ∧ t.ctl.forwarded = [] ∧ t.ctl.candidates = [] ∧ t.ctl.series = [] ∧ t.obj = s.obj))
        ∧ Completes (.idleTimeout b true) s (fun t => Raises s t 8 b ∧ (v.isoSeen = false → Raises s t 7 b)
          ∧ blockOf t b = some { v with idling := false, isoSeen := true })
        ∧ Completes (.idleTimeout b false) s (fun t => Raises s t 8 b ∧ blockOf t b = some { v with idling := false }))
    ∧ (∀ (b : Fin 26) (v : BlockSt), blockOf s b = some v → v.idling = false → v.release ≤ s.frame + 1 →
        (b.val = 25 → s.rst.corePulse = false) → Completes (.blockRelease b) s (fun t => blockOf t b = none
          ∧ (b.val = 25 → t.rst.firmwareDown = true) ∧ (∀ c : Fin 26, c ≠ b → blockOf t c = blockOf s c)))
    ∧ (s.rst.firmwareDown = true → s.ctl.journal = [] → s.ctl.await = [] → s.ctl.forwarded = [] → s.slu = Sluice.reset → Completes .controlRestart s (fun t =>
        t.rst.firmwareDown = false ∧ t.ctl.handover = false
        ∧ ∀ n, 1 ≤ n → n ≤ 32 → sessState s n = 1 ∨ sessState s n = 2 → (session s n).held = [] → sessState t n = 3
            ∧ natO t (Obj.sess.nextSeq (n - 1)) = natO s (Obj.sess.nextSeq (n - 1))))
    ∧ (∀ d : Fin 19, getO s (Obj.pwr.state d) = 3 → Completes (.domainWakeDone d) s (fun t => natO t (Obj.pwr.state d) = 0
        ∧ CountsOne s t Obj.pwr.clears ∧ Raises s t 15 noDetail
        ∧ (d.val = 16 → ∀ b, b < 256 → getB t (Obj.beam.steer b) = List.replicate 49152 0)
        ∧ (d.val ≠ 16 → t.blob = s.blob)))
    ∧ (∀ e, selectedEntry s = some e → e < 2 → 2 ≤ stageOf s → exec .rtcSync s
        = .next (driveEvtN { s with rst := { s.rst with rtc := (3 * ptpTime s e / 65536).toNat } }))

/-! ## Service port -/

/-- R342, R353 to R355, R360, R380, R391, Tables 14.11 and 14.12: a service frame's answer waits for its FETCH; a damaged one is
answered FFFFh; a READ gives the value from its offset; an accepted write of an SVC object clears the reset counters or Moraine,
sets an authentication number or key, programs the lowest blank option slot, or a key slot; the segments before the last are kept. -/
def Obligations.ServicePort : Prop :=
  ∀ (s : State) (f : SvcFrame), stageOf s = 1 ∨ (2 ≤ stageOf s ∧ inReset s 25 = false) →
    (svcField f.bytes 0 1 = 3 → f.bytes ≠ [] → s.rst.svcAnswer = none →
      exec (.svcFetch f) s = .next (driveEvtN { s with out := .svc [0x02] :: s.out }))
    ∧ (∀ b, svcField f.bytes 0 1 = 3 → f.bytes ≠ [] → s.rst.svcAnswer = some b →
        exec (.svcFetch f) s = .next (driveEvtN { s with out := .svc b :: s.out, rst := { s.rst with svcAnswer := none } }))
    ∧ (svcParse f.bytes = none → svcField f.bytes 0 1 ≠ 3 → ∀ c ∈ [Instr.svcRead f, .svcWrite f, .svcWriteLast f, .optionProgram f,
        .keyWrite f, .counterClear f, .moraineClear f],
        exec c s = .next (driveEvtN (svcAnswer s (svcField f.bytes 1 1) 0xFFFF [])))
    ∧ (∀ r : SvcReq, svcParse f.bytes = some r → stageOf s = 1 → trickleServes r = false →
        ∀ c ∈ [Instr.svcRead f, .svcWrite f, .svcWriteLast f, .optionProgram f, .keyWrite f, .counterClear f, .moraineClear f],
        exec c s = .next (driveEvtN (svcAnswer s r.tag 5 [])))
    ∧ (∀ (r : SvcReq) (v : List Byte), svcParse f.bytes = some r → 2 ≤ stageOf s ∨ trickleServes r = true → r.op = 1 →
        readCheck s ⟨r.index, r.elem, r.sub, r.typ, r.offset, 0⟩ = .inr v → Completes (.svcRead f) s (fun t =>
          t.rst = { s.rst with svcAnswer := some (svcBytes r.tag 0 s.frame ((v.drop r.offset).take 4096)) }
          ∧ ObjectsKept s t [Obj.meter.bulkFrame] ∧ t.out = s.out ∧ t.slu = s.slu ∧ t.ctl = s.ctl))
    ∧ (∀ (r : SvcReq) (d : Decl) (v : Int), svcParse f.bytes = some r → 2 ≤ stageOf s ∨ trickleServes r = true → r.op ≠ 1 → r.offset = 0 →
        declAt s r.index r.elem r.sub = some d → r.typ = d.typ.code → d.access = .svc → d.typ.size ≠ 0 → decodeNum d.typ r.value = some v →
        numOk s d (okey r.index r.elem r.sub) v = true →
        (r.index = 0x1201 → v = 1 → Completes (.counterClear f) s (fun t =>
          (∀ i, 1 ≤ i → i ≤ 8 → natO t (okey 0x1201 0 i) = 0) ∧ t.rst.svcAnswer = some (svcBytes r.tag 0 s.frame [])
          ∧ ObjectsKept s t ((List.range 8).map (fun i => okey 0x1201 0 (i + 1))) ∧ ObjectsOnly s { t with rst := s.rst }))
        ∧ (r.index = 0x1500 → v = 1 → Completes (.moraineClear f) s (fun t => t.ev.ring = [] ∧ natO t Obj.mor.count = 0
          ∧ t.ev.flash = s.ev.flash ∧ t.rst.svcAnswer = some (svcBytes r.tag 0 s.frame []) ∧ ObjectsKept s t [Obj.mor.count]))
        ∧ (r.index = 0x1100 → ∀ c ∈ [Instr.svcWrite f, .svcWriteLast f], Completes c s (fun t =>
          getO t (okey r.index r.elem r.sub) = v ∧ t.rst.svcAnswer = some (svcBytes r.tag 0 s.frame [])
          ∧ ObjectsKept s t [okey r.index r.elem r.sub] ∧ ObjectsOnly s { t with rst := s.rst })))
    ∧ (∀ (r : SvcReq) (d : Decl), svcParse f.bytes = some r → 2 ≤ stageOf s ∨ trickleServes r = true → r.offset = 0 →
        declAt s r.index r.elem r.sub = some d → d.typ = .blob → r.typ = 15 → d.access = .svc → s.rst.svcSeries = [] →
        let k := okey r.index r.elem r.sub
        (r.op = 2 → Completes (.svcWrite f) s (fun t => t.rst = { s.rst with
            svcSeries := [⟨0, k, r.value⟩], svcAnswer := some (svcBytes r.tag 0 s.frame []) } ∧ t.obj = s.obj ∧ t.blob = s.blob))
        ∧ (∀ n, r.op = 0x82 → r.index = 0x1220 → r.elem < 65536 → r.sub < 256 → optionOk s r.value = true → blankSlot s = some n →
            Completes (.optionProgram f) s (fun t => bytesGet t.bus.otp (128 * n) 128 = r.value
              ∧ (∀ x, x < 128 * n ∨ 128 * n + 128 ≤ x → byteGet t.bus.otp x = byteGet s.bus.otp x)
              ∧ t.rst.svcAnswer = some (svcBytes r.tag 0 s.frame []) ∧ t.rst.options = s.rst.options
              ∧ ObjectsKept s t [Obj.opt.blank]))
        ∧ (r.op = 0x82 → r.index = 0x1600 → r.elem < 65536 → r.sub < 256 → keyOk s r.value = true →
            let at_ := keyOffset (svcField r.value 0 1) (svcField r.value 1 1)
            Completes (.keyWrite f) s (fun t => bytesGet t.bus.otp at_ 96 = r.value.drop 2
              ∧ (∀ x, x < at_ ∨ at_ + 96 ≤ x → byteGet t.bus.otp x = byteGet s.bus.otp x)
              ∧ t.rst.svcAnswer = some (svcBytes r.tag 0 s.frame []) ∧ t.obj = s.obj))
        ∧ (r.op = 0x82 → r.index = 0x1100 → r.elem < 65536 → r.sub < 256 → r.value.length = 32 → Completes (.svcWriteLast f) s (fun t =>
            getB t k = r.value ∧ t.rst.svcAnswer = some (svcBytes r.tag 0 s.frame []) ∧ t.obj = s.obj)))

/-! ## Events, Drift and Moraine -/

/-- R367 to R371, R373 to R378, R381: the injection window closes by itself and disarms every event; an armed event fires at its
frame with the injected mark, or fails where it has no target; a packed word enters its queue; the map producer packs its items; a
pop of the bus window takes the oldest word; a mirror carries every record of the log to flash. -/
def Obligations.InjectionAndQueues : Prop :=
  ∀ s : State,
    (getO s Obj.inj.window = 2 → Completes .windowTimeout s (fun t => getO t Obj.inj.window = 0
      ∧ (∀ n, n < 256 → getO t (Obj.inj.arm n) = 0 ∧ (getO s (Obj.inj.arm n) ≠ 0 → getO t (Obj.inj.state n) = 0))
      ∧ ObjectsOnly s t))
    ∧ (∀ n : Fin 256, getO s Obj.inj.window = 2 → getO s (Obj.inj.arm n) ≠ 0 → natO s (Obj.inj.fireFrame n) ≤ s.frame + 1 →
        (isTarget s n = false → Completes (.injectionFire n) s (fun t => natO t (Obj.inj.state n) = 4
          ∧ (getO s (Obj.inj.arm n) = 1 → getO t (Obj.inj.arm n) = 0) ∧ ObjectsKept s t [Obj.inj.state n, Obj.inj.arm n]
          ∧ ObjectsOnly s t))
        ∧ (isTarget s n = true → actEvents.contains n.val = false →
            s.ev.now.find? (fun r => r.event == n.val && r.frame == s.frame + 1) = none → Completes (.injectionFire n) s (fun t =>
              natO t (Obj.inj.state n) = (if getO s (Obj.inj.arm n) = 1 then 3 else 2) ∧ CountsOne s t (Obj.inj.fires n)
              ∧ (getO s (Obj.inj.arm n) = 1 → getO t (Obj.inj.arm n) = 0)
              ∧ EventRaised t n ∧ natO t (Obj.evt.injected n) = 1 ∧ natO t (Obj.evt.lastFrame n) = s.frame + 1
              ∧ natO t (Obj.evt.detail n) = natO s (Obj.inj.detail n)
              ∧ ObjectsKept s t ([Obj.inj.state n, Obj.inj.arm n, Obj.inj.fires n] ++ eventKeys n) ∧ EventsOnly s t)))
    ∧ (∀ (q : Fin 16) (w : DWord), (driftQ s q).packing = some w → (driftQ s q).words.length < 32 →
        Completes (.driftWordClose q) s (fun t => driftQ t q = ⟨(driftQ s q).words ++ [if (driftQ s q).afterLoss then { w with loss := true }
            else w], none, false⟩
          ∧ natO t (Obj.drift.depth q) = (driftQ s q).words.length + 1 ∧ (∀ k, k ≠ q.val → driftQ t k = driftQ s k)
          ∧ ObjectsKept s t [Obj.drift.depth q]))
    ∧ (∀ o : MapOut, s.array.mapOut = some o → (driftQ s o.queue).packing = none → (driftQ s o.queue).words.length < 32 →
        (driftQ s o.queue).afterLoss = false → Completes .driftMapWord s (fun t =>
          (driftQ t o.queue).words = (driftQ s o.queue).words ++ [⟨(o.items.take 4).flatMap (fun i => natBE i 4), o.first,
            (o.items.drop 4).isEmpty, 2, o.first && o.loss, 4 * (o.items.take 4).length⟩]
          ∧ (o.items.length ≤ 4 → t.array.mapOut = none)
          ∧ (4 < o.items.length → t.array.mapOut = some { o with items := o.items.drop 4, first := false })))
    ∧ (∀ (q : Fin 16) (w : DWord) (rest : List DWord), getO s (Obj.drift.consumer q) = 2 → (driftQ s q).words = w :: rest →
        Completes (.driftPop q 32) s (fun t => (driftQ t q).words = rest ∧ natO t (Obj.drift.depth q) = rest.length
          ∧ CountsOne s t (Obj.drift.words q) ∧ t.out = .bus 0 0 "OKAY" (w.wire ++ List.replicate 12 0) :: s.out
          ∧ ∀ k, k ≠ q.val → driftQ t k = driftQ s k))
    ∧ (s.ev.ring.length ≤ 8192 → Completes .moraineMirror s (fun t => (∀ r ∈ s.ev.ring, ∃ x ∈ t.ev.flash ++ s.ev.flash, x.seq = r.seq)
        ∧ t.ev.ring = s.ev.ring ∧ ObjectsKept s t [Obj.mor.mirroredSeq]
        ∧ t = { s with obj := t.obj, ev := { s.ev with flash := t.ev.flash, evtN := t.ev.evtN } }))

/-! ## Bus, transfers, firmware and boundary scan -/

/-- R67, R69, R384 to R390, R393, R394, R396, R397: a transaction reads or writes the bytes of its target, or is answered BUS_ERROR,
REGION, ISO_ERR, TIMEOUT or, for an error of two bits, ECC, with events 227, 226, 228 and 225; an error of one bit is corrected,
counted, with event 224; one that reaches a cell whose schedule is under way waits for that cell; scrubbers count their passes and
what they correct; HBM throttles with event 234. -/
def Obligations.BusCommands : Prop :=
  ∀ s : State, let a := setO s Obj.bus.outstandingMax (max (getO s Obj.bus.outstandingMax) 1)
    (∀ x : BusTx, let len := x.readLen.getD x.data.length
      (∀ c, busyFor s x.master x.address.toNat len x.readLen.isNone = some c →
        exec (.busTransaction x) s = .next (driveEvtN { a with bus := { s.bus with late := s.bus.late ++ [(c, .transaction x)] } }))
      ∧ (mapOf s x.address.toNat len = none → Completes (.busTransaction x) s (fun t =>
        t.out = .bus x.master x.id.toNat "BUS_ERROR" [] :: s.out ∧ Raises s t 227 x.master ∧ (NotYetRaised s 227 → CountsOne s t Obj.bus.busErrors)
        ∧ EventsOnly s { t with out := s.out }))
      ∧ (∀ area off, mapOf s x.address.toNat len = some (area, off) → busyFor s x.master x.address.toNat len x.readLen.isNone = none →
        (permits s x.master area.target x.address.toNat len x.readLen.isNone = false → Completes (.busTransaction x) s (fun t =>
            t.out = .bus x.master x.id.toNat "REGION" [] :: s.out ∧ Raises s t 226 (x.master.val * 256 + area.target)
            ∧ CountsOne s t (Obj.reg.violations (regionNo x.master area.target 0)) ∧ EventsOnly s { t with out := s.out }))
        ∧ (permits s x.master area.target x.address.toNat len x.readLen.isNone = true → wrapperShut s area off = true →
            Completes (.busTransaction x) s (fun t => t.out = .bus x.master x.id.toNat "ISO_ERR" [] :: s.out ∧ t.bus = s.bus))
        ∧ (permits s x.master area.target x.address.toNat len x.readLen.isNone = true → wrapperShut s area off = false →
            (x.readLen = none → exec (.busTransaction x) s = .next (driveEvtN (emit (areaPutMany a area off x.data)
              (.bus x.master x.id.toNat "OKAY" []))))
            ∧ (∀ n, x.readLen = some n → driftWindow area off = none → x.ecc = .clean → exec (.busTransaction x) s
                = .next (driveEvtN (emit a (.bus x.master x.id.toNat "OKAY" ((List.range n).map (fun i => areaByte a area (off + i)))))))
            ∧ (∀ n, x.readLen = some n → area = .sram → x.ecc = .corrected → Completes (.busTransaction x) s (fun t =>
                t.out = .bus x.master x.id.toNat "OKAY" ((List.range n).map (fun i => areaByte s area (off + i))) :: s.out
                ∧ Raises s t 224 noDetail ∧ CountsOne s t Obj.health.eccCorrected ∧ t.bus = s.bus))
            ∧ (∀ n, x.readLen = some n → area = .sram → x.ecc = .double → Completes (.busTransaction x) s (fun t =>
                t.out = .bus x.master x.id.toNat "ECC" [] :: s.out ∧ Raises s t 225 64
                ∧ CountsOne s t Obj.health.eccUncorrectable)))))
    ∧ (∀ (m : Fin 17) (id : BitVec 8) (adr : BitVec 48) (area : Area) (off : Nat), mapOf s adr.toNat 1 = some (area, off) →
        Completes (.busResponseTimeout m id adr) s (fun t => t.out = .bus m id.toNat "TIMEOUT" [] :: s.out
          ∧ Raises s t 228 (m.val * 256 + area.target) ∧ (NotYetRaised s 228 → CountsOne s t Obj.bus.timeouts)
          ∧ EventsOnly s { t with out := s.out }))
    ∧ (∀ (hbm : Bool) (fixed : List Nat), Completes (.scrubPass hbm fixed) s (fun t =>
        CountsOne s t (if hbm then Obj.bus.hbmScrubs else Obj.bus.sramScrubs)
        ∧ (fixed = [] → natO t Obj.health.eccCorrected = natO s Obj.health.eccCorrected)
        ∧ (fixed ≠ [] → Raises s t 224 noDetail
            ∧ (natO s Obj.health.eccCorrected + fixed.length < counterSpan Obj.health.eccCorrected →
                natO t Obj.health.eccCorrected = natO s Obj.health.eccCorrected + fixed.length))
        ∧ (∀ c, c < 16 → natO s (Obj.clus.eccCorrected c) + fixed.count c < counterSpan (Obj.clus.eccCorrected c) →
            natO t (Obj.clus.eccCorrected c) = natO s (Obj.clus.eccCorrected c) + fixed.count c)
        ∧ (getO s Obj.pair.state = 4 → CountsOne s t Obj.pair.scrubPasses) ∧ EventsOnly s t))
    ∧ Completes .hbmTempHigh s (fun t => getO t Obj.bus.hbmThrottled = 1 ∧ Raises s t 234 noDetail
        ∧ ObjectsKept s t (Obj.bus.hbmThrottled :: eventKeys 234) ∧ EventsOnly s t)
    ∧ Completes .hbmTempNormal s (fun t => getO t Obj.bus.hbmThrottled = 0 ∧ 234 ∉ t.ev.lasting
        ∧ ObjectsKept s t [Obj.bus.hbmThrottled, Obj.evt.status 234] ∧ EventsOnly s t)

/-- R385, R389, R390: a write that the matrix permits stores its bytes in the shared SRAM, a cluster memory, the operand memory of
a cell or the backup SRAM: each reads back, no other byte of these memories, of the boot ROM, the OTP or the flash differs, and the
byte memories keep their canonical form. -/
def Obligations.BusMemory : Prop :=
  ∀ (s : State) (x : BusTx) (area : Area) (off : Nat), let len := x.data.length
    x.readLen = none → mapOf s x.address.toNat len = some (area, off) → area ∈ [Area.sram, .cluster, .cells, .aon] →
    permits s x.master area.target x.address.toNat len true = true → wrapperShut s area off = false →
    busyFor s x.master x.address.toNat len true = none →
    Completes (.busTransaction x) s (fun t =>
      (∀ i, i < len → areaByte t area (off + i) = x.data.getD i 0)
      ∧ (∀ o, o < off ∨ off + len ≤ o → areaByte t area o = areaByte s area o)
      ∧ (∀ a ∈ [Area.rom, .sram, .cluster, .cells, .otp, .aon, .qspi], a ≠ area → ∀ o, areaByte t a o = areaByte s a o)
      ∧ (Memory.wf s.bus = true → Memory.wf t.bus = true) ∧ t.out = .bus x.master x.id.toNat "OKAY" [] :: s.out)

/-- R391, R392, R398 to R400: a bad DMA datagram is counted and dropped, a good one stores its bytes and counts those that are new;
a transfer ends with STATE 2; a firmware verification ends with its result and version; a hand-over ends with the new image
running, or times out with RESULT 05h. A hand-over that times out resets the control complex, and the results are those of log
entry 58. -/
def Obligations.TransfersAndFirmware : Prop :=
  ∀ s : State,
    (∀ (adr port : Nat) (b : List Byte), let c := fieldAt b 3 1
      24 ≤ b.length → 1 ≤ c → c ≤ 9 → 2 ≤ stageOf s →
      (dmaGood s c adr port b = false → Completes (.dmaDatagram adr port b) s (fun t => CountsOne s t (Obj.dma.dropped c)
        ∧ ObjectsKept s t [Obj.dma.dropped c] ∧ ObjectsOnly s t))
      ∧ (∀ o, dmaGood s c adr port b = true →
          let off := fieldAt b 8 8
          let len := fieldAt b 16 2
          let fresh := dmaFresh s c off len
          (∀ i, i < len → mapOf s (natO s (Obj.dma.address c) + off + i) 1 = some (.sram, o + i)
            ∧ permits s (dmaMaster c) Area.sram.target (natO s (Obj.dma.address c) + off + i) 1 true = true) →
          natO s (Obj.dma.doneBytes c) + len < counterSpan (Obj.dma.doneBytes c) →
          Completes (.dmaDatagram adr port b) s (fun t => natO t (Obj.dma.doneBytes c) = natO s (Obj.dma.doneBytes c) + fresh.length
            ∧ (∀ i, i < len → (off + i) ∈ fresh → byteGet t.bus.sram (o + i) = (b.drop 24).getD i 0)
            ∧ (∀ x, x < o ∨ o + len ≤ x → byteGet t.bus.sram x = byteGet s.bus.sram x)
            ∧ natO t (Obj.dma.state c) = (if natO s (Obj.dma.doneBytes c) + fresh.length = natO s (Obj.dma.length c) then 2 else 1)
            ∧ ObjectsKept s t [Obj.dma.doneBytes c, Obj.dma.state c])))
    ∧ (∀ c : Fin 9, getO s (Obj.dma.state (c.val + 1)) = 1 → getO s (Obj.dma.direction (c.val + 1)) = 0 →
        exec (.dmaTransferDone c) s = .next (driveEvtN (setO s (Obj.dma.state (c.val + 1)) 2)))
    ∧ (∀ img, s.bus.fwVerifying = some img → img < 2 → Completes .fwVerifyDone s (fun t =>
        natO t Obj.fw.result = firmwareResult s img ∧ t.bus = { s.bus with fwVerifying := none }
        ∧ natO t (Obj.fw.version img) = (if firmwareResult s img = 0 then imageVersion s img else 0)
        ∧ ObjectsKept s t [Obj.fw.result, Obj.fw.version img] ∧ ObjectsOnly s { t with bus := s.bus }))
    ∧ (s.ctl.handover = true → Completes .handoverDone s (fun t => natO t Obj.fw.running = 1 - natO s Obj.fw.running
        ∧ natO t Obj.ident.fwVersion = natO s (Obj.fw.version (1 - natO s Obj.fw.running)) ∧ CountsOne s t Obj.fw.handovers
        ∧ t.ctl = { s.ctl with handover := false } ∧ ObjectsKept s t [Obj.fw.running, Obj.ident.fwVersion, Obj.fw.handovers]))
    ∧ (s.ctl.handover = true → Completes .handoverTimeout s (fun t => natO t Obj.fw.result = 5 ∧ t.ctl = { s.ctl with handover := false }
        ∧ t.rst = { s.rst with starting := s.rst.starting ++ [(s.frame + 1, 25, 0)] } ∧ ObjectsKept s t [Obj.fw.result]))

/-- R425: JTAG_TRST_N low holds Test-Logic-Reset with IDCODE; an edge of JTAG_TCK moves the TAP controller, captures and shifts the
registers, TDO showing the bit that leaves, and latches the instruction and the boundary cells; nothing else of the engine moves.
The codes of the instructions are opaque (log entry 59). -/
def Obligations.BoundaryScan : Prop :=
  ∀ (s : State) (tms tdi : Bool), let j := s.jtag
    exec (.jtagTck tms tdi false) s = .next { s with jtag := { j with tap := .testLogicReset, ir := .idcode } }
    ∧ Completes (.jtagTck tms tdi true) s (fun t => t = { s with jtag := t.jtag } ∧ t.jtag.tap = tapNext j.tap tms
      ∧ (j.tap = .shiftDr → t.jtag.dr = j.dr.drop 1 ++ [tdi] ∧ t.jtag.tdo = j.dr.headD false)
      ∧ (j.tap = .shiftIr → t.jtag.irShift = j.irShift.drop 1 ++ [tdi] ∧ t.jtag.tdo = j.irShift.headD false)
      ∧ (j.tap = .captureDr → j.ir = .idcode → t.jtag.dr = idcodeBits) ∧ (j.tap = .captureDr → j.ir = .bypass → t.jtag.dr = [false])
      ∧ (tapNext j.tap tms = .updateIr → t.jtag.ir = jtagInstr j.irShift)
      ∧ (tapNext j.tap tms = .testLogicReset → t.jtag.ir = .idcode)
      ∧ (tapNext j.tap tms = .updateDr → j.ir = .extest ∨ j.ir = .sample → t.jtag.latched = j.dr)
      ∧ (tapNext j.tap tms ≠ .updateDr → t.jtag.latched = j.latched))

/-! ## The frame and the whole engine -/

/-- R22, R349: once PLL2 runs, a frame tick moves FRAME_NO by one, from 0 at the first tick, holding at 2^48 − 1, and the RTC by a
frame of 500,000 thirds of a nanosecond (log entry 47); the TDM ports stand at the first position of the frame; before PLL2 runs a
tick does nothing. R217, R218, R419: in its part of a tick every link whose lanes are driven has carried 64,000 blocks, which go out,
and WCK_OUT as many periods as the frame has samples, where neither a splice nor a reframe moves the tick. -/
def Obligations.FrameAdvances : Prop :=
  ∀ s : State,
    (s.rst.pllLocked = true → 3 ≤ s.rst.released → Completes .frameTick s (fun t =>
      t.frame = (if s.rst.ticked = true then (if s.frame + 1 < 281474976710656 then s.frame + 1 else s.frame) else 0)
      ∧ t.rst.ticked = true ∧ t.rst.rtc = s.rst.rtc + 500000 ∧ t.rst.upFrames = (if s.rst.begun = true then s.rst.upFrames + 1 else 0)
      ∧ t.conf.tdm.position = [0, 0, 0, 0] ∧ t.pending = s.pending ∧ t.pins = s.pins ∧ t.jtag = s.jtag))
    ∧ (s.rst.pllLocked = false ∨ s.rst.released < 3 → exec .frameTick s = .next s)
    ∧ (∀ l b, l < 6 → 2 ≤ linkState s l → linkState s l ≤ 6 → (linkOf s l).count = some b → s.conf.splice = none → s.conf.reframe = none →
        (linkOf (braidTick s) l).count = some (b + 64000) ∧ (linkOf (braidTick s) l).handed = []
        ∧ .lanes l (laneFrame s l b).1 ∈ (braidTick s).out)
    ∧ (s.conf.splice = none → s.conf.reframe = none → wckDriven s = true → (wckTick s).out = .wck (frameSamples s) :: s.out)

/-- The commands of the queue run first in, first out: a step is the meaning of the front command on the state with the rest of the
queue; an empty queue leaves the block as it is (log entry 1). -/
def Obligations.StepRunsFront : Prop :=
  (∀ (c : Instr) (rest : List Instr) (s : State), step { s with pending := c :: rest } = exec c { s with pending := rest })
    ∧ ∀ s : State, s.pending = [] → step s = .next s

/-- No command stops the engine: the manual gives each an effect, so every command answers a next state from every state. -/
def Obligations.EveryCommandAnswers : Prop :=
  ∀ (c : Instr) (s : State), ∃ t, exec c s = .next t

/-- R365: whatever command is carried out, EVT_N afterwards stands low exactly when an unmasked event whose SEVERITY is at least
EVT_LEVEL has STICKY set, from Rising on (Table 14.10). -/
def Obligations.EvtNDrivenAlways : Prop :=
  ∀ s t : State, EvtNDriven s → step s = .next t →
    (t.ev.evtN = true ↔ 2 ≤ stageOf t ∧ ∃ n, n < 256 ∧ getO t (Obj.evt.sticky n) = 1 ∧ getO t (Obj.evt.mask n) = 0
      ∧ getO t Obj.evset.evtLevel ≤ getO t (Obj.evt.severity n))

/-- R335, R338, R341, R349, R365, R386: right after power-on the engine is in Frozen, held by the power-on source, with no command
waiting, nothing sent, EVT_N released, the stores and memories canonical, every cell canonical and stopped, PLLs not running, and
the boot ROM at address 0. The internal state is that of log entry 3; with no command waiting the block idles (log entry 1). -/
def Obligations.AfterReset : Prop :=
  let s := State.reset
  s.pending = [] ∧ s.out = [] ∧ stageOf s = 0 ∧ s.rst.asserted = [0] ∧ s.rst.cold = true ∧ s.rst.released = 0 ∧ s.rst.pllLocked = false
    ∧ s.rst.optionsLoaded = false ∧ s.rst.begun = false ∧ s.frame = 0 ∧ EvtNDriven s ∧ s.ev.evtN = false ∧ StoresCanonical s ∧ Memory.wf s.bus = true ∧ cellsSound s
    ∧ (∀ n, (cellOf s n).active = false) ∧ s.ctl.journal = [] ∧ s.slu.waiting = [] ∧ mapOf s 0 16 = some (.rom, 0)
    ∧ step s = .next s
end

