-- ==== Sys2Proof/Laws/Bytes.lean ====
section
/-! SUPPORT. Numbers and bytes in both orders (R8), and the range of CRC-32. -/

namespace Sys2Proof.Machine

theorem foldl_bytes (b : List Byte) (n : Nat) :
    b.foldl (fun n x => n * 256 + x.toNat) n = n * 256 ^ b.length + beNat b := by
  induction b generalizing n with
  | nil => simp [beNat]
  | cons x b ih =>
    rw [beNat, List.foldl_cons, List.foldl_cons, ih, ih, List.length_cons, Nat.pow_succ]
    have h : (n * 256 + x.toNat) * 256 ^ b.length = n * (256 ^ b.length * 256) + x.toNat * 256 ^ b.length := by
      rw [Nat.add_mul, Nat.mul_assoc, Nat.mul_comm 256]
    rw [h, Nat.zero_mul, Nat.zero_add]; omega

theorem beNat_cons (x : Byte) (b : List Byte) : beNat (x :: b) = x.toNat * 256 ^ b.length + beNat b := by
  rw [beNat, List.foldl_cons, foldl_bytes]; simp

theorem beNat_append (a b : List Byte) : beNat (a ++ b) = beNat a * 256 ^ b.length + beNat b := by
  rw [beNat, List.foldl_append, foldl_bytes]; rfl

theorem natBE_length (n k : Nat) : (natBE n k).length = k := by
  induction k with
  | zero => rfl
  | succ k ih => simp [natBE, ih]

theorem natLE_length (n k : Nat) : (natLE n k).length = k := by simp [natLE, natBE_length]

/-- Reading back the bytes of a number gives the number, cut to the bytes. -/
theorem beNat_natBE (n k : Nat) : beNat (natBE n k) = n % 256 ^ k := by
  induction k with
  | zero => simp [natBE, beNat, Nat.mod_one]
  | succ k ih =>
    have h : n % 256 ^ (k + 1) = n % 256 ^ k + 256 ^ k * (n / 256 ^ k % 256) := by rw [Nat.pow_succ, Nat.mod_mul]
    rw [natBE, beNat_cons, natBE_length, ih, BitVec.toNat_ofNat, h, Nat.mul_comm, Nat.add_comm]

theorem leNat_natLE (n k : Nat) : leNat (natLE n k) = n % 256 ^ k := by
  rw [leNat, natLE, List.reverse_reverse, beNat_natBE]

theorem crc32_lt (b : List Byte) : crc32 b < 256 ^ 4 := by
  unfold crc32; exact BitVec.isLt _

/-- The four bytes of a CRC-32 read back as the CRC-32, in either order. -/
theorem beNat_crc32 (b : List Byte) : beNat (natBE (crc32 b) 4) = crc32 b := by
  rw [beNat_natBE, Nat.mod_eq_of_lt (crc32_lt b)]

theorem leNat_crc32 (b : List Byte) : leNat (natLE (crc32 b) 4) = crc32 b := by
  rw [leNat_natLE, Nat.mod_eq_of_lt (crc32_lt b)]

end Sys2Proof.Machine
end

