-- ==== Sys2Proof/Laws/Sparse.lean ====
section
/-! SUPPORT. Laws of the sparse stores: a read after a write, and the canonical form that every write keeps. -/

namespace Sys2Proof.Machine

variable {α : Type} {d : Nat → α} {m : List (Nat × α)} {lo k j : Nat} {v : α}

/-! ## Reading after writing -/

theorem Sparse.get_drop_ne (h : j ≠ k) : Sparse.get d (Sparse.drop m k) j = Sparse.get d m j := by
  induction m with
  | nil => rfl
  | cons e r ih =>
    obtain ⟨i, w⟩ := e
    by_cases hik : i = k
    · subst hik; simp [Sparse.drop, Sparse.get, ih, Ne.symm h]
    · simp only [Sparse.drop, hik, if_false, Sparse.get, ih]

theorem Sparse.get_drop_self : Sparse.get d (Sparse.drop m k) k = d k := by
  induction m with
  | nil => rfl
  | cons e r ih =>
    obtain ⟨i, w⟩ := e
    by_cases hik : i = k
    · simpa [Sparse.drop, hik] using ih
    · simpa [Sparse.drop, Sparse.get, hik] using ih

theorem Sparse.get_insert_ne (h : j ≠ k) : Sparse.get d (Sparse.insert m k v) j = Sparse.get d m j := by
  induction m with
  | nil => simp [Sparse.insert, Sparse.get, Ne.symm h]
  | cons e r ih =>
    obtain ⟨i, w⟩ := e
    by_cases hik : i = k
    · subst hik; simp [Sparse.insert, Sparse.get, Ne.symm h]
    · by_cases hlt : k < i
      · simp [Sparse.insert, Sparse.get, hik, hlt, Ne.symm h]
      · simp only [Sparse.insert, hik, hlt, if_false, Sparse.get, ih]

theorem Sparse.get_insert_self : Sparse.get d (Sparse.insert m k v) k = v := by
  induction m with
  | nil => simp [Sparse.insert, Sparse.get]
  | cons e r ih =>
    obtain ⟨i, w⟩ := e
    by_cases hik : i = k
    · simp [Sparse.insert, Sparse.get, hik]
    · by_cases hlt : k < i
      · simp [Sparse.insert, Sparse.get, hik, hlt]
      · simp only [Sparse.insert, hik, hlt, if_false, Sparse.get, ih]

section writing

variable [DecidableEq α]

/-- A read after a write: the value written at its key, and what was there at every other key. -/
theorem Sparse.get_put : Sparse.get d (Sparse.put d m k v) j = if j = k then v else Sparse.get d m j := by
  unfold Sparse.put
  by_cases hv : v = d k <;> by_cases hj : j = k
  · subst hj; simp [hv, Sparse.get_drop_self]
  · simp [hv, hj, Sparse.get_drop_ne hj]
  · subst hj; simp [hv, Sparse.get_insert_self]
  · simp [hv, hj, Sparse.get_insert_ne hj]

end writing

/-! ## The canonical form -/

theorem Sparse.sortedFrom_mono {hi : Nat} (hle : lo ≤ hi) : Sparse.sortedFrom hi m = true → Sparse.sortedFrom lo m = true := by
  cases m with
  | nil => intro _; rfl
  | cons e r =>
    obtain ⟨i, w⟩ := e
    simp only [Sparse.sortedFrom, Bool.and_eq_true, decide_eq_true_eq]
    exact fun h => ⟨Nat.le_trans hle h.1, h.2⟩

theorem Sparse.sortedFrom_drop : ∀ {lo : Nat} {m : List (Nat × α)}, Sparse.sortedFrom lo m = true → Sparse.sortedFrom lo (Sparse.drop m k) = true
  | _, [], _ => rfl
  | lo, (i, w) :: r, h => by
    simp only [Sparse.sortedFrom, Bool.and_eq_true, decide_eq_true_eq] at h
    have hr := Sparse.sortedFrom_drop h.2
    by_cases hik : i = k
    · simp only [Sparse.drop, hik, if_true]
      exact Sparse.sortedFrom_mono (by omega) hr
    · simp only [Sparse.drop, hik, if_false, Sparse.sortedFrom, Bool.and_eq_true, decide_eq_true_eq]
      exact ⟨h.1, hr⟩

theorem Sparse.sortedFrom_insert : ∀ {lo : Nat} {m : List (Nat × α)}, lo ≤ k → Sparse.sortedFrom lo m = true →
    Sparse.sortedFrom lo (Sparse.insert m k v) = true
  | lo, [], hk, _ => by simp [Sparse.insert, Sparse.sortedFrom, hk]
  | lo, (i, w) :: r, hk, h => by
    simp only [Sparse.sortedFrom, Bool.and_eq_true, decide_eq_true_eq] at h
    by_cases hik : i = k
    · subst hik; simp [Sparse.insert, Sparse.sortedFrom, hk, h.2]
    · by_cases hlt : k < i
      · simp only [Sparse.insert, hik, hlt, if_false, if_true, Sparse.sortedFrom, Bool.and_eq_true, decide_eq_true_eq]
        exact ⟨hk, by omega, h.2⟩
      · simp only [Sparse.insert, hik, hlt, if_false, Sparse.sortedFrom, Bool.and_eq_true, decide_eq_true_eq]
        exact ⟨h.1, Sparse.sortedFrom_insert (by omega) h.2⟩

theorem Sparse.mem_drop {e : Nat × α} : e ∈ Sparse.drop m k → e ∈ m := by
  induction m with
  | nil => exact id
  | cons f r ih =>
    obtain ⟨i, w⟩ := f
    by_cases hik : i = k
    · simp only [Sparse.drop, hik, if_true]; exact fun h => List.mem_cons_of_mem _ (ih h)
    · simp only [Sparse.drop, hik, if_false, List.mem_cons]
      exact fun h => h.imp id ih

theorem Sparse.mem_insert {e : Nat × α} : e ∈ Sparse.insert m k v → e = (k, v) ∨ e ∈ m := by
  induction m with
  | nil => simp [Sparse.insert]
  | cons f r ih =>
    obtain ⟨i, w⟩ := f
    by_cases hik : i = k
    · simp only [Sparse.insert, hik, if_true, List.mem_cons]; exact fun h => h.imp id Or.inr
    · by_cases hlt : k < i
      · simp only [Sparse.insert, hik, hlt, if_false, if_true, List.mem_cons]; exact fun h => h
      · simp only [Sparse.insert, hik, hlt, if_false, List.mem_cons]
        rintro (h | h)
        · exact Or.inr (Or.inl h)
        · exact (ih h).imp id Or.inr

/-- Writing one value keeps the canonical form. -/
theorem Sparse.wf_put [DecidableEq α] (h : Sparse.wf d m = true) : Sparse.wf d (Sparse.put d m k v) = true := by
  simp only [Sparse.wf, Bool.and_eq_true, List.all_eq_true, decide_eq_true_eq] at h ⊢
  unfold Sparse.put
  by_cases hv : v = d k
  · simp only [hv, if_true]
    exact ⟨Sparse.sortedFrom_drop h.1, fun e he => h.2 e (Sparse.mem_drop he)⟩
  · simp only [hv, if_false]
    refine ⟨Sparse.sortedFrom_insert (Nat.zero_le k) h.1, fun e he => ?_⟩
    rcases Sparse.mem_insert he with rfl | hm
    · exact hv
    · exact h.2 e hm

theorem Sparse.sortedFrom_filter (p : Nat × α → Bool) : ∀ {lo : Nat} {m : List (Nat × α)}, Sparse.sortedFrom lo m = true →
    Sparse.sortedFrom lo (m.filter p) = true
  | _, [], _ => rfl
  | lo, (i, w) :: r, h => by
    simp only [Sparse.sortedFrom, Bool.and_eq_true, decide_eq_true_eq] at h
    have hr := Sparse.sortedFrom_filter p h.2
    by_cases hp : p (i, w) = true
    · simp only [List.filter_cons, hp, if_true, Sparse.sortedFrom, Bool.and_eq_true, decide_eq_true_eq]; exact ⟨h.1, hr⟩
    · simp only [List.filter_cons, hp]; exact Sparse.sortedFrom_mono (by omega) hr

/-- Removing entries keeps the canonical form. -/
theorem Sparse.wf_filter [DecidableEq α] (p : Nat × α → Bool) (h : Sparse.wf d m = true) : Sparse.wf d (m.filter p) = true := by
  simp only [Sparse.wf, Bool.and_eq_true, List.all_eq_true, decide_eq_true_eq] at h ⊢
  exact ⟨Sparse.sortedFrom_filter p h.1, fun e he => h.2 e ((List.mem_filter.mp he).1)⟩

theorem Sparse.sortedFrom_append {hi : Nat} : ∀ {lo : Nat} {a b : List (Nat × α)}, Sparse.sortedFrom lo a = true → lo ≤ hi →
    (∀ e ∈ a, e.1 < hi) → Sparse.sortedFrom hi b = true → Sparse.sortedFrom lo (a ++ b) = true
  | lo, [], b, _, hl, _, hb => Sparse.sortedFrom_mono hl hb
  | lo, (i, w) :: r, b, ha, _, hlt, hb => by
    simp only [Sparse.sortedFrom, Bool.and_eq_true, decide_eq_true_eq] at ha
    have hi' := hlt (i, w) (List.mem_cons_self ..)
    simp only [List.cons_append, Sparse.sortedFrom, Bool.and_eq_true, decide_eq_true_eq]
    exact ⟨ha.1, Sparse.sortedFrom_append ha.2 hi' (fun e he => hlt e (List.mem_cons_of_mem _ he)) hb⟩

theorem Sparse.run_spec [DecidableEq α] : ∀ (b : List α) (k : Nat), Sparse.sortedFrom k (Sparse.run d k b) = true
    ∧ ∀ e ∈ Sparse.run d k b, e.1 < k + b.length ∧ e.2 ≠ d e.1
  | [], _ => ⟨rfl, fun _ he => nomatch he⟩
  | v :: r, k => by
    obtain ⟨h1, h2⟩ := Sparse.run_spec r (k + 1)
    by_cases hv : v = d k
    · simp only [Sparse.run, hv, if_true, List.length_cons]
      exact ⟨Sparse.sortedFrom_mono (by omega) h1, fun e he => ⟨by have := (h2 e he).1; omega, (h2 e he).2⟩⟩
    · simp only [Sparse.run, hv, if_false, List.length_cons, Sparse.sortedFrom, Bool.and_eq_true, decide_eq_true_eq]
      refine ⟨⟨Nat.le_refl k, h1⟩, fun e he => ?_⟩
      rcases List.mem_cons.mp he with rfl | hm
      · exact ⟨by simp, hv⟩
      · exact ⟨by have := (h2 e hm).1; omega, (h2 e hm).2⟩

/-- Every entry of a filtered store whose filter demands a key of at least `hi` lies at or above it. -/
theorem Sparse.sortedFrom_above {hi : Nat} : ∀ {lo : Nat} {m : List (Nat × α)}, Sparse.sortedFrom lo m = true →
    Sparse.sortedFrom hi (m.filter (fun e => decide (hi ≤ e.1))) = true
  | _, [], _ => rfl
  | lo, (i, w) :: r, h => by
    simp only [Sparse.sortedFrom, Bool.and_eq_true, decide_eq_true_eq] at h
    by_cases hp : hi ≤ i
    · simp only [List.filter_cons, hp, decide_true, if_true, Sparse.sortedFrom, Bool.and_eq_true]
      exact ⟨trivial, Sparse.sortedFrom_filter _ h.2⟩
    · simp only [List.filter_cons, hp, decide_false]
      exact Sparse.sortedFrom_above h.2

/-- Writing a run of values keeps the canonical form. -/
theorem Sparse.wf_putMany [DecidableEq α] {b : List α} (h : Sparse.wf d m = true) : Sparse.wf d (Sparse.putMany d m k b) = true := by
  simp only [Sparse.wf, Bool.and_eq_true, List.all_eq_true, decide_eq_true_eq] at h ⊢
  obtain ⟨r1, r2⟩ := Sparse.run_spec (d := d) b k
  refine ⟨?_, fun e he => ?_⟩
  · unfold Sparse.putMany
    rw [List.append_assoc]
    refine Sparse.sortedFrom_append (hi := k) (Sparse.sortedFrom_filter _ h.1) (Nat.zero_le k) (fun e he => ?_)
      (Sparse.sortedFrom_append (hi := k + b.length) r1 (by omega) (fun e he => (r2 e he).1) (Sparse.sortedFrom_above h.1))
    simpa using (List.mem_filter.mp he).2
  · simp only [Sparse.putMany, List.mem_append] at he
    rcases he with (he | he) | he
    · exact h.2 e ((List.mem_filter.mp he).1)
    · exact (r2 e he).2
    · exact h.2 e ((List.mem_filter.mp he).1)

end Sys2Proof.Machine
end

