-- ==== Sys2Proof/Laws/State.lean ====
section
/-! SUPPORT. One lemma per field per update of the state: what an update leaves alone and what it sets. -/

namespace Sys2Proof.Machine

variable (s : State)

/-! ## setO -/

@[simp] theorem setO_pending (k : Nat) (v : Int) : (setO s k v).pending = s.pending := rfl
@[simp] theorem setO_out (k : Nat) (v : Int) : (setO s k v).out = s.out := rfl
@[simp] theorem setO_fresh (k : Nat) (v : Int) : (setO s k v).fresh = s.fresh := rfl
@[simp] theorem setO_frame (k : Nat) (v : Int) : (setO s k v).frame = s.frame := rfl
theorem setO_obj (k : Nat) (v : Int) : (setO s k v).obj = Sparse.put dfltOf s.obj k v := rfl
@[simp] theorem setO_blob (k : Nat) (v : Int) : (setO s k v).blob = s.blob := rfl
@[simp] theorem setO_ctl (k : Nat) (v : Int) : (setO s k v).ctl = s.ctl := rfl
@[simp] theorem setO_slu (k : Nat) (v : Int) : (setO s k v).slu = s.slu := rfl
@[simp] theorem setO_cells (k : Nat) (v : Int) : (setO s k v).cells = s.cells := rfl
@[simp] theorem setO_prog (k : Nat) (v : Int) : (setO s k v).prog = s.prog := rfl
@[simp] theorem setO_eddy (k : Nat) (v : Int) : (setO s k v).eddy = s.eddy := rfl
@[simp] theorem setO_conf (k : Nat) (v : Int) : (setO s k v).conf = s.conf := rfl
@[simp] theorem setO_array (k : Nat) (v : Int) : (setO s k v).array = s.array := rfl
@[simp] theorem setO_braid (k : Nat) (v : Int) : (setO s k v).braid = s.braid := rfl
@[simp] theorem setO_net (k : Nat) (v : Int) : (setO s k v).net = s.net := rfl
@[simp] theorem setO_time (k : Nat) (v : Int) : (setO s k v).time = s.time := rfl
@[simp] theorem setO_sel (k : Nat) (v : Int) : (setO s k v).sel = s.sel := rfl
@[simp] theorem setO_pair (k : Nat) (v : Int) : (setO s k v).pair = s.pair := rfl
@[simp] theorem setO_fed (k : Nat) (v : Int) : (setO s k v).fed = s.fed := rfl
@[simp] theorem setO_rst (k : Nat) (v : Int) : (setO s k v).rst = s.rst := rfl
@[simp] theorem setO_ev (k : Nat) (v : Int) : (setO s k v).ev = s.ev := rfl
@[simp] theorem setO_bus (k : Nat) (v : Int) : (setO s k v).bus = s.bus := rfl
@[simp] theorem setO_jtag (k : Nat) (v : Int) : (setO s k v).jtag = s.jtag := rfl
@[simp] theorem setO_pins (k : Nat) (v : Int) : (setO s k v).pins = s.pins := rfl
@[simp] theorem getB_setO (k : Nat) (v : Int) (j : Nat) : getB (setO s k v) j = getB s j := rfl

/-! ## setB -/

@[simp] theorem setB_pending (k : Nat) (v : List Byte) : (setB s k v).pending = s.pending := rfl
@[simp] theorem setB_out (k : Nat) (v : List Byte) : (setB s k v).out = s.out := rfl
@[simp] theorem setB_fresh (k : Nat) (v : List Byte) : (setB s k v).fresh = s.fresh := rfl
@[simp] theorem setB_frame (k : Nat) (v : List Byte) : (setB s k v).frame = s.frame := rfl
@[simp] theorem setB_obj (k : Nat) (v : List Byte) : (setB s k v).obj = s.obj := rfl
theorem setB_blob (k : Nat) (v : List Byte) : (setB s k v).blob = Sparse.put blobDflt s.blob k v := rfl
@[simp] theorem setB_ctl (k : Nat) (v : List Byte) : (setB s k v).ctl = s.ctl := rfl
@[simp] theorem setB_slu (k : Nat) (v : List Byte) : (setB s k v).slu = s.slu := rfl
@[simp] theorem setB_cells (k : Nat) (v : List Byte) : (setB s k v).cells = s.cells := rfl
@[simp] theorem setB_prog (k : Nat) (v : List Byte) : (setB s k v).prog = s.prog := rfl
@[simp] theorem setB_eddy (k : Nat) (v : List Byte) : (setB s k v).eddy = s.eddy := rfl
@[simp] theorem setB_conf (k : Nat) (v : List Byte) : (setB s k v).conf = s.conf := rfl
@[simp] theorem setB_array (k : Nat) (v : List Byte) : (setB s k v).array = s.array := rfl
@[simp] theorem setB_braid (k : Nat) (v : List Byte) : (setB s k v).braid = s.braid := rfl
@[simp] theorem setB_net (k : Nat) (v : List Byte) : (setB s k v).net = s.net := rfl
@[simp] theorem setB_time (k : Nat) (v : List Byte) : (setB s k v).time = s.time := rfl
@[simp] theorem setB_sel (k : Nat) (v : List Byte) : (setB s k v).sel = s.sel := rfl
@[simp] theorem setB_pair (k : Nat) (v : List Byte) : (setB s k v).pair = s.pair := rfl
@[simp] theorem setB_fed (k : Nat) (v : List Byte) : (setB s k v).fed = s.fed := rfl
@[simp] theorem setB_rst (k : Nat) (v : List Byte) : (setB s k v).rst = s.rst := rfl
@[simp] theorem setB_ev (k : Nat) (v : List Byte) : (setB s k v).ev = s.ev := rfl
@[simp] theorem setB_bus (k : Nat) (v : List Byte) : (setB s k v).bus = s.bus := rfl
@[simp] theorem setB_jtag (k : Nat) (v : List Byte) : (setB s k v).jtag = s.jtag := rfl
@[simp] theorem setB_pins (k : Nat) (v : List Byte) : (setB s k v).pins = s.pins := rfl
@[simp] theorem getO_setB (k : Nat) (v : List Byte) (j : Nat) : getO (setB s k v) j = getO s j := rfl
@[simp] theorem natO_setB (k : Nat) (v : List Byte) (j : Nat) : natO (setB s k v) j = natO s j := rfl

/-! ## emit -/

@[simp] theorem emit_pending (o : Out) : (emit s o).pending = s.pending := rfl
@[simp] theorem emit_out (o : Out) : (emit s o).out = o :: s.out := rfl
@[simp] theorem emit_fresh (o : Out) : (emit s o).fresh = s.fresh := rfl
@[simp] theorem emit_frame (o : Out) : (emit s o).frame = s.frame := rfl
@[simp] theorem emit_obj (o : Out) : (emit s o).obj = s.obj := rfl
@[simp] theorem emit_blob (o : Out) : (emit s o).blob = s.blob := rfl
@[simp] theorem emit_ctl (o : Out) : (emit s o).ctl = s.ctl := rfl
@[simp] theorem emit_slu (o : Out) : (emit s o).slu = s.slu := rfl
@[simp] theorem emit_cells (o : Out) : (emit s o).cells = s.cells := rfl
@[simp] theorem emit_prog (o : Out) : (emit s o).prog = s.prog := rfl
@[simp] theorem emit_eddy (o : Out) : (emit s o).eddy = s.eddy := rfl
@[simp] theorem emit_conf (o : Out) : (emit s o).conf = s.conf := rfl
@[simp] theorem emit_array (o : Out) : (emit s o).array = s.array := rfl
@[simp] theorem emit_braid (o : Out) : (emit s o).braid = s.braid := rfl
@[simp] theorem emit_net (o : Out) : (emit s o).net = s.net := rfl
@[simp] theorem emit_time (o : Out) : (emit s o).time = s.time := rfl
@[simp] theorem emit_sel (o : Out) : (emit s o).sel = s.sel := rfl
@[simp] theorem emit_pair (o : Out) : (emit s o).pair = s.pair := rfl
@[simp] theorem emit_fed (o : Out) : (emit s o).fed = s.fed := rfl
@[simp] theorem emit_rst (o : Out) : (emit s o).rst = s.rst := rfl
@[simp] theorem emit_ev (o : Out) : (emit s o).ev = s.ev := rfl
@[simp] theorem emit_bus (o : Out) : (emit s o).bus = s.bus := rfl
@[simp] theorem emit_jtag (o : Out) : (emit s o).jtag = s.jtag := rfl
@[simp] theorem emit_pins (o : Out) : (emit s o).pins = s.pins := rfl
@[simp] theorem getO_emit (o : Out) (j : Nat) : getO (emit s o) j = getO s j := rfl
@[simp] theorem natO_emit (o : Out) (j : Nat) : natO (emit s o) j = natO s j := rfl
@[simp] theorem getB_emit (o : Out) (j : Nat) : getB (emit s o) j = getB s j := rfl

/-! ## setSession -/

@[simp] theorem setSession_pending (n : Nat) (v : Session) : (setSession s n v).pending = s.pending := rfl
@[simp] theorem setSession_out (n : Nat) (v : Session) : (setSession s n v).out = s.out := rfl
@[simp] theorem setSession_fresh (n : Nat) (v : Session) : (setSession s n v).fresh = s.fresh := rfl
@[simp] theorem setSession_frame (n : Nat) (v : Session) : (setSession s n v).frame = s.frame := rfl
@[simp] theorem setSession_obj (n : Nat) (v : Session) : (setSession s n v).obj = s.obj := rfl
@[simp] theorem setSession_blob (n : Nat) (v : Session) : (setSession s n v).blob = s.blob := rfl
@[simp] theorem setSession_ctl (n : Nat) (v : Session) : (setSession s n v).ctl = { s.ctl with sessions := Sparse.put (fun _ => Session.free) s.ctl.sessions n v } := rfl
@[simp] theorem setSession_slu (n : Nat) (v : Session) : (setSession s n v).slu = s.slu := rfl
@[simp] theorem setSession_cells (n : Nat) (v : Session) : (setSession s n v).cells = s.cells := rfl
@[simp] theorem setSession_prog (n : Nat) (v : Session) : (setSession s n v).prog = s.prog := rfl
@[simp] theorem setSession_eddy (n : Nat) (v : Session) : (setSession s n v).eddy = s.eddy := rfl
@[simp] theorem setSession_conf (n : Nat) (v : Session) : (setSession s n v).conf = s.conf := rfl
@[simp] theorem setSession_array (n : Nat) (v : Session) : (setSession s n v).array = s.array := rfl
@[simp] theorem setSession_braid (n : Nat) (v : Session) : (setSession s n v).braid = s.braid := rfl
@[simp] theorem setSession_net (n : Nat) (v : Session) : (setSession s n v).net = s.net := rfl
@[simp] theorem setSession_time (n : Nat) (v : Session) : (setSession s n v).time = s.time := rfl
@[simp] theorem setSession_sel (n : Nat) (v : Session) : (setSession s n v).sel = s.sel := rfl
@[simp] theorem setSession_pair (n : Nat) (v : Session) : (setSession s n v).pair = s.pair := rfl
@[simp] theorem setSession_fed (n : Nat) (v : Session) : (setSession s n v).fed = s.fed := rfl
@[simp] theorem setSession_rst (n : Nat) (v : Session) : (setSession s n v).rst = s.rst := rfl
@[simp] theorem setSession_ev (n : Nat) (v : Session) : (setSession s n v).ev = s.ev := rfl
@[simp] theorem setSession_bus (n : Nat) (v : Session) : (setSession s n v).bus = s.bus := rfl
@[simp] theorem setSession_jtag (n : Nat) (v : Session) : (setSession s n v).jtag = s.jtag := rfl
@[simp] theorem setSession_pins (n : Nat) (v : Session) : (setSession s n v).pins = s.pins := rfl
@[simp] theorem getO_setSession (n : Nat) (v : Session) (j : Nat) : getO (setSession s n v) j = getO s j := rfl
@[simp] theorem natO_setSession (n : Nat) (v : Session) (j : Nat) : natO (setSession s n v) j = natO s j := rfl
@[simp] theorem getB_setSession (n : Nat) (v : Session) (j : Nat) : getB (setSession s n v) j = getB s j := rfl

/-! ## setDriftQ -/

@[simp] theorem setDriftQ_pending (q : Nat) (v : DQueue) : (setDriftQ s q v).pending = s.pending := rfl
@[simp] theorem setDriftQ_out (q : Nat) (v : DQueue) : (setDriftQ s q v).out = s.out := rfl
@[simp] theorem setDriftQ_fresh (q : Nat) (v : DQueue) : (setDriftQ s q v).fresh = s.fresh := rfl
@[simp] theorem setDriftQ_frame (q : Nat) (v : DQueue) : (setDriftQ s q v).frame = s.frame := rfl
@[simp] theorem setDriftQ_obj (q : Nat) (v : DQueue) : (setDriftQ s q v).obj = s.obj := rfl
@[simp] theorem setDriftQ_blob (q : Nat) (v : DQueue) : (setDriftQ s q v).blob = s.blob := rfl
@[simp] theorem setDriftQ_ctl (q : Nat) (v : DQueue) : (setDriftQ s q v).ctl = s.ctl := rfl
@[simp] theorem setDriftQ_slu (q : Nat) (v : DQueue) : (setDriftQ s q v).slu = s.slu := rfl
@[simp] theorem setDriftQ_cells (q : Nat) (v : DQueue) : (setDriftQ s q v).cells = s.cells := rfl
@[simp] theorem setDriftQ_prog (q : Nat) (v : DQueue) : (setDriftQ s q v).prog = s.prog := rfl
@[simp] theorem setDriftQ_eddy (q : Nat) (v : DQueue) : (setDriftQ s q v).eddy = s.eddy := rfl
@[simp] theorem setDriftQ_conf (q : Nat) (v : DQueue) : (setDriftQ s q v).conf = s.conf := rfl
@[simp] theorem setDriftQ_array (q : Nat) (v : DQueue) : (setDriftQ s q v).array = s.array := rfl
@[simp] theorem setDriftQ_braid (q : Nat) (v : DQueue) : (setDriftQ s q v).braid = s.braid := rfl
@[simp] theorem setDriftQ_net (q : Nat) (v : DQueue) : (setDriftQ s q v).net = s.net := rfl
@[simp] theorem setDriftQ_time (q : Nat) (v : DQueue) : (setDriftQ s q v).time = s.time := rfl
@[simp] theorem setDriftQ_sel (q : Nat) (v : DQueue) : (setDriftQ s q v).sel = s.sel := rfl
@[simp] theorem setDriftQ_pair (q : Nat) (v : DQueue) : (setDriftQ s q v).pair = s.pair := rfl
@[simp] theorem setDriftQ_fed (q : Nat) (v : DQueue) : (setDriftQ s q v).fed = s.fed := rfl
@[simp] theorem setDriftQ_rst (q : Nat) (v : DQueue) : (setDriftQ s q v).rst = s.rst := rfl
@[simp] theorem setDriftQ_ev (q : Nat) (v : DQueue) : (setDriftQ s q v).ev = { s.ev with queues := Sparse.put (fun _ => DQueue.empty) s.ev.queues q v } := rfl
@[simp] theorem setDriftQ_bus (q : Nat) (v : DQueue) : (setDriftQ s q v).bus = s.bus := rfl
@[simp] theorem setDriftQ_jtag (q : Nat) (v : DQueue) : (setDriftQ s q v).jtag = s.jtag := rfl
@[simp] theorem setDriftQ_pins (q : Nat) (v : DQueue) : (setDriftQ s q v).pins = s.pins := rfl
@[simp] theorem getO_setDriftQ (q : Nat) (v : DQueue) (j : Nat) : getO (setDriftQ s q v) j = getO s j := rfl
@[simp] theorem natO_setDriftQ (q : Nat) (v : DQueue) (j : Nat) : natO (setDriftQ s q v) j = natO s j := rfl
@[simp] theorem getB_setDriftQ (q : Nat) (v : DQueue) (j : Nat) : getB (setDriftQ s q v) j = getB s j := rfl

/-! ## driveEvtN -/

@[simp] theorem driveEvtN_pending : (driveEvtN s).pending = s.pending := rfl
@[simp] theorem driveEvtN_out : (driveEvtN s).out = s.out := rfl
@[simp] theorem driveEvtN_fresh : (driveEvtN s).fresh = s.fresh := rfl
@[simp] theorem driveEvtN_frame : (driveEvtN s).frame = s.frame := rfl
@[simp] theorem driveEvtN_obj : (driveEvtN s).obj = s.obj := rfl
@[simp] theorem driveEvtN_blob : (driveEvtN s).blob = s.blob := rfl
@[simp] theorem driveEvtN_ctl : (driveEvtN s).ctl = s.ctl := rfl
@[simp] theorem driveEvtN_slu : (driveEvtN s).slu = s.slu := rfl
@[simp] theorem driveEvtN_cells : (driveEvtN s).cells = s.cells := rfl
@[simp] theorem driveEvtN_prog : (driveEvtN s).prog = s.prog := rfl
@[simp] theorem driveEvtN_eddy : (driveEvtN s).eddy = s.eddy := rfl
@[simp] theorem driveEvtN_conf : (driveEvtN s).conf = s.conf := rfl
@[simp] theorem driveEvtN_array : (driveEvtN s).array = s.array := rfl
@[simp] theorem driveEvtN_braid : (driveEvtN s).braid = s.braid := rfl
@[simp] theorem driveEvtN_net : (driveEvtN s).net = s.net := rfl
@[simp] theorem driveEvtN_time : (driveEvtN s).time = s.time := rfl
@[simp] theorem driveEvtN_sel : (driveEvtN s).sel = s.sel := rfl
@[simp] theorem driveEvtN_pair : (driveEvtN s).pair = s.pair := rfl
@[simp] theorem driveEvtN_fed : (driveEvtN s).fed = s.fed := rfl
@[simp] theorem driveEvtN_rst : (driveEvtN s).rst = s.rst := rfl
@[simp] theorem driveEvtN_ev : (driveEvtN s).ev = { s.ev with evtN := evtLow s } := rfl
@[simp] theorem driveEvtN_bus : (driveEvtN s).bus = s.bus := rfl
@[simp] theorem driveEvtN_jtag : (driveEvtN s).jtag = s.jtag := rfl
@[simp] theorem driveEvtN_pins : (driveEvtN s).pins = s.pins := rfl
@[simp] theorem getO_driveEvtN (j : Nat) : getO (driveEvtN s) j = getO s j := rfl
@[simp] theorem natO_driveEvtN (j : Nat) : natO (driveEvtN s) j = natO s j := rfl
@[simp] theorem getB_driveEvtN (j : Nat) : getB (driveEvtN s) j = getB s j := rfl

/-! ## setCell -/

@[simp] theorem setCell_pending (n : Nat) (c : Cell) : (setCell s n c).pending = s.pending := rfl
@[simp] theorem setCell_out (n : Nat) (c : Cell) : (setCell s n c).out = s.out := rfl
@[simp] theorem setCell_fresh (n : Nat) (c : Cell) : (setCell s n c).fresh = s.fresh := rfl
@[simp] theorem setCell_frame (n : Nat) (c : Cell) : (setCell s n c).frame = s.frame := rfl
@[simp] theorem setCell_obj (n : Nat) (c : Cell) : (setCell s n c).obj = s.obj := rfl
@[simp] theorem setCell_blob (n : Nat) (c : Cell) : (setCell s n c).blob = s.blob := rfl
@[simp] theorem setCell_ctl (n : Nat) (c : Cell) : (setCell s n c).ctl = s.ctl := rfl
@[simp] theorem setCell_slu (n : Nat) (c : Cell) : (setCell s n c).slu = s.slu := rfl
@[simp] theorem setCell_cells (n : Nat) (c : Cell) : (setCell s n c).cells = Sparse.put (fun _ => Cell.zero) s.cells n c := rfl
@[simp] theorem setCell_prog (n : Nat) (c : Cell) : (setCell s n c).prog = s.prog := rfl
@[simp] theorem setCell_eddy (n : Nat) (c : Cell) : (setCell s n c).eddy = s.eddy := rfl
@[simp] theorem setCell_conf (n : Nat) (c : Cell) : (setCell s n c).conf = s.conf := rfl
@[simp] theorem setCell_array (n : Nat) (c : Cell) : (setCell s n c).array = s.array := rfl
@[simp] theorem setCell_braid (n : Nat) (c : Cell) : (setCell s n c).braid = s.braid := rfl
@[simp] theorem setCell_net (n : Nat) (c : Cell) : (setCell s n c).net = s.net := rfl
@[simp] theorem setCell_time (n : Nat) (c : Cell) : (setCell s n c).time = s.time := rfl
@[simp] theorem setCell_sel (n : Nat) (c : Cell) : (setCell s n c).sel = s.sel := rfl
@[simp] theorem setCell_pair (n : Nat) (c : Cell) : (setCell s n c).pair = s.pair := rfl
@[simp] theorem setCell_fed (n : Nat) (c : Cell) : (setCell s n c).fed = s.fed := rfl
@[simp] theorem setCell_rst (n : Nat) (c : Cell) : (setCell s n c).rst = s.rst := rfl
@[simp] theorem setCell_ev (n : Nat) (c : Cell) : (setCell s n c).ev = s.ev := rfl
@[simp] theorem setCell_bus (n : Nat) (c : Cell) : (setCell s n c).bus = s.bus := rfl
@[simp] theorem setCell_jtag (n : Nat) (c : Cell) : (setCell s n c).jtag = s.jtag := rfl
@[simp] theorem setCell_pins (n : Nat) (c : Cell) : (setCell s n c).pins = s.pins := rfl
@[simp] theorem getO_setCell (n : Nat) (c : Cell) (j : Nat) : getO (setCell s n c) j = getO s j := rfl
@[simp] theorem natO_setCell (n : Nat) (c : Cell) (j : Nat) : natO (setCell s n c) j = natO s j := rfl
@[simp] theorem getB_setCell (n : Nat) (c : Cell) (j : Nat) : getB (setCell s n c) j = getB s j := rfl

/-! ## clusterPut -/

@[simp] theorem clusterPut_pending (c a : Nat) (w : Word) : (clusterPut s c a w).pending = s.pending := rfl
@[simp] theorem clusterPut_out (c a : Nat) (w : Word) : (clusterPut s c a w).out = s.out := rfl
@[simp] theorem clusterPut_fresh (c a : Nat) (w : Word) : (clusterPut s c a w).fresh = s.fresh := rfl
@[simp] theorem clusterPut_frame (c a : Nat) (w : Word) : (clusterPut s c a w).frame = s.frame := rfl
@[simp] theorem clusterPut_obj (c a : Nat) (w : Word) : (clusterPut s c a w).obj = s.obj := rfl
@[simp] theorem clusterPut_blob (c a : Nat) (w : Word) : (clusterPut s c a w).blob = s.blob := rfl
@[simp] theorem clusterPut_ctl (c a : Nat) (w : Word) : (clusterPut s c a w).ctl = s.ctl := rfl
@[simp] theorem clusterPut_slu (c a : Nat) (w : Word) : (clusterPut s c a w).slu = s.slu := rfl
@[simp] theorem clusterPut_cells (c a : Nat) (w : Word) : (clusterPut s c a w).cells = s.cells := rfl
@[simp] theorem clusterPut_prog (c a : Nat) (w : Word) : (clusterPut s c a w).prog = s.prog := rfl
@[simp] theorem clusterPut_eddy (c a : Nat) (w : Word) : (clusterPut s c a w).eddy = s.eddy := rfl
@[simp] theorem clusterPut_conf (c a : Nat) (w : Word) : (clusterPut s c a w).conf = s.conf := rfl
@[simp] theorem clusterPut_array (c a : Nat) (w : Word) : (clusterPut s c a w).array = s.array := rfl
@[simp] theorem clusterPut_braid (c a : Nat) (w : Word) : (clusterPut s c a w).braid = s.braid := rfl
@[simp] theorem clusterPut_net (c a : Nat) (w : Word) : (clusterPut s c a w).net = s.net := rfl
@[simp] theorem clusterPut_time (c a : Nat) (w : Word) : (clusterPut s c a w).time = s.time := rfl
@[simp] theorem clusterPut_sel (c a : Nat) (w : Word) : (clusterPut s c a w).sel = s.sel := rfl
@[simp] theorem clusterPut_pair (c a : Nat) (w : Word) : (clusterPut s c a w).pair = s.pair := rfl
@[simp] theorem clusterPut_fed (c a : Nat) (w : Word) : (clusterPut s c a w).fed = s.fed := rfl
@[simp] theorem clusterPut_rst (c a : Nat) (w : Word) : (clusterPut s c a w).rst = s.rst := rfl
@[simp] theorem clusterPut_ev (c a : Nat) (w : Word) : (clusterPut s c a w).ev = s.ev := rfl
@[simp] theorem clusterPut_bus (c a : Nat) (w : Word) : (clusterPut s c a w).bus = { s.bus with cluster := Sparse.put (fun _ => 0) s.bus.cluster (c * 262144 + a % 262144) w } := rfl
@[simp] theorem clusterPut_jtag (c a : Nat) (w : Word) : (clusterPut s c a w).jtag = s.jtag := rfl
@[simp] theorem clusterPut_pins (c a : Nat) (w : Word) : (clusterPut s c a w).pins = s.pins := rfl
@[simp] theorem getO_clusterPut (c a : Nat) (w : Word) (j : Nat) : getO (clusterPut s c a w) j = getO s j := rfl
@[simp] theorem natO_clusterPut (c a : Nat) (w : Word) (j : Nat) : natO (clusterPut s c a w) j = natO s j := rfl
@[simp] theorem getB_clusterPut (c a : Nat) (w : Word) (j : Nat) : getB (clusterPut s c a w) j = getB s j := rfl

/-! ## setEddy -/

@[simp] theorem setEddy_pending (d : Nat) (e : Eddy) : (setEddy s d e).pending = s.pending := rfl
@[simp] theorem setEddy_out (d : Nat) (e : Eddy) : (setEddy s d e).out = s.out := rfl
@[simp] theorem setEddy_fresh (d : Nat) (e : Eddy) : (setEddy s d e).fresh = s.fresh := rfl
@[simp] theorem setEddy_frame (d : Nat) (e : Eddy) : (setEddy s d e).frame = s.frame := rfl
@[simp] theorem setEddy_obj (d : Nat) (e : Eddy) : (setEddy s d e).obj = s.obj := rfl
@[simp] theorem setEddy_blob (d : Nat) (e : Eddy) : (setEddy s d e).blob = s.blob := rfl
@[simp] theorem setEddy_ctl (d : Nat) (e : Eddy) : (setEddy s d e).ctl = s.ctl := rfl
@[simp] theorem setEddy_slu (d : Nat) (e : Eddy) : (setEddy s d e).slu = s.slu := rfl
@[simp] theorem setEddy_cells (d : Nat) (e : Eddy) : (setEddy s d e).cells = s.cells := rfl
@[simp] theorem setEddy_prog (d : Nat) (e : Eddy) : (setEddy s d e).prog = s.prog := rfl
@[simp] theorem setEddy_eddy (d : Nat) (e : Eddy) : (setEddy s d e).eddy = Sparse.put (fun _ => Eddy.empty) s.eddy d e := rfl
@[simp] theorem setEddy_conf (d : Nat) (e : Eddy) : (setEddy s d e).conf = s.conf := rfl
@[simp] theorem setEddy_array (d : Nat) (e : Eddy) : (setEddy s d e).array = s.array := rfl
@[simp] theorem setEddy_braid (d : Nat) (e : Eddy) : (setEddy s d e).braid = s.braid := rfl
@[simp] theorem setEddy_net (d : Nat) (e : Eddy) : (setEddy s d e).net = s.net := rfl
@[simp] theorem setEddy_time (d : Nat) (e : Eddy) : (setEddy s d e).time = s.time := rfl
@[simp] theorem setEddy_sel (d : Nat) (e : Eddy) : (setEddy s d e).sel = s.sel := rfl
@[simp] theorem setEddy_pair (d : Nat) (e : Eddy) : (setEddy s d e).pair = s.pair := rfl
@[simp] theorem setEddy_fed (d : Nat) (e : Eddy) : (setEddy s d e).fed = s.fed := rfl
@[simp] theorem setEddy_rst (d : Nat) (e : Eddy) : (setEddy s d e).rst = s.rst := rfl
@[simp] theorem setEddy_ev (d : Nat) (e : Eddy) : (setEddy s d e).ev = s.ev := rfl
@[simp] theorem setEddy_bus (d : Nat) (e : Eddy) : (setEddy s d e).bus = s.bus := rfl
@[simp] theorem setEddy_jtag (d : Nat) (e : Eddy) : (setEddy s d e).jtag = s.jtag := rfl
@[simp] theorem setEddy_pins (d : Nat) (e : Eddy) : (setEddy s d e).pins = s.pins := rfl
@[simp] theorem getO_setEddy (d : Nat) (e : Eddy) (j : Nat) : getO (setEddy s d e) j = getO s j := rfl
@[simp] theorem natO_setEddy (d : Nat) (e : Eddy) (j : Nat) : natO (setEddy s d e) j = natO s j := rfl
@[simp] theorem getB_setEddy (d : Nat) (e : Eddy) (j : Nat) : getB (setEddy s d e) j = getB s j := rfl

/-! ## flashPut -/

@[simp] theorem flashPut_pending (a : Nat) (b : List Byte) : (flashPut s a b).pending = s.pending := rfl
@[simp] theorem flashPut_out (a : Nat) (b : List Byte) : (flashPut s a b).out = s.out := rfl
@[simp] theorem flashPut_fresh (a : Nat) (b : List Byte) : (flashPut s a b).fresh = s.fresh := rfl
@[simp] theorem flashPut_frame (a : Nat) (b : List Byte) : (flashPut s a b).frame = s.frame := rfl
@[simp] theorem flashPut_obj (a : Nat) (b : List Byte) : (flashPut s a b).obj = s.obj := rfl
@[simp] theorem flashPut_blob (a : Nat) (b : List Byte) : (flashPut s a b).blob = s.blob := rfl
@[simp] theorem flashPut_ctl (a : Nat) (b : List Byte) : (flashPut s a b).ctl = s.ctl := rfl
@[simp] theorem flashPut_slu (a : Nat) (b : List Byte) : (flashPut s a b).slu = s.slu := rfl
@[simp] theorem flashPut_cells (a : Nat) (b : List Byte) : (flashPut s a b).cells = s.cells := rfl
@[simp] theorem flashPut_prog (a : Nat) (b : List Byte) : (flashPut s a b).prog = s.prog := rfl
@[simp] theorem flashPut_eddy (a : Nat) (b : List Byte) : (flashPut s a b).eddy = s.eddy := rfl
@[simp] theorem flashPut_conf (a : Nat) (b : List Byte) : (flashPut s a b).conf = s.conf := rfl
@[simp] theorem flashPut_array (a : Nat) (b : List Byte) : (flashPut s a b).array = s.array := rfl
@[simp] theorem flashPut_braid (a : Nat) (b : List Byte) : (flashPut s a b).braid = s.braid := rfl
@[simp] theorem flashPut_net (a : Nat) (b : List Byte) : (flashPut s a b).net = s.net := rfl
@[simp] theorem flashPut_time (a : Nat) (b : List Byte) : (flashPut s a b).time = s.time := rfl
@[simp] theorem flashPut_sel (a : Nat) (b : List Byte) : (flashPut s a b).sel = s.sel := rfl
@[simp] theorem flashPut_pair (a : Nat) (b : List Byte) : (flashPut s a b).pair = s.pair := rfl
@[simp] theorem flashPut_fed (a : Nat) (b : List Byte) : (flashPut s a b).fed = s.fed := rfl
@[simp] theorem flashPut_rst (a : Nat) (b : List Byte) : (flashPut s a b).rst = s.rst := rfl
@[simp] theorem flashPut_ev (a : Nat) (b : List Byte) : (flashPut s a b).ev = s.ev := rfl
@[simp] theorem flashPut_bus (a : Nat) (b : List Byte) : (flashPut s a b).bus = { s.bus with flash := bytesPut s.bus.flash a b } := rfl
@[simp] theorem flashPut_jtag (a : Nat) (b : List Byte) : (flashPut s a b).jtag = s.jtag := rfl
@[simp] theorem flashPut_pins (a : Nat) (b : List Byte) : (flashPut s a b).pins = s.pins := rfl
@[simp] theorem getO_flashPut (a : Nat) (b : List Byte) (j : Nat) : getO (flashPut s a b) j = getO s j := rfl
@[simp] theorem natO_flashPut (a : Nat) (b : List Byte) (j : Nat) : natO (flashPut s a b) j = natO s j := rfl
@[simp] theorem getB_flashPut (a : Nat) (b : List Byte) (j : Nat) : getB (flashPut s a b) j = getB s j := rfl

/-! ## setDest -/

@[simp] theorem setDest_pending (d : Nat) (v : Dest) : (setDest s d v).pending = s.pending := rfl
@[simp] theorem setDest_out (d : Nat) (v : Dest) : (setDest s d v).out = s.out := rfl
@[simp] theorem setDest_fresh (d : Nat) (v : Dest) : (setDest s d v).fresh = s.fresh := rfl
@[simp] theorem setDest_frame (d : Nat) (v : Dest) : (setDest s d v).frame = s.frame := rfl
@[simp] theorem setDest_obj (d : Nat) (v : Dest) : (setDest s d v).obj = s.obj := rfl
@[simp] theorem setDest_blob (d : Nat) (v : Dest) : (setDest s d v).blob = s.blob := rfl
@[simp] theorem setDest_ctl (d : Nat) (v : Dest) : (setDest s d v).ctl = s.ctl := rfl
@[simp] theorem setDest_slu (d : Nat) (v : Dest) : (setDest s d v).slu = s.slu := rfl
@[simp] theorem setDest_cells (d : Nat) (v : Dest) : (setDest s d v).cells = s.cells := rfl
@[simp] theorem setDest_prog (d : Nat) (v : Dest) : (setDest s d v).prog = s.prog := rfl
@[simp] theorem setDest_eddy (d : Nat) (v : Dest) : (setDest s d v).eddy = s.eddy := rfl
@[simp] theorem setDest_conf (d : Nat) (v : Dest) : (setDest s d v).conf = { s.conf with dests := Sparse.put (fun _ => Dest.idle) s.conf.dests d v } := rfl
@[simp] theorem setDest_array (d : Nat) (v : Dest) : (setDest s d v).array = s.array := rfl
@[simp] theorem setDest_braid (d : Nat) (v : Dest) : (setDest s d v).braid = s.braid := rfl
@[simp] theorem setDest_net (d : Nat) (v : Dest) : (setDest s d v).net = s.net := rfl
@[simp] theorem setDest_time (d : Nat) (v : Dest) : (setDest s d v).time = s.time := rfl
@[simp] theorem setDest_sel (d : Nat) (v : Dest) : (setDest s d v).sel = s.sel := rfl
@[simp] theorem setDest_pair (d : Nat) (v : Dest) : (setDest s d v).pair = s.pair := rfl
@[simp] theorem setDest_fed (d : Nat) (v : Dest) : (setDest s d v).fed = s.fed := rfl
@[simp] theorem setDest_rst (d : Nat) (v : Dest) : (setDest s d v).rst = s.rst := rfl
@[simp] theorem setDest_ev (d : Nat) (v : Dest) : (setDest s d v).ev = s.ev := rfl
@[simp] theorem setDest_bus (d : Nat) (v : Dest) : (setDest s d v).bus = s.bus := rfl
@[simp] theorem setDest_jtag (d : Nat) (v : Dest) : (setDest s d v).jtag = s.jtag := rfl
@[simp] theorem setDest_pins (d : Nat) (v : Dest) : (setDest s d v).pins = s.pins := rfl
@[simp] theorem getO_setDest (d : Nat) (v : Dest) (j : Nat) : getO (setDest s d v) j = getO s j := rfl
@[simp] theorem natO_setDest (d : Nat) (v : Dest) (j : Nat) : natO (setDest s d v) j = natO s j := rfl
@[simp] theorem getB_setDest (d : Nat) (v : Dest) (j : Nat) : getB (setDest s d v) j = getB s j := rfl

/-! ## setRill -/

@[simp] theorem setRill_pending (n : Nat) (v : Rill) : (setRill s n v).pending = s.pending := rfl
@[simp] theorem setRill_out (n : Nat) (v : Rill) : (setRill s n v).out = s.out := rfl
@[simp] theorem setRill_fresh (n : Nat) (v : Rill) : (setRill s n v).fresh = s.fresh := rfl
@[simp] theorem setRill_frame (n : Nat) (v : Rill) : (setRill s n v).frame = s.frame := rfl
@[simp] theorem setRill_obj (n : Nat) (v : Rill) : (setRill s n v).obj = s.obj := rfl
@[simp] theorem setRill_blob (n : Nat) (v : Rill) : (setRill s n v).blob = s.blob := rfl
@[simp] theorem setRill_ctl (n : Nat) (v : Rill) : (setRill s n v).ctl = s.ctl := rfl
@[simp] theorem setRill_slu (n : Nat) (v : Rill) : (setRill s n v).slu = s.slu := rfl
@[simp] theorem setRill_cells (n : Nat) (v : Rill) : (setRill s n v).cells = s.cells := rfl
@[simp] theorem setRill_prog (n : Nat) (v : Rill) : (setRill s n v).prog = s.prog := rfl
@[simp] theorem setRill_eddy (n : Nat) (v : Rill) : (setRill s n v).eddy = s.eddy := rfl
@[simp] theorem setRill_conf (n : Nat) (v : Rill) : (setRill s n v).conf = { s.conf with rills := Sparse.put (fun _ => Rill.idle) s.conf.rills n v } := rfl
@[simp] theorem setRill_array (n : Nat) (v : Rill) : (setRill s n v).array = s.array := rfl
@[simp] theorem setRill_braid (n : Nat) (v : Rill) : (setRill s n v).braid = s.braid := rfl
@[simp] theorem setRill_net (n : Nat) (v : Rill) : (setRill s n v).net = s.net := rfl
@[simp] theorem setRill_time (n : Nat) (v : Rill) : (setRill s n v).time = s.time := rfl
@[simp] theorem setRill_sel (n : Nat) (v : Rill) : (setRill s n v).sel = s.sel := rfl
@[simp] theorem setRill_pair (n : Nat) (v : Rill) : (setRill s n v).pair = s.pair := rfl
@[simp] theorem setRill_fed (n : Nat) (v : Rill) : (setRill s n v).fed = s.fed := rfl
@[simp] theorem setRill_rst (n : Nat) (v : Rill) : (setRill s n v).rst = s.rst := rfl
@[simp] theorem setRill_ev (n : Nat) (v : Rill) : (setRill s n v).ev = s.ev := rfl
@[simp] theorem setRill_bus (n : Nat) (v : Rill) : (setRill s n v).bus = s.bus := rfl
@[simp] theorem setRill_jtag (n : Nat) (v : Rill) : (setRill s n v).jtag = s.jtag := rfl
@[simp] theorem setRill_pins (n : Nat) (v : Rill) : (setRill s n v).pins = s.pins := rfl
@[simp] theorem getO_setRill (n : Nat) (v : Rill) (j : Nat) : getO (setRill s n v) j = getO s j := rfl
@[simp] theorem natO_setRill (n : Nat) (v : Rill) (j : Nat) : natO (setRill s n v) j = natO s j := rfl
@[simp] theorem getB_setRill (n : Nat) (v : Rill) (j : Nat) : getB (setRill s n v) j = getB s j := rfl

/-! ## setDrive -/

@[simp] theorem setDrive_pending (v : Bool) : (setDrive s v).pending = s.pending := rfl
@[simp] theorem setDrive_out (v : Bool) : (setDrive s v).out = s.out := rfl
@[simp] theorem setDrive_fresh (v : Bool) : (setDrive s v).fresh = s.fresh := rfl
@[simp] theorem setDrive_frame (v : Bool) : (setDrive s v).frame = s.frame := rfl
@[simp] theorem setDrive_obj (v : Bool) : (setDrive s v).obj = s.obj := rfl
@[simp] theorem setDrive_blob (v : Bool) : (setDrive s v).blob = s.blob := rfl
@[simp] theorem setDrive_ctl (v : Bool) : (setDrive s v).ctl = s.ctl := rfl
@[simp] theorem setDrive_slu (v : Bool) : (setDrive s v).slu = s.slu := rfl
@[simp] theorem setDrive_cells (v : Bool) : (setDrive s v).cells = s.cells := rfl
@[simp] theorem setDrive_prog (v : Bool) : (setDrive s v).prog = s.prog := rfl
@[simp] theorem setDrive_eddy (v : Bool) : (setDrive s v).eddy = s.eddy := rfl
@[simp] theorem setDrive_conf (v : Bool) : (setDrive s v).conf = { s.conf with tdm := { s.conf.tdm with driveNext := v } } := rfl
@[simp] theorem setDrive_array (v : Bool) : (setDrive s v).array = s.array := rfl
@[simp] theorem setDrive_braid (v : Bool) : (setDrive s v).braid = s.braid := rfl
@[simp] theorem setDrive_net (v : Bool) : (setDrive s v).net = s.net := rfl
@[simp] theorem setDrive_time (v : Bool) : (setDrive s v).time = s.time := rfl
@[simp] theorem setDrive_sel (v : Bool) : (setDrive s v).sel = s.sel := rfl
@[simp] theorem setDrive_pair (v : Bool) : (setDrive s v).pair = s.pair := rfl
@[simp] theorem setDrive_fed (v : Bool) : (setDrive s v).fed = s.fed := rfl
@[simp] theorem setDrive_rst (v : Bool) : (setDrive s v).rst = s.rst := rfl
@[simp] theorem setDrive_ev (v : Bool) : (setDrive s v).ev = s.ev := rfl
@[simp] theorem setDrive_bus (v : Bool) : (setDrive s v).bus = s.bus := rfl
@[simp] theorem setDrive_jtag (v : Bool) : (setDrive s v).jtag = s.jtag := rfl
@[simp] theorem setDrive_pins (v : Bool) : (setDrive s v).pins = s.pins := rfl
@[simp] theorem getO_setDrive (v : Bool) (j : Nat) : getO (setDrive s v) j = getO s j := rfl
@[simp] theorem natO_setDrive (v : Bool) (j : Nat) : natO (setDrive s v) j = natO s j := rfl
@[simp] theorem getB_setDrive (v : Bool) (j : Nat) : getB (setDrive s v) j = getB s j := rfl

/-! ## setElem -/

@[simp] theorem setElem_pending (e : Nat) (v : Elem) : (setElem s e v).pending = s.pending := rfl
@[simp] theorem setElem_out (e : Nat) (v : Elem) : (setElem s e v).out = s.out := rfl
@[simp] theorem setElem_fresh (e : Nat) (v : Elem) : (setElem s e v).fresh = s.fresh := rfl
@[simp] theorem setElem_frame (e : Nat) (v : Elem) : (setElem s e v).frame = s.frame := rfl
@[simp] theorem setElem_obj (e : Nat) (v : Elem) : (setElem s e v).obj = s.obj := rfl
@[simp] theorem setElem_blob (e : Nat) (v : Elem) : (setElem s e v).blob = s.blob := rfl
@[simp] theorem setElem_ctl (e : Nat) (v : Elem) : (setElem s e v).ctl = s.ctl := rfl
@[simp] theorem setElem_slu (e : Nat) (v : Elem) : (setElem s e v).slu = s.slu := rfl
@[simp] theorem setElem_cells (e : Nat) (v : Elem) : (setElem s e v).cells = s.cells := rfl
@[simp] theorem setElem_prog (e : Nat) (v : Elem) : (setElem s e v).prog = s.prog := rfl
@[simp] theorem setElem_eddy (e : Nat) (v : Elem) : (setElem s e v).eddy = s.eddy := rfl
@[simp] theorem setElem_conf (e : Nat) (v : Elem) : (setElem s e v).conf = s.conf := rfl
@[simp] theorem setElem_array (e : Nat) (v : Elem) : (setElem s e v).array = { s.array with elems := Sparse.put (fun _ => Elem.idle) s.array.elems e v } := rfl
@[simp] theorem setElem_braid (e : Nat) (v : Elem) : (setElem s e v).braid = s.braid := rfl
@[simp] theorem setElem_net (e : Nat) (v : Elem) : (setElem s e v).net = s.net := rfl
@[simp] theorem setElem_time (e : Nat) (v : Elem) : (setElem s e v).time = s.time := rfl
@[simp] theorem setElem_sel (e : Nat) (v : Elem) : (setElem s e v).sel = s.sel := rfl
@[simp] theorem setElem_pair (e : Nat) (v : Elem) : (setElem s e v).pair = s.pair := rfl
@[simp] theorem setElem_fed (e : Nat) (v : Elem) : (setElem s e v).fed = s.fed := rfl
@[simp] theorem setElem_rst (e : Nat) (v : Elem) : (setElem s e v).rst = s.rst := rfl
@[simp] theorem setElem_ev (e : Nat) (v : Elem) : (setElem s e v).ev = s.ev := rfl
@[simp] theorem setElem_bus (e : Nat) (v : Elem) : (setElem s e v).bus = s.bus := rfl
@[simp] theorem setElem_jtag (e : Nat) (v : Elem) : (setElem s e v).jtag = s.jtag := rfl
@[simp] theorem setElem_pins (e : Nat) (v : Elem) : (setElem s e v).pins = s.pins := rfl
@[simp] theorem getO_setElem (e : Nat) (v : Elem) (j : Nat) : getO (setElem s e v) j = getO s j := rfl
@[simp] theorem natO_setElem (e : Nat) (v : Elem) (j : Nat) : natO (setElem s e v) j = natO s j := rfl
@[simp] theorem getB_setElem (e : Nat) (v : Elem) (j : Nat) : getB (setElem s e v) j = getB s j := rfl

/-! ## setBeam -/

@[simp] theorem setBeam_pending (b : Nat) (v : BeamSt) : (setBeam s b v).pending = s.pending := rfl
@[simp] theorem setBeam_out (b : Nat) (v : BeamSt) : (setBeam s b v).out = s.out := rfl
@[simp] theorem setBeam_fresh (b : Nat) (v : BeamSt) : (setBeam s b v).fresh = s.fresh := rfl
@[simp] theorem setBeam_frame (b : Nat) (v : BeamSt) : (setBeam s b v).frame = s.frame := rfl
@[simp] theorem setBeam_obj (b : Nat) (v : BeamSt) : (setBeam s b v).obj = s.obj := rfl
@[simp] theorem setBeam_blob (b : Nat) (v : BeamSt) : (setBeam s b v).blob = s.blob := rfl
@[simp] theorem setBeam_ctl (b : Nat) (v : BeamSt) : (setBeam s b v).ctl = s.ctl := rfl
@[simp] theorem setBeam_slu (b : Nat) (v : BeamSt) : (setBeam s b v).slu = s.slu := rfl
@[simp] theorem setBeam_cells (b : Nat) (v : BeamSt) : (setBeam s b v).cells = s.cells := rfl
@[simp] theorem setBeam_prog (b : Nat) (v : BeamSt) : (setBeam s b v).prog = s.prog := rfl
@[simp] theorem setBeam_eddy (b : Nat) (v : BeamSt) : (setBeam s b v).eddy = s.eddy := rfl
@[simp] theorem setBeam_conf (b : Nat) (v : BeamSt) : (setBeam s b v).conf = s.conf := rfl
@[simp] theorem setBeam_array (b : Nat) (v : BeamSt) : (setBeam s b v).array = { s.array with beams := Sparse.put (fun _ => BeamSt.idle) s.array.beams b v } := rfl
@[simp] theorem setBeam_braid (b : Nat) (v : BeamSt) : (setBeam s b v).braid = s.braid := rfl
@[simp] theorem setBeam_net (b : Nat) (v : BeamSt) : (setBeam s b v).net = s.net := rfl
@[simp] theorem setBeam_time (b : Nat) (v : BeamSt) : (setBeam s b v).time = s.time := rfl
@[simp] theorem setBeam_sel (b : Nat) (v : BeamSt) : (setBeam s b v).sel = s.sel := rfl
@[simp] theorem setBeam_pair (b : Nat) (v : BeamSt) : (setBeam s b v).pair = s.pair := rfl
@[simp] theorem setBeam_fed (b : Nat) (v : BeamSt) : (setBeam s b v).fed = s.fed := rfl
@[simp] theorem setBeam_rst (b : Nat) (v : BeamSt) : (setBeam s b v).rst = s.rst := rfl
@[simp] theorem setBeam_ev (b : Nat) (v : BeamSt) : (setBeam s b v).ev = s.ev := rfl
@[simp] theorem setBeam_bus (b : Nat) (v : BeamSt) : (setBeam s b v).bus = s.bus := rfl
@[simp] theorem setBeam_jtag (b : Nat) (v : BeamSt) : (setBeam s b v).jtag = s.jtag := rfl
@[simp] theorem setBeam_pins (b : Nat) (v : BeamSt) : (setBeam s b v).pins = s.pins := rfl
@[simp] theorem getO_setBeam (b : Nat) (v : BeamSt) (j : Nat) : getO (setBeam s b v) j = getO s j := rfl
@[simp] theorem natO_setBeam (b : Nat) (v : BeamSt) (j : Nat) : natO (setBeam s b v) j = natO s j := rfl
@[simp] theorem getB_setBeam (b : Nat) (v : BeamSt) (j : Nat) : getB (setBeam s b v) j = getB s j := rfl

/-! ## setBuffer -/

@[simp] theorem setBuffer_pending (b buf : Nat) (v : List Byte) : (setBuffer s b buf v).pending = s.pending := rfl
@[simp] theorem setBuffer_out (b buf : Nat) (v : List Byte) : (setBuffer s b buf v).out = s.out := rfl
@[simp] theorem setBuffer_fresh (b buf : Nat) (v : List Byte) : (setBuffer s b buf v).fresh = s.fresh := rfl
@[simp] theorem setBuffer_frame (b buf : Nat) (v : List Byte) : (setBuffer s b buf v).frame = s.frame := rfl
@[simp] theorem setBuffer_obj (b buf : Nat) (v : List Byte) : (setBuffer s b buf v).obj = s.obj := rfl
@[simp] theorem setBuffer_blob (b buf : Nat) (v : List Byte) : (setBuffer s b buf v).blob = s.blob := rfl
@[simp] theorem setBuffer_ctl (b buf : Nat) (v : List Byte) : (setBuffer s b buf v).ctl = s.ctl := rfl
@[simp] theorem setBuffer_slu (b buf : Nat) (v : List Byte) : (setBuffer s b buf v).slu = s.slu := rfl
@[simp] theorem setBuffer_cells (b buf : Nat) (v : List Byte) : (setBuffer s b buf v).cells = s.cells := rfl
@[simp] theorem setBuffer_prog (b buf : Nat) (v : List Byte) : (setBuffer s b buf v).prog = s.prog := rfl
@[simp] theorem setBuffer_eddy (b buf : Nat) (v : List Byte) : (setBuffer s b buf v).eddy = s.eddy := rfl
@[simp] theorem setBuffer_conf (b buf : Nat) (v : List Byte) : (setBuffer s b buf v).conf = s.conf := rfl
@[simp] theorem setBuffer_array (b buf : Nat) (v : List Byte) : (setBuffer s b buf v).array = { s.array with buffers := Sparse.put (fun _ => []) s.array.buffers (2 * b + buf) v } := rfl
@[simp] theorem setBuffer_braid (b buf : Nat) (v : List Byte) : (setBuffer s b buf v).braid = s.braid := rfl
@[simp] theorem setBuffer_net (b buf : Nat) (v : List Byte) : (setBuffer s b buf v).net = s.net := rfl
@[simp] theorem setBuffer_time (b buf : Nat) (v : List Byte) : (setBuffer s b buf v).time = s.time := rfl
@[simp] theorem setBuffer_sel (b buf : Nat) (v : List Byte) : (setBuffer s b buf v).sel = s.sel := rfl
@[simp] theorem setBuffer_pair (b buf : Nat) (v : List Byte) : (setBuffer s b buf v).pair = s.pair := rfl
@[simp] theorem setBuffer_fed (b buf : Nat) (v : List Byte) : (setBuffer s b buf v).fed = s.fed := rfl
@[simp] theorem setBuffer_rst (b buf : Nat) (v : List Byte) : (setBuffer s b buf v).rst = s.rst := rfl
@[simp] theorem setBuffer_ev (b buf : Nat) (v : List Byte) : (setBuffer s b buf v).ev = s.ev := rfl
@[simp] theorem setBuffer_bus (b buf : Nat) (v : List Byte) : (setBuffer s b buf v).bus = s.bus := rfl
@[simp] theorem setBuffer_jtag (b buf : Nat) (v : List Byte) : (setBuffer s b buf v).jtag = s.jtag := rfl
@[simp] theorem setBuffer_pins (b buf : Nat) (v : List Byte) : (setBuffer s b buf v).pins = s.pins := rfl
@[simp] theorem getO_setBuffer (b buf : Nat) (v : List Byte) (j : Nat) : getO (setBuffer s b buf v) j = getO s j := rfl
@[simp] theorem natO_setBuffer (b buf : Nat) (v : List Byte) (j : Nat) : natO (setBuffer s b buf v) j = natO s j := rfl
@[simp] theorem getB_setBuffer (b buf : Nat) (v : List Byte) (j : Nat) : getB (setBuffer s b buf v) j = getB s j := rfl

/-! ## setLink -/

@[simp] theorem setLink_pending (l : Nat) (v : LinkSt) : (setLink s l v).pending = s.pending := rfl
@[simp] theorem setLink_out (l : Nat) (v : LinkSt) : (setLink s l v).out = s.out := rfl
@[simp] theorem setLink_fresh (l : Nat) (v : LinkSt) : (setLink s l v).fresh = s.fresh := rfl
@[simp] theorem setLink_frame (l : Nat) (v : LinkSt) : (setLink s l v).frame = s.frame := rfl
@[simp] theorem setLink_obj (l : Nat) (v : LinkSt) : (setLink s l v).obj = s.obj := rfl
@[simp] theorem setLink_blob (l : Nat) (v : LinkSt) : (setLink s l v).blob = s.blob := rfl
@[simp] theorem setLink_ctl (l : Nat) (v : LinkSt) : (setLink s l v).ctl = s.ctl := rfl
@[simp] theorem setLink_slu (l : Nat) (v : LinkSt) : (setLink s l v).slu = s.slu := rfl
@[simp] theorem setLink_cells (l : Nat) (v : LinkSt) : (setLink s l v).cells = s.cells := rfl
@[simp] theorem setLink_prog (l : Nat) (v : LinkSt) : (setLink s l v).prog = s.prog := rfl
@[simp] theorem setLink_eddy (l : Nat) (v : LinkSt) : (setLink s l v).eddy = s.eddy := rfl
@[simp] theorem setLink_conf (l : Nat) (v : LinkSt) : (setLink s l v).conf = s.conf := rfl
@[simp] theorem setLink_array (l : Nat) (v : LinkSt) : (setLink s l v).array = s.array := rfl
@[simp] theorem setLink_braid (l : Nat) (v : LinkSt) : (setLink s l v).braid = { s.braid with links := Sparse.put (fun _ => LinkSt.idle) s.braid.links l v } := rfl
@[simp] theorem setLink_net (l : Nat) (v : LinkSt) : (setLink s l v).net = s.net := rfl
@[simp] theorem setLink_time (l : Nat) (v : LinkSt) : (setLink s l v).time = s.time := rfl
@[simp] theorem setLink_sel (l : Nat) (v : LinkSt) : (setLink s l v).sel = s.sel := rfl
@[simp] theorem setLink_pair (l : Nat) (v : LinkSt) : (setLink s l v).pair = s.pair := rfl
@[simp] theorem setLink_fed (l : Nat) (v : LinkSt) : (setLink s l v).fed = s.fed := rfl
@[simp] theorem setLink_rst (l : Nat) (v : LinkSt) : (setLink s l v).rst = s.rst := rfl
@[simp] theorem setLink_ev (l : Nat) (v : LinkSt) : (setLink s l v).ev = s.ev := rfl
@[simp] theorem setLink_bus (l : Nat) (v : LinkSt) : (setLink s l v).bus = s.bus := rfl
@[simp] theorem setLink_jtag (l : Nat) (v : LinkSt) : (setLink s l v).jtag = s.jtag := rfl
@[simp] theorem setLink_pins (l : Nat) (v : LinkSt) : (setLink s l v).pins = s.pins := rfl
@[simp] theorem getO_setLink (l : Nat) (v : LinkSt) (j : Nat) : getO (setLink s l v) j = getO s j := rfl
@[simp] theorem natO_setLink (l : Nat) (v : LinkSt) (j : Nat) : natO (setLink s l v) j = natO s j := rfl
@[simp] theorem getB_setLink (l : Nat) (v : LinkSt) (j : Nat) : getB (setLink s l v) j = getB s j := rfl

/-! ## setLane -/

@[simp] theorem setLane_pending (l lane : Nat) (v : LaneSt) : (setLane s l lane v).pending = s.pending := rfl
@[simp] theorem setLane_out (l lane : Nat) (v : LaneSt) : (setLane s l lane v).out = s.out := rfl
@[simp] theorem setLane_fresh (l lane : Nat) (v : LaneSt) : (setLane s l lane v).fresh = s.fresh := rfl
@[simp] theorem setLane_frame (l lane : Nat) (v : LaneSt) : (setLane s l lane v).frame = s.frame := rfl
@[simp] theorem setLane_obj (l lane : Nat) (v : LaneSt) : (setLane s l lane v).obj = s.obj := rfl
@[simp] theorem setLane_blob (l lane : Nat) (v : LaneSt) : (setLane s l lane v).blob = s.blob := rfl
@[simp] theorem setLane_ctl (l lane : Nat) (v : LaneSt) : (setLane s l lane v).ctl = s.ctl := rfl
@[simp] theorem setLane_slu (l lane : Nat) (v : LaneSt) : (setLane s l lane v).slu = s.slu := rfl
@[simp] theorem setLane_cells (l lane : Nat) (v : LaneSt) : (setLane s l lane v).cells = s.cells := rfl
@[simp] theorem setLane_prog (l lane : Nat) (v : LaneSt) : (setLane s l lane v).prog = s.prog := rfl
@[simp] theorem setLane_eddy (l lane : Nat) (v : LaneSt) : (setLane s l lane v).eddy = s.eddy := rfl
@[simp] theorem setLane_conf (l lane : Nat) (v : LaneSt) : (setLane s l lane v).conf = s.conf := rfl
@[simp] theorem setLane_array (l lane : Nat) (v : LaneSt) : (setLane s l lane v).array = s.array := rfl
@[simp] theorem setLane_braid (l lane : Nat) (v : LaneSt) : (setLane s l lane v).braid = { s.braid with lanes := Sparse.put (fun _ => LaneSt.idle) s.braid.lanes (laneNo l lane) v } := rfl
@[simp] theorem setLane_net (l lane : Nat) (v : LaneSt) : (setLane s l lane v).net = s.net := rfl
@[simp] theorem setLane_time (l lane : Nat) (v : LaneSt) : (setLane s l lane v).time = s.time := rfl
@[simp] theorem setLane_sel (l lane : Nat) (v : LaneSt) : (setLane s l lane v).sel = s.sel := rfl
@[simp] theorem setLane_pair (l lane : Nat) (v : LaneSt) : (setLane s l lane v).pair = s.pair := rfl
@[simp] theorem setLane_fed (l lane : Nat) (v : LaneSt) : (setLane s l lane v).fed = s.fed := rfl
@[simp] theorem setLane_rst (l lane : Nat) (v : LaneSt) : (setLane s l lane v).rst = s.rst := rfl
@[simp] theorem setLane_ev (l lane : Nat) (v : LaneSt) : (setLane s l lane v).ev = s.ev := rfl
@[simp] theorem setLane_bus (l lane : Nat) (v : LaneSt) : (setLane s l lane v).bus = s.bus := rfl
@[simp] theorem setLane_jtag (l lane : Nat) (v : LaneSt) : (setLane s l lane v).jtag = s.jtag := rfl
@[simp] theorem setLane_pins (l lane : Nat) (v : LaneSt) : (setLane s l lane v).pins = s.pins := rfl
@[simp] theorem getO_setLane (l lane : Nat) (v : LaneSt) (j : Nat) : getO (setLane s l lane v) j = getO s j := rfl
@[simp] theorem natO_setLane (l lane : Nat) (v : LaneSt) (j : Nat) : natO (setLane s l lane v) j = natO s j := rfl
@[simp] theorem getB_setLane (l lane : Nat) (v : LaneSt) (j : Nat) : getB (setLane s l lane v) j = getB s j := rfl

/-! ## setPath -/

@[simp] theorem setPath_pending (p : Nat) (v : PathSt) : (setPath s p v).pending = s.pending := rfl
@[simp] theorem setPath_out (p : Nat) (v : PathSt) : (setPath s p v).out = s.out := rfl
@[simp] theorem setPath_fresh (p : Nat) (v : PathSt) : (setPath s p v).fresh = s.fresh := rfl
@[simp] theorem setPath_frame (p : Nat) (v : PathSt) : (setPath s p v).frame = s.frame := rfl
@[simp] theorem setPath_obj (p : Nat) (v : PathSt) : (setPath s p v).obj = s.obj := rfl
@[simp] theorem setPath_blob (p : Nat) (v : PathSt) : (setPath s p v).blob = s.blob := rfl
@[simp] theorem setPath_ctl (p : Nat) (v : PathSt) : (setPath s p v).ctl = s.ctl := rfl
@[simp] theorem setPath_slu (p : Nat) (v : PathSt) : (setPath s p v).slu = s.slu := rfl
@[simp] theorem setPath_cells (p : Nat) (v : PathSt) : (setPath s p v).cells = s.cells := rfl
@[simp] theorem setPath_prog (p : Nat) (v : PathSt) : (setPath s p v).prog = s.prog := rfl
@[simp] theorem setPath_eddy (p : Nat) (v : PathSt) : (setPath s p v).eddy = s.eddy := rfl
@[simp] theorem setPath_conf (p : Nat) (v : PathSt) : (setPath s p v).conf = s.conf := rfl
@[simp] theorem setPath_array (p : Nat) (v : PathSt) : (setPath s p v).array = s.array := rfl
@[simp] theorem setPath_braid (p : Nat) (v : PathSt) : (setPath s p v).braid = s.braid := rfl
@[simp] theorem setPath_net (p : Nat) (v : PathSt) : (setPath s p v).net = { s.net with paths := s.net.paths.set p v } := rfl
@[simp] theorem setPath_time (p : Nat) (v : PathSt) : (setPath s p v).time = s.time := rfl
@[simp] theorem setPath_sel (p : Nat) (v : PathSt) : (setPath s p v).sel = s.sel := rfl
@[simp] theorem setPath_pair (p : Nat) (v : PathSt) : (setPath s p v).pair = s.pair := rfl
@[simp] theorem setPath_fed (p : Nat) (v : PathSt) : (setPath s p v).fed = s.fed := rfl
@[simp] theorem setPath_rst (p : Nat) (v : PathSt) : (setPath s p v).rst = s.rst := rfl
@[simp] theorem setPath_ev (p : Nat) (v : PathSt) : (setPath s p v).ev = s.ev := rfl
@[simp] theorem setPath_bus (p : Nat) (v : PathSt) : (setPath s p v).bus = s.bus := rfl
@[simp] theorem setPath_jtag (p : Nat) (v : PathSt) : (setPath s p v).jtag = s.jtag := rfl
@[simp] theorem setPath_pins (p : Nat) (v : PathSt) : (setPath s p v).pins = s.pins := rfl
@[simp] theorem getO_setPath (p : Nat) (v : PathSt) (j : Nat) : getO (setPath s p v) j = getO s j := rfl
@[simp] theorem natO_setPath (p : Nat) (v : PathSt) (j : Nat) : natO (setPath s p v) j = natO s j := rfl
@[simp] theorem getB_setPath (p : Nat) (v : PathSt) (j : Nat) : getB (setPath s p v) j = getB s j := rfl

/-! ## setPtp -/

@[simp] theorem setPtp_pending (i : Nat) (v : PtpInst) : (setPtp s i v).pending = s.pending := rfl
@[simp] theorem setPtp_out (i : Nat) (v : PtpInst) : (setPtp s i v).out = s.out := rfl
@[simp] theorem setPtp_fresh (i : Nat) (v : PtpInst) : (setPtp s i v).fresh = s.fresh := rfl
@[simp] theorem setPtp_frame (i : Nat) (v : PtpInst) : (setPtp s i v).frame = s.frame := rfl
@[simp] theorem setPtp_obj (i : Nat) (v : PtpInst) : (setPtp s i v).obj = s.obj := rfl
@[simp] theorem setPtp_blob (i : Nat) (v : PtpInst) : (setPtp s i v).blob = s.blob := rfl
@[simp] theorem setPtp_ctl (i : Nat) (v : PtpInst) : (setPtp s i v).ctl = s.ctl := rfl
@[simp] theorem setPtp_slu (i : Nat) (v : PtpInst) : (setPtp s i v).slu = s.slu := rfl
@[simp] theorem setPtp_cells (i : Nat) (v : PtpInst) : (setPtp s i v).cells = s.cells := rfl
@[simp] theorem setPtp_prog (i : Nat) (v : PtpInst) : (setPtp s i v).prog = s.prog := rfl
@[simp] theorem setPtp_eddy (i : Nat) (v : PtpInst) : (setPtp s i v).eddy = s.eddy := rfl
@[simp] theorem setPtp_conf (i : Nat) (v : PtpInst) : (setPtp s i v).conf = s.conf := rfl
@[simp] theorem setPtp_array (i : Nat) (v : PtpInst) : (setPtp s i v).array = s.array := rfl
@[simp] theorem setPtp_braid (i : Nat) (v : PtpInst) : (setPtp s i v).braid = s.braid := rfl
@[simp] theorem setPtp_net (i : Nat) (v : PtpInst) : (setPtp s i v).net = s.net := rfl
@[simp] theorem setPtp_time (i : Nat) (v : PtpInst) : (setPtp s i v).time = { s.time with inst := s.time.inst.set i v } := rfl
@[simp] theorem setPtp_sel (i : Nat) (v : PtpInst) : (setPtp s i v).sel = s.sel := rfl
@[simp] theorem setPtp_pair (i : Nat) (v : PtpInst) : (setPtp s i v).pair = s.pair := rfl
@[simp] theorem setPtp_fed (i : Nat) (v : PtpInst) : (setPtp s i v).fed = s.fed := rfl
@[simp] theorem setPtp_rst (i : Nat) (v : PtpInst) : (setPtp s i v).rst = s.rst := rfl
@[simp] theorem setPtp_ev (i : Nat) (v : PtpInst) : (setPtp s i v).ev = s.ev := rfl
@[simp] theorem setPtp_bus (i : Nat) (v : PtpInst) : (setPtp s i v).bus = s.bus := rfl
@[simp] theorem setPtp_jtag (i : Nat) (v : PtpInst) : (setPtp s i v).jtag = s.jtag := rfl
@[simp] theorem setPtp_pins (i : Nat) (v : PtpInst) : (setPtp s i v).pins = s.pins := rfl
@[simp] theorem getO_setPtp (i : Nat) (v : PtpInst) (j : Nat) : getO (setPtp s i v) j = getO s j := rfl
@[simp] theorem natO_setPtp (i : Nat) (v : PtpInst) (j : Nat) : natO (setPtp s i v) j = natO s j := rfl
@[simp] theorem getB_setPtp (i : Nat) (v : PtpInst) (j : Nat) : getB (setPtp s i v) j = getB s j := rfl

/-! ## setEntry -/

@[simp] theorem setEntry_pending (e : Nat) (v : RefEntry) : (setEntry s e v).pending = s.pending := rfl
@[simp] theorem setEntry_out (e : Nat) (v : RefEntry) : (setEntry s e v).out = s.out := rfl
@[simp] theorem setEntry_fresh (e : Nat) (v : RefEntry) : (setEntry s e v).fresh = s.fresh := rfl
@[simp] theorem setEntry_frame (e : Nat) (v : RefEntry) : (setEntry s e v).frame = s.frame := rfl
@[simp] theorem setEntry_obj (e : Nat) (v : RefEntry) : (setEntry s e v).obj = s.obj := rfl
@[simp] theorem setEntry_blob (e : Nat) (v : RefEntry) : (setEntry s e v).blob = s.blob := rfl
@[simp] theorem setEntry_ctl (e : Nat) (v : RefEntry) : (setEntry s e v).ctl = s.ctl := rfl
@[simp] theorem setEntry_slu (e : Nat) (v : RefEntry) : (setEntry s e v).slu = s.slu := rfl
@[simp] theorem setEntry_cells (e : Nat) (v : RefEntry) : (setEntry s e v).cells = s.cells := rfl
@[simp] theorem setEntry_prog (e : Nat) (v : RefEntry) : (setEntry s e v).prog = s.prog := rfl
@[simp] theorem setEntry_eddy (e : Nat) (v : RefEntry) : (setEntry s e v).eddy = s.eddy := rfl
@[simp] theorem setEntry_conf (e : Nat) (v : RefEntry) : (setEntry s e v).conf = s.conf := rfl
@[simp] theorem setEntry_array (e : Nat) (v : RefEntry) : (setEntry s e v).array = s.array := rfl
@[simp] theorem setEntry_braid (e : Nat) (v : RefEntry) : (setEntry s e v).braid = s.braid := rfl
@[simp] theorem setEntry_net (e : Nat) (v : RefEntry) : (setEntry s e v).net = s.net := rfl
@[simp] theorem setEntry_time (e : Nat) (v : RefEntry) : (setEntry s e v).time = s.time := rfl
@[simp] theorem setEntry_sel (e : Nat) (v : RefEntry) : (setEntry s e v).sel = { s.sel with entries := s.sel.entries.set e v } := rfl
@[simp] theorem setEntry_pair (e : Nat) (v : RefEntry) : (setEntry s e v).pair = s.pair := rfl
@[simp] theorem setEntry_fed (e : Nat) (v : RefEntry) : (setEntry s e v).fed = s.fed := rfl
@[simp] theorem setEntry_rst (e : Nat) (v : RefEntry) : (setEntry s e v).rst = s.rst := rfl
@[simp] theorem setEntry_ev (e : Nat) (v : RefEntry) : (setEntry s e v).ev = s.ev := rfl
@[simp] theorem setEntry_bus (e : Nat) (v : RefEntry) : (setEntry s e v).bus = s.bus := rfl
@[simp] theorem setEntry_jtag (e : Nat) (v : RefEntry) : (setEntry s e v).jtag = s.jtag := rfl
@[simp] theorem setEntry_pins (e : Nat) (v : RefEntry) : (setEntry s e v).pins = s.pins := rfl
@[simp] theorem getO_setEntry (e : Nat) (v : RefEntry) (j : Nat) : getO (setEntry s e v) j = getO s j := rfl
@[simp] theorem natO_setEntry (e : Nat) (v : RefEntry) (j : Nat) : natO (setEntry s e v) j = natO s j := rfl
@[simp] theorem getB_setEntry (e : Nat) (v : RefEntry) (j : Nat) : getB (setEntry s e v) j = getB s j := rfl

/-! ## setBlock -/

@[simp] theorem setBlock_pending (c : Nat) (v : BlockSt) : (setBlock s c v).pending = s.pending := rfl
@[simp] theorem setBlock_out (c : Nat) (v : BlockSt) : (setBlock s c v).out = s.out := rfl
@[simp] theorem setBlock_fresh (c : Nat) (v : BlockSt) : (setBlock s c v).fresh = s.fresh := rfl
@[simp] theorem setBlock_frame (c : Nat) (v : BlockSt) : (setBlock s c v).frame = s.frame := rfl
@[simp] theorem setBlock_obj (c : Nat) (v : BlockSt) : (setBlock s c v).obj = s.obj := rfl
@[simp] theorem setBlock_blob (c : Nat) (v : BlockSt) : (setBlock s c v).blob = s.blob := rfl
@[simp] theorem setBlock_ctl (c : Nat) (v : BlockSt) : (setBlock s c v).ctl = s.ctl := rfl
@[simp] theorem setBlock_slu (c : Nat) (v : BlockSt) : (setBlock s c v).slu = s.slu := rfl
@[simp] theorem setBlock_cells (c : Nat) (v : BlockSt) : (setBlock s c v).cells = s.cells := rfl
@[simp] theorem setBlock_prog (c : Nat) (v : BlockSt) : (setBlock s c v).prog = s.prog := rfl
@[simp] theorem setBlock_eddy (c : Nat) (v : BlockSt) : (setBlock s c v).eddy = s.eddy := rfl
@[simp] theorem setBlock_conf (c : Nat) (v : BlockSt) : (setBlock s c v).conf = s.conf := rfl
@[simp] theorem setBlock_array (c : Nat) (v : BlockSt) : (setBlock s c v).array = s.array := rfl
@[simp] theorem setBlock_braid (c : Nat) (v : BlockSt) : (setBlock s c v).braid = s.braid := rfl
@[simp] theorem setBlock_net (c : Nat) (v : BlockSt) : (setBlock s c v).net = s.net := rfl
@[simp] theorem setBlock_time (c : Nat) (v : BlockSt) : (setBlock s c v).time = s.time := rfl
@[simp] theorem setBlock_sel (c : Nat) (v : BlockSt) : (setBlock s c v).sel = s.sel := rfl
@[simp] theorem setBlock_pair (c : Nat) (v : BlockSt) : (setBlock s c v).pair = s.pair := rfl
@[simp] theorem setBlock_fed (c : Nat) (v : BlockSt) : (setBlock s c v).fed = s.fed := rfl
@[simp] theorem setBlock_rst (c : Nat) (v : BlockSt) : (setBlock s c v).rst = { s.rst with blocks := assocPut s.rst.blocks c v } := rfl
@[simp] theorem setBlock_ev (c : Nat) (v : BlockSt) : (setBlock s c v).ev = s.ev := rfl
@[simp] theorem setBlock_bus (c : Nat) (v : BlockSt) : (setBlock s c v).bus = s.bus := rfl
@[simp] theorem setBlock_jtag (c : Nat) (v : BlockSt) : (setBlock s c v).jtag = s.jtag := rfl
@[simp] theorem setBlock_pins (c : Nat) (v : BlockSt) : (setBlock s c v).pins = s.pins := rfl
@[simp] theorem getO_setBlock (c : Nat) (v : BlockSt) (j : Nat) : getO (setBlock s c v) j = getO s j := rfl
@[simp] theorem natO_setBlock (c : Nat) (v : BlockSt) (j : Nat) : natO (setBlock s c v) j = natO s j := rfl
@[simp] theorem getB_setBlock (c : Nat) (v : BlockSt) (j : Nat) : getB (setBlock s c v) j = getB s j := rfl

/-! ## endSource -/

@[simp] theorem endSource_pending (c : Nat) : (endSource s c).pending = s.pending := rfl
@[simp] theorem endSource_out (c : Nat) : (endSource s c).out = s.out := rfl
@[simp] theorem endSource_fresh (c : Nat) : (endSource s c).fresh = s.fresh := rfl
@[simp] theorem endSource_frame (c : Nat) : (endSource s c).frame = s.frame := rfl
@[simp] theorem endSource_obj (c : Nat) : (endSource s c).obj = s.obj := rfl
@[simp] theorem endSource_blob (c : Nat) : (endSource s c).blob = s.blob := rfl
@[simp] theorem endSource_ctl (c : Nat) : (endSource s c).ctl = s.ctl := rfl
@[simp] theorem endSource_slu (c : Nat) : (endSource s c).slu = s.slu := rfl
@[simp] theorem endSource_cells (c : Nat) : (endSource s c).cells = s.cells := rfl
@[simp] theorem endSource_prog (c : Nat) : (endSource s c).prog = s.prog := rfl
@[simp] theorem endSource_eddy (c : Nat) : (endSource s c).eddy = s.eddy := rfl
@[simp] theorem endSource_conf (c : Nat) : (endSource s c).conf = s.conf := rfl
@[simp] theorem endSource_array (c : Nat) : (endSource s c).array = s.array := rfl
@[simp] theorem endSource_braid (c : Nat) : (endSource s c).braid = s.braid := rfl
@[simp] theorem endSource_net (c : Nat) : (endSource s c).net = s.net := rfl
@[simp] theorem endSource_time (c : Nat) : (endSource s c).time = s.time := rfl
@[simp] theorem endSource_sel (c : Nat) : (endSource s c).sel = s.sel := rfl
@[simp] theorem endSource_pair (c : Nat) : (endSource s c).pair = s.pair := rfl
@[simp] theorem endSource_fed (c : Nat) : (endSource s c).fed = s.fed := rfl
@[simp] theorem endSource_rst (c : Nat) : (endSource s c).rst = { s.rst with asserted := s.rst.asserted.filter (· != c) } := rfl
@[simp] theorem endSource_ev (c : Nat) : (endSource s c).ev = s.ev := rfl
@[simp] theorem endSource_bus (c : Nat) : (endSource s c).bus = s.bus := rfl
@[simp] theorem endSource_jtag (c : Nat) : (endSource s c).jtag = s.jtag := rfl
@[simp] theorem endSource_pins (c : Nat) : (endSource s c).pins = s.pins := rfl
@[simp] theorem getO_endSource (c : Nat) (j : Nat) : getO (endSource s c) j = getO s j := rfl
@[simp] theorem natO_endSource (c : Nat) (j : Nat) : natO (endSource s c) j = natO s j := rfl
@[simp] theorem getB_endSource (c : Nat) (j : Nat) : getB (endSource s c) j = getB s j := rfl

/-! ## putGroup -/

@[simp] theorem putGroup_pending (g : Group) : (putGroup s g).pending = s.pending := rfl
@[simp] theorem putGroup_out (g : Group) : (putGroup s g).out = s.out := rfl
@[simp] theorem putGroup_fresh (g : Group) : (putGroup s g).fresh = s.fresh := rfl
@[simp] theorem putGroup_frame (g : Group) : (putGroup s g).frame = s.frame := rfl
@[simp] theorem putGroup_obj (g : Group) : (putGroup s g).obj = s.obj := rfl
@[simp] theorem putGroup_blob (g : Group) : (putGroup s g).blob = s.blob := rfl
@[simp] theorem putGroup_ctl (g : Group) : (putGroup s g).ctl = s.ctl := rfl
@[simp] theorem putGroup_slu (g : Group) : (putGroup s g).slu = { s.slu with waiting := s.slu.waiting.map (fun x => if x.id == g.id then g else x) } := rfl
@[simp] theorem putGroup_cells (g : Group) : (putGroup s g).cells = s.cells := rfl
@[simp] theorem putGroup_prog (g : Group) : (putGroup s g).prog = s.prog := rfl
@[simp] theorem putGroup_eddy (g : Group) : (putGroup s g).eddy = s.eddy := rfl
@[simp] theorem putGroup_conf (g : Group) : (putGroup s g).conf = s.conf := rfl
@[simp] theorem putGroup_array (g : Group) : (putGroup s g).array = s.array := rfl
@[simp] theorem putGroup_braid (g : Group) : (putGroup s g).braid = s.braid := rfl
@[simp] theorem putGroup_net (g : Group) : (putGroup s g).net = s.net := rfl
@[simp] theorem putGroup_time (g : Group) : (putGroup s g).time = s.time := rfl
@[simp] theorem putGroup_sel (g : Group) : (putGroup s g).sel = s.sel := rfl
@[simp] theorem putGroup_pair (g : Group) : (putGroup s g).pair = s.pair := rfl
@[simp] theorem putGroup_fed (g : Group) : (putGroup s g).fed = s.fed := rfl
@[simp] theorem putGroup_rst (g : Group) : (putGroup s g).rst = s.rst := rfl
@[simp] theorem putGroup_ev (g : Group) : (putGroup s g).ev = s.ev := rfl
@[simp] theorem putGroup_bus (g : Group) : (putGroup s g).bus = s.bus := rfl
@[simp] theorem putGroup_jtag (g : Group) : (putGroup s g).jtag = s.jtag := rfl
@[simp] theorem putGroup_pins (g : Group) : (putGroup s g).pins = s.pins := rfl
@[simp] theorem getO_putGroup (g : Group) (j : Nat) : getO (putGroup s g) j = getO s j := rfl
@[simp] theorem natO_putGroup (g : Group) (j : Nat) : natO (putGroup s g) j = natO s j := rfl
@[simp] theorem getB_putGroup (g : Group) (j : Nat) : getB (putGroup s g) j = getB s j := rfl

/-! ## retireIf -/

@[simp] theorem retireIf_pending (p : JEntry → Bool) : (retireIf s p).pending = s.pending := rfl
@[simp] theorem retireIf_out (p : JEntry → Bool) : (retireIf s p).out = s.out := rfl
@[simp] theorem retireIf_fresh (p : JEntry → Bool) : (retireIf s p).fresh = s.fresh := rfl
@[simp] theorem retireIf_frame (p : JEntry → Bool) : (retireIf s p).frame = s.frame := rfl
@[simp] theorem retireIf_obj (p : JEntry → Bool) : (retireIf s p).obj = s.obj := rfl
@[simp] theorem retireIf_blob (p : JEntry → Bool) : (retireIf s p).blob = s.blob := rfl
@[simp] theorem retireIf_ctl (p : JEntry → Bool) : (retireIf s p).ctl = { s.ctl with journal := s.ctl.journal.filterMap (fun e =>
    if !p e then some e else if e.waits then some { e with state := 1 } else none) } := rfl
@[simp] theorem retireIf_slu (p : JEntry → Bool) : (retireIf s p).slu = s.slu := rfl
@[simp] theorem retireIf_cells (p : JEntry → Bool) : (retireIf s p).cells = s.cells := rfl
@[simp] theorem retireIf_prog (p : JEntry → Bool) : (retireIf s p).prog = s.prog := rfl
@[simp] theorem retireIf_eddy (p : JEntry → Bool) : (retireIf s p).eddy = s.eddy := rfl
@[simp] theorem retireIf_conf (p : JEntry → Bool) : (retireIf s p).conf = s.conf := rfl
@[simp] theorem retireIf_array (p : JEntry → Bool) : (retireIf s p).array = s.array := rfl
@[simp] theorem retireIf_braid (p : JEntry → Bool) : (retireIf s p).braid = s.braid := rfl
@[simp] theorem retireIf_net (p : JEntry → Bool) : (retireIf s p).net = s.net := rfl
@[simp] theorem retireIf_time (p : JEntry → Bool) : (retireIf s p).time = s.time := rfl
@[simp] theorem retireIf_sel (p : JEntry → Bool) : (retireIf s p).sel = s.sel := rfl
@[simp] theorem retireIf_pair (p : JEntry → Bool) : (retireIf s p).pair = s.pair := rfl
@[simp] theorem retireIf_fed (p : JEntry → Bool) : (retireIf s p).fed = s.fed := rfl
@[simp] theorem retireIf_rst (p : JEntry → Bool) : (retireIf s p).rst = s.rst := rfl
@[simp] theorem retireIf_ev (p : JEntry → Bool) : (retireIf s p).ev = s.ev := rfl
@[simp] theorem retireIf_bus (p : JEntry → Bool) : (retireIf s p).bus = s.bus := rfl
@[simp] theorem retireIf_jtag (p : JEntry → Bool) : (retireIf s p).jtag = s.jtag := rfl
@[simp] theorem retireIf_pins (p : JEntry → Bool) : (retireIf s p).pins = s.pins := rfl
@[simp] theorem getO_retireIf (p : JEntry → Bool) (j : Nat) : getO (retireIf s p) j = getO s j := rfl
@[simp] theorem natO_retireIf (p : JEntry → Bool) (j : Nat) : natO (retireIf s p) j = natO s j := rfl
@[simp] theorem getB_retireIf (p : JEntry → Bool) (j : Nat) : getB (retireIf s p) j = getB s j := rfl

/-! ## drawFree -/

@[simp] theorem drawFree_pending : (drawFree s).2.pending = s.pending := rfl
@[simp] theorem drawFree_out : (drawFree s).2.out = s.out := rfl
@[simp] theorem drawFree_fresh : (drawFree s).2.fresh = s.fresh + 1 := rfl
@[simp] theorem drawFree_frame : (drawFree s).2.frame = s.frame := rfl
@[simp] theorem drawFree_obj : (drawFree s).2.obj = s.obj := rfl
@[simp] theorem drawFree_blob : (drawFree s).2.blob = s.blob := rfl
@[simp] theorem drawFree_ctl : (drawFree s).2.ctl = s.ctl := rfl
@[simp] theorem drawFree_slu : (drawFree s).2.slu = s.slu := rfl
@[simp] theorem drawFree_cells : (drawFree s).2.cells = s.cells := rfl
@[simp] theorem drawFree_prog : (drawFree s).2.prog = s.prog := rfl
@[simp] theorem drawFree_eddy : (drawFree s).2.eddy = s.eddy := rfl
@[simp] theorem drawFree_conf : (drawFree s).2.conf = s.conf := rfl
@[simp] theorem drawFree_array : (drawFree s).2.array = s.array := rfl
@[simp] theorem drawFree_braid : (drawFree s).2.braid = s.braid := rfl
@[simp] theorem drawFree_net : (drawFree s).2.net = s.net := rfl
@[simp] theorem drawFree_time : (drawFree s).2.time = s.time := rfl
@[simp] theorem drawFree_sel : (drawFree s).2.sel = s.sel := rfl
@[simp] theorem drawFree_pair : (drawFree s).2.pair = s.pair := rfl
@[simp] theorem drawFree_fed : (drawFree s).2.fed = s.fed := rfl
@[simp] theorem drawFree_rst : (drawFree s).2.rst = s.rst := rfl
@[simp] theorem drawFree_ev : (drawFree s).2.ev = s.ev := rfl
@[simp] theorem drawFree_bus : (drawFree s).2.bus = s.bus := rfl
@[simp] theorem drawFree_jtag : (drawFree s).2.jtag = s.jtag := rfl
@[simp] theorem drawFree_pins : (drawFree s).2.pins = s.pins := rfl
@[simp] theorem getO_drawFree (j : Nat) : getO (drawFree s).2 j = getO s j := rfl
@[simp] theorem natO_drawFree (j : Nat) : natO (drawFree s).2 j = natO s j := rfl
@[simp] theorem drawFree_value : (drawFree s).1 = Config.free s.fresh := rfl

end Sys2Proof.Machine
end

