-- ==== Sys2Proof/Laws/Ops.lean ====
section
/-! SUPPORT. What the shared operations on objects, counters and events do, once each: the object read after a write, the
fields each leaves alone, and what raising an event leaves in the event's objects. -/

namespace Sys2Proof.Machine

variable (s : State)

/-! ## Keys -/

theorem keyIndex_okey (i e b : Nat) (he : e < 65536) (hb : b < 256) : keyIndex (okey i e b) = i := by
  unfold keyIndex okey; omega

theorem keyElem_okey (i e b : Nat) (he : e < 65536) (hb : b < 256) : keyElem (okey i e b) = e := by
  unfold keyElem okey; omega

theorem keySub_okey (i e b : Nat) (hb : b < 256) : keySub (okey i e b) = b := by
  unfold keySub okey; omega

theorem okey_inj {i e b i' e' b' : Nat} (he : e < 65536) (hb : b < 256) (he' : e' < 65536) (hb' : b' < 256) :
    okey i e b = okey i' e' b' ↔ i = i' ∧ e = e' ∧ b = b' := by
  unfold okey; omega

/-! ## Objects -/

theorem getO_setO (k : Nat) (v : Int) (j : Nat) : getO (setO s k v) j = if j = k then v else getO s j := Sparse.get_put

@[simp] theorem getO_setO_self (k : Nat) (v : Int) : getO (setO s k v) k = v := by simp [getO_setO]

theorem getO_setO_ne {k j : Nat} (v : Int) (h : j ≠ k) : getO (setO s k v) j = getO s j := by simp [getO_setO, h]

@[simp] theorem natO_setO_self (k : Nat) (v : Int) : natO (setO s k v) k = v.toNat := by simp [natO]

theorem natO_setO_ne {k j : Nat} (v : Int) (h : j ≠ k) : natO (setO s k v) j = natO s j := by simp [natO, getO_setO_ne s v h]

theorem getB_setB (k : Nat) (v : List Byte) (j : Nat) : getB (setB s k v) j = if j = k then v else getB s j := Sparse.get_put

@[simp] theorem getB_setB_self (k : Nat) (v : List Byte) : getB (setB s k v) k = v := by simp [getB_setB]

@[simp] theorem setMany_nil : setMany s [] = s := rfl

@[simp] theorem setMany_cons (e : Nat × Int) (l : List (Nat × Int)) : setMany s (e :: l) = setMany (setO s e.1 e.2) l := rfl

theorem getO_setMany_ne (l : List (Nat × Int)) (j : Nat) (h : ∀ e ∈ l, j ≠ e.1) : getO (setMany s l) j = getO s j := by
  induction l generalizing s with
  | nil => rfl
  | cons e l ih =>
    rw [setMany_cons, ih _ (fun x hx => h x (List.mem_cons_of_mem _ hx)), getO_setO_ne _ _ (h e (List.mem_cons_self ..))]

/-! ## setMany -/

theorem setMany_fields (l : List (Nat × Int)) : setMany s l = { s with obj := (setMany s l).obj } := by
  induction l generalizing s with
  | nil => rfl
  | cons e l ih => rw [setMany_cons, ih]; rfl

@[simp] theorem setMany_pending (l : List (Nat × Int)) : (setMany s l).pending = s.pending := by rw [setMany_fields]
@[simp] theorem setMany_out (l : List (Nat × Int)) : (setMany s l).out = s.out := by rw [setMany_fields]
@[simp] theorem setMany_fresh (l : List (Nat × Int)) : (setMany s l).fresh = s.fresh := by rw [setMany_fields]
@[simp] theorem setMany_frame (l : List (Nat × Int)) : (setMany s l).frame = s.frame := by rw [setMany_fields]
@[simp] theorem setMany_blob (l : List (Nat × Int)) : (setMany s l).blob = s.blob := by rw [setMany_fields]
@[simp] theorem setMany_ctl (l : List (Nat × Int)) : (setMany s l).ctl = s.ctl := by rw [setMany_fields]
@[simp] theorem setMany_slu (l : List (Nat × Int)) : (setMany s l).slu = s.slu := by rw [setMany_fields]
@[simp] theorem setMany_cells (l : List (Nat × Int)) : (setMany s l).cells = s.cells := by rw [setMany_fields]
@[simp] theorem setMany_prog (l : List (Nat × Int)) : (setMany s l).prog = s.prog := by rw [setMany_fields]
@[simp] theorem setMany_eddy (l : List (Nat × Int)) : (setMany s l).eddy = s.eddy := by rw [setMany_fields]
@[simp] theorem setMany_conf (l : List (Nat × Int)) : (setMany s l).conf = s.conf := by rw [setMany_fields]
@[simp] theorem setMany_array (l : List (Nat × Int)) : (setMany s l).array = s.array := by rw [setMany_fields]
@[simp] theorem setMany_braid (l : List (Nat × Int)) : (setMany s l).braid = s.braid := by rw [setMany_fields]
@[simp] theorem setMany_net (l : List (Nat × Int)) : (setMany s l).net = s.net := by rw [setMany_fields]
@[simp] theorem setMany_time (l : List (Nat × Int)) : (setMany s l).time = s.time := by rw [setMany_fields]
@[simp] theorem setMany_sel (l : List (Nat × Int)) : (setMany s l).sel = s.sel := by rw [setMany_fields]
@[simp] theorem setMany_pair (l : List (Nat × Int)) : (setMany s l).pair = s.pair := by rw [setMany_fields]
@[simp] theorem setMany_fed (l : List (Nat × Int)) : (setMany s l).fed = s.fed := by rw [setMany_fields]
@[simp] theorem setMany_rst (l : List (Nat × Int)) : (setMany s l).rst = s.rst := by rw [setMany_fields]
@[simp] theorem setMany_ev (l : List (Nat × Int)) : (setMany s l).ev = s.ev := by rw [setMany_fields]
@[simp] theorem setMany_bus (l : List (Nat × Int)) : (setMany s l).bus = s.bus := by rw [setMany_fields]
@[simp] theorem setMany_jtag (l : List (Nat × Int)) : (setMany s l).jtag = s.jtag := by rw [setMany_fields]
@[simp] theorem setMany_pins (l : List (Nat × Int)) : (setMany s l).pins = s.pins := by rw [setMany_fields]

/-! ## Counters -/

theorem addO_fields (k n : Nat) : addO s k n = { s with obj := (addO s k n).obj } := by
  unfold addO; split <;> rfl

@[simp] theorem addO_pending (k n : Nat) : (addO s k n).pending = s.pending := by rw [addO_fields]
@[simp] theorem addO_out (k n : Nat) : (addO s k n).out = s.out := by rw [addO_fields]
@[simp] theorem addO_fresh (k n : Nat) : (addO s k n).fresh = s.fresh := by rw [addO_fields]
@[simp] theorem addO_frame (k n : Nat) : (addO s k n).frame = s.frame := by rw [addO_fields]
@[simp] theorem addO_blob (k n : Nat) : (addO s k n).blob = s.blob := by rw [addO_fields]
@[simp] theorem addO_ctl (k n : Nat) : (addO s k n).ctl = s.ctl := by rw [addO_fields]
@[simp] theorem addO_slu (k n : Nat) : (addO s k n).slu = s.slu := by rw [addO_fields]
@[simp] theorem addO_cells (k n : Nat) : (addO s k n).cells = s.cells := by rw [addO_fields]
@[simp] theorem addO_prog (k n : Nat) : (addO s k n).prog = s.prog := by rw [addO_fields]
@[simp] theorem addO_eddy (k n : Nat) : (addO s k n).eddy = s.eddy := by rw [addO_fields]
@[simp] theorem addO_conf (k n : Nat) : (addO s k n).conf = s.conf := by rw [addO_fields]
@[simp] theorem addO_array (k n : Nat) : (addO s k n).array = s.array := by rw [addO_fields]
@[simp] theorem addO_braid (k n : Nat) : (addO s k n).braid = s.braid := by rw [addO_fields]
@[simp] theorem addO_net (k n : Nat) : (addO s k n).net = s.net := by rw [addO_fields]
@[simp] theorem addO_time (k n : Nat) : (addO s k n).time = s.time := by rw [addO_fields]
@[simp] theorem addO_sel (k n : Nat) : (addO s k n).sel = s.sel := by rw [addO_fields]
@[simp] theorem addO_pair (k n : Nat) : (addO s k n).pair = s.pair := by rw [addO_fields]
@[simp] theorem addO_fed (k n : Nat) : (addO s k n).fed = s.fed := by rw [addO_fields]
@[simp] theorem addO_rst (k n : Nat) : (addO s k n).rst = s.rst := by rw [addO_fields]
@[simp] theorem addO_ev (k n : Nat) : (addO s k n).ev = s.ev := by rw [addO_fields]
@[simp] theorem addO_bus (k n : Nat) : (addO s k n).bus = s.bus := by rw [addO_fields]
@[simp] theorem addO_jtag (k n : Nat) : (addO s k n).jtag = s.jtag := by rw [addO_fields]
@[simp] theorem addO_pins (k n : Nat) : (addO s k n).pins = s.pins := by rw [addO_fields]

theorem getO_addO_ne {k j : Nat} (n : Nat) (h : j ≠ k) : getO (addO s k n) j = getO s j := by
  unfold addO; split <;> exact getO_setO_ne _ _ h

/-- A counter that does not pass the end of its type rises by n. -/
theorem addO_eq {k n : Nat} (h : natO s k + n < counterSpan k) : addO s k n = setO s k ((natO s k + n : Nat) : Int) := by
  simp [addO, h]

theorem natO_addO_ne {k j : Nat} (n : Nat) (h : j ≠ k) : natO (addO s k n) j = natO s j := by simp [natO, getO_addO_ne s n h]

@[simp] theorem bumpO_pending (k : Nat) : (bumpO s k).pending = s.pending := addO_pending s k 1
@[simp] theorem bumpO_out (k : Nat) : (bumpO s k).out = s.out := addO_out s k 1
@[simp] theorem bumpO_fresh (k : Nat) : (bumpO s k).fresh = s.fresh := addO_fresh s k 1
@[simp] theorem bumpO_frame (k : Nat) : (bumpO s k).frame = s.frame := addO_frame s k 1
@[simp] theorem bumpO_blob (k : Nat) : (bumpO s k).blob = s.blob := addO_blob s k 1
@[simp] theorem bumpO_ctl (k : Nat) : (bumpO s k).ctl = s.ctl := addO_ctl s k 1
@[simp] theorem bumpO_slu (k : Nat) : (bumpO s k).slu = s.slu := addO_slu s k 1
@[simp] theorem bumpO_cells (k : Nat) : (bumpO s k).cells = s.cells := addO_cells s k 1
@[simp] theorem bumpO_prog (k : Nat) : (bumpO s k).prog = s.prog := addO_prog s k 1
@[simp] theorem bumpO_eddy (k : Nat) : (bumpO s k).eddy = s.eddy := addO_eddy s k 1
@[simp] theorem bumpO_conf (k : Nat) : (bumpO s k).conf = s.conf := addO_conf s k 1
@[simp] theorem bumpO_array (k : Nat) : (bumpO s k).array = s.array := addO_array s k 1
@[simp] theorem bumpO_braid (k : Nat) : (bumpO s k).braid = s.braid := addO_braid s k 1
@[simp] theorem bumpO_net (k : Nat) : (bumpO s k).net = s.net := addO_net s k 1
@[simp] theorem bumpO_time (k : Nat) : (bumpO s k).time = s.time := addO_time s k 1
@[simp] theorem bumpO_sel (k : Nat) : (bumpO s k).sel = s.sel := addO_sel s k 1
@[simp] theorem bumpO_pair (k : Nat) : (bumpO s k).pair = s.pair := addO_pair s k 1
@[simp] theorem bumpO_fed (k : Nat) : (bumpO s k).fed = s.fed := addO_fed s k 1
@[simp] theorem bumpO_rst (k : Nat) : (bumpO s k).rst = s.rst := addO_rst s k 1
@[simp] theorem bumpO_ev (k : Nat) : (bumpO s k).ev = s.ev := addO_ev s k 1
@[simp] theorem bumpO_bus (k : Nat) : (bumpO s k).bus = s.bus := addO_bus s k 1
@[simp] theorem bumpO_jtag (k : Nat) : (bumpO s k).jtag = s.jtag := addO_jtag s k 1
@[simp] theorem bumpO_pins (k : Nat) : (bumpO s k).pins = s.pins := addO_pins s k 1

theorem getO_bumpO_ne {k j : Nat} (h : j ≠ k) : getO (bumpO s k) j = getO s j := getO_addO_ne s 1 h

theorem natO_bumpO_ne {k j : Nat} (h : j ≠ k) : natO (bumpO s k) j = natO s j := natO_addO_ne s 1 h

theorem bumpO_eq {k : Nat} (h : natO s k + 1 < counterSpan k) : bumpO s k = setO s k ((natO s k + 1 : Nat) : Int) := addO_eq s h

theorem getO_bumpSat_ne {k j : Nat} (h : j ≠ k) : getO (bumpSat s k) j = getO s j := getO_setO_ne _ _ h

/-! ## Events -/

/-- Raising an event touches the objects and the event records only. -/
theorem raiseFull_fields (f n d : Nat) (inj lasting : Bool) :
    raiseFull s f n d inj lasting
      = { s with obj := (raiseFull s f n d inj lasting).obj, ev := (raiseFull s f n d inj lasting).ev } := by
  unfold raiseFull
  dsimp only
  split <;> split <;> simp [bumpSat, setO]

@[simp] theorem raiseFull_pending (f n d : Nat) (inj l : Bool) : (raiseFull s f n d inj l).pending = s.pending := by rw [raiseFull_fields]
@[simp] theorem raiseFull_out (f n d : Nat) (inj l : Bool) : (raiseFull s f n d inj l).out = s.out := by rw [raiseFull_fields]
@[simp] theorem raiseFull_fresh (f n d : Nat) (inj l : Bool) : (raiseFull s f n d inj l).fresh = s.fresh := by rw [raiseFull_fields]
@[simp] theorem raiseFull_frame (f n d : Nat) (inj l : Bool) : (raiseFull s f n d inj l).frame = s.frame := by rw [raiseFull_fields]
@[simp] theorem raiseFull_blob (f n d : Nat) (inj l : Bool) : (raiseFull s f n d inj l).blob = s.blob := by rw [raiseFull_fields]
@[simp] theorem raiseFull_ctl (f n d : Nat) (inj l : Bool) : (raiseFull s f n d inj l).ctl = s.ctl := by rw [raiseFull_fields]
@[simp] theorem raiseFull_slu (f n d : Nat) (inj l : Bool) : (raiseFull s f n d inj l).slu = s.slu := by rw [raiseFull_fields]
@[simp] theorem raiseFull_cells (f n d : Nat) (inj l : Bool) : (raiseFull s f n d inj l).cells = s.cells := by rw [raiseFull_fields]
@[simp] theorem raiseFull_prog (f n d : Nat) (inj l : Bool) : (raiseFull s f n d inj l).prog = s.prog := by rw [raiseFull_fields]
@[simp] theorem raiseFull_eddy (f n d : Nat) (inj l : Bool) : (raiseFull s f n d inj l).eddy = s.eddy := by rw [raiseFull_fields]
@[simp] theorem raiseFull_conf (f n d : Nat) (inj l : Bool) : (raiseFull s f n d inj l).conf = s.conf := by rw [raiseFull_fields]
@[simp] theorem raiseFull_array (f n d : Nat) (inj l : Bool) : (raiseFull s f n d inj l).array = s.array := by rw [raiseFull_fields]
@[simp] theorem raiseFull_braid (f n d : Nat) (inj l : Bool) : (raiseFull s f n d inj l).braid = s.braid := by rw [raiseFull_fields]
@[simp] theorem raiseFull_net (f n d : Nat) (inj l : Bool) : (raiseFull s f n d inj l).net = s.net := by rw [raiseFull_fields]
@[simp] theorem raiseFull_time (f n d : Nat) (inj l : Bool) : (raiseFull s f n d inj l).time = s.time := by rw [raiseFull_fields]
@[simp] theorem raiseFull_sel (f n d : Nat) (inj l : Bool) : (raiseFull s f n d inj l).sel = s.sel := by rw [raiseFull_fields]
@[simp] theorem raiseFull_pair (f n d : Nat) (inj l : Bool) : (raiseFull s f n d inj l).pair = s.pair := by rw [raiseFull_fields]
@[simp] theorem raiseFull_fed (f n d : Nat) (inj l : Bool) : (raiseFull s f n d inj l).fed = s.fed := by rw [raiseFull_fields]
@[simp] theorem raiseFull_rst (f n d : Nat) (inj l : Bool) : (raiseFull s f n d inj l).rst = s.rst := by rw [raiseFull_fields]
@[simp] theorem raiseFull_bus (f n d : Nat) (inj l : Bool) : (raiseFull s f n d inj l).bus = s.bus := by rw [raiseFull_fields]
@[simp] theorem raiseFull_jtag (f n d : Nat) (inj l : Bool) : (raiseFull s f n d inj l).jtag = s.jtag := by rw [raiseFull_fields]
@[simp] theorem raiseFull_pins (f n d : Nat) (inj l : Bool) : (raiseFull s f n d inj l).pins = s.pins := by rw [raiseFull_fields]
@[simp] theorem raise_pending (n d : Nat) : (raise s n d).pending = s.pending := raiseFull_pending ..
@[simp] theorem raise_out (n d : Nat) : (raise s n d).out = s.out := raiseFull_out ..
@[simp] theorem raise_fresh (n d : Nat) : (raise s n d).fresh = s.fresh := raiseFull_fresh ..
@[simp] theorem raise_frame (n d : Nat) : (raise s n d).frame = s.frame := raiseFull_frame ..
@[simp] theorem raise_blob (n d : Nat) : (raise s n d).blob = s.blob := raiseFull_blob ..
@[simp] theorem raise_ctl (n d : Nat) : (raise s n d).ctl = s.ctl := raiseFull_ctl ..
@[simp] theorem raise_slu (n d : Nat) : (raise s n d).slu = s.slu := raiseFull_slu ..
@[simp] theorem raise_cells (n d : Nat) : (raise s n d).cells = s.cells := raiseFull_cells ..
@[simp] theorem raise_prog (n d : Nat) : (raise s n d).prog = s.prog := raiseFull_prog ..
@[simp] theorem raise_eddy (n d : Nat) : (raise s n d).eddy = s.eddy := raiseFull_eddy ..
@[simp] theorem raise_conf (n d : Nat) : (raise s n d).conf = s.conf := raiseFull_conf ..
@[simp] theorem raise_array (n d : Nat) : (raise s n d).array = s.array := raiseFull_array ..
@[simp] theorem raise_braid (n d : Nat) : (raise s n d).braid = s.braid := raiseFull_braid ..
@[simp] theorem raise_net (n d : Nat) : (raise s n d).net = s.net := raiseFull_net ..
@[simp] theorem raise_time (n d : Nat) : (raise s n d).time = s.time := raiseFull_time ..
@[simp] theorem raise_sel (n d : Nat) : (raise s n d).sel = s.sel := raiseFull_sel ..
@[simp] theorem raise_pair (n d : Nat) : (raise s n d).pair = s.pair := raiseFull_pair ..
@[simp] theorem raise_fed (n d : Nat) : (raise s n d).fed = s.fed := raiseFull_fed ..
@[simp] theorem raise_rst (n d : Nat) : (raise s n d).rst = s.rst := raiseFull_rst ..
@[simp] theorem raise_bus (n d : Nat) : (raise s n d).bus = s.bus := raiseFull_bus ..
@[simp] theorem raise_jtag (n d : Nat) : (raise s n d).jtag = s.jtag := raiseFull_jtag ..
@[simp] theorem raise_pins (n d : Nat) : (raise s n d).pins = s.pins := raiseFull_pins ..
@[simp] theorem raiseAt_pending (f n d : Nat) : (raiseAt s f n d).pending = s.pending := raiseFull_pending ..
@[simp] theorem raiseAt_out (f n d : Nat) : (raiseAt s f n d).out = s.out := raiseFull_out ..
@[simp] theorem raiseAt_fresh (f n d : Nat) : (raiseAt s f n d).fresh = s.fresh := raiseFull_fresh ..
@[simp] theorem raiseAt_frame (f n d : Nat) : (raiseAt s f n d).frame = s.frame := raiseFull_frame ..
@[simp] theorem raiseAt_blob (f n d : Nat) : (raiseAt s f n d).blob = s.blob := raiseFull_blob ..
@[simp] theorem raiseAt_ctl (f n d : Nat) : (raiseAt s f n d).ctl = s.ctl := raiseFull_ctl ..
@[simp] theorem raiseAt_slu (f n d : Nat) : (raiseAt s f n d).slu = s.slu := raiseFull_slu ..
@[simp] theorem raiseAt_cells (f n d : Nat) : (raiseAt s f n d).cells = s.cells := raiseFull_cells ..
@[simp] theorem raiseAt_prog (f n d : Nat) : (raiseAt s f n d).prog = s.prog := raiseFull_prog ..
@[simp] theorem raiseAt_eddy (f n d : Nat) : (raiseAt s f n d).eddy = s.eddy := raiseFull_eddy ..
@[simp] theorem raiseAt_conf (f n d : Nat) : (raiseAt s f n d).conf = s.conf := raiseFull_conf ..
@[simp] theorem raiseAt_array (f n d : Nat) : (raiseAt s f n d).array = s.array := raiseFull_array ..
@[simp] theorem raiseAt_braid (f n d : Nat) : (raiseAt s f n d).braid = s.braid := raiseFull_braid ..
@[simp] theorem raiseAt_net (f n d : Nat) : (raiseAt s f n d).net = s.net := raiseFull_net ..
@[simp] theorem raiseAt_time (f n d : Nat) : (raiseAt s f n d).time = s.time := raiseFull_time ..
@[simp] theorem raiseAt_sel (f n d : Nat) : (raiseAt s f n d).sel = s.sel := raiseFull_sel ..
@[simp] theorem raiseAt_pair (f n d : Nat) : (raiseAt s f n d).pair = s.pair := raiseFull_pair ..
@[simp] theorem raiseAt_fed (f n d : Nat) : (raiseAt s f n d).fed = s.fed := raiseFull_fed ..
@[simp] theorem raiseAt_rst (f n d : Nat) : (raiseAt s f n d).rst = s.rst := raiseFull_rst ..
@[simp] theorem raiseAt_bus (f n d : Nat) : (raiseAt s f n d).bus = s.bus := raiseFull_bus ..
@[simp] theorem raiseAt_jtag (f n d : Nat) : (raiseAt s f n d).jtag = s.jtag := raiseFull_jtag ..
@[simp] theorem raiseAt_pins (f n d : Nat) : (raiseAt s f n d).pins = s.pins := raiseFull_pins ..
@[simp] theorem raiseLasting_pending (n d : Nat) : (raiseLasting s n d).pending = s.pending := raiseFull_pending ..
@[simp] theorem raiseLasting_out (n d : Nat) : (raiseLasting s n d).out = s.out := raiseFull_out ..
@[simp] theorem raiseLasting_fresh (n d : Nat) : (raiseLasting s n d).fresh = s.fresh := raiseFull_fresh ..
@[simp] theorem raiseLasting_frame (n d : Nat) : (raiseLasting s n d).frame = s.frame := raiseFull_frame ..
@[simp] theorem raiseLasting_blob (n d : Nat) : (raiseLasting s n d).blob = s.blob := raiseFull_blob ..
@[simp] theorem raiseLasting_ctl (n d : Nat) : (raiseLasting s n d).ctl = s.ctl := raiseFull_ctl ..
@[simp] theorem raiseLasting_slu (n d : Nat) : (raiseLasting s n d).slu = s.slu := raiseFull_slu ..
@[simp] theorem raiseLasting_cells (n d : Nat) : (raiseLasting s n d).cells = s.cells := raiseFull_cells ..
@[simp] theorem raiseLasting_prog (n d : Nat) : (raiseLasting s n d).prog = s.prog := raiseFull_prog ..
@[simp] theorem raiseLasting_eddy (n d : Nat) : (raiseLasting s n d).eddy = s.eddy := raiseFull_eddy ..
@[simp] theorem raiseLasting_conf (n d : Nat) : (raiseLasting s n d).conf = s.conf := raiseFull_conf ..
@[simp] theorem raiseLasting_array (n d : Nat) : (raiseLasting s n d).array = s.array := raiseFull_array ..
@[simp] theorem raiseLasting_braid (n d : Nat) : (raiseLasting s n d).braid = s.braid := raiseFull_braid ..
@[simp] theorem raiseLasting_net (n d : Nat) : (raiseLasting s n d).net = s.net := raiseFull_net ..
@[simp] theorem raiseLasting_time (n d : Nat) : (raiseLasting s n d).time = s.time := raiseFull_time ..
@[simp] theorem raiseLasting_sel (n d : Nat) : (raiseLasting s n d).sel = s.sel := raiseFull_sel ..
@[simp] theorem raiseLasting_pair (n d : Nat) : (raiseLasting s n d).pair = s.pair := raiseFull_pair ..
@[simp] theorem raiseLasting_fed (n d : Nat) : (raiseLasting s n d).fed = s.fed := raiseFull_fed ..
@[simp] theorem raiseLasting_rst (n d : Nat) : (raiseLasting s n d).rst = s.rst := raiseFull_rst ..
@[simp] theorem raiseLasting_bus (n d : Nat) : (raiseLasting s n d).bus = s.bus := raiseFull_bus ..
@[simp] theorem raiseLasting_jtag (n d : Nat) : (raiseLasting s n d).jtag = s.jtag := raiseFull_jtag ..
@[simp] theorem raiseLasting_pins (n d : Nat) : (raiseLasting s n d).pins = s.pins := raiseFull_pins ..

/-- Raising an event changes objects of that event only (Table 15.3). -/
theorem getO_raiseFull_ne (f n d : Nat) (inj lasting : Bool) {j : Nat} (h : ∀ b, b < 256 → j ≠ okey 0x1300 n b) :
    getO (raiseFull s f n d inj lasting) j = getO s j := by
  have h1 := h 1 (by decide); have h2 := h 2 (by decide); have h5 := h 5 (by decide); have h6 := h 6 (by decide)
  have h7 := h 7 (by decide); have h9 := h 9 (by decide)
  have e (x : State) (y : Events) : getO { x with ev := y } j = getO x j := rfl
  unfold raiseFull
  dsimp only
  split
  · simp only [e, setMany_cons, setMany_nil, getO_setO, h7, h9, if_false]; split <;> rfl
  · simp only [e, setMany_cons, setMany_nil, getO_setO, bumpSat, h1, h2, h5, h6, h7, h9, if_false]; split <;> rfl

/-! ## The end of a command -/

theorem done_eq : done s = .next (driveEvtN s) := rfl

/-- Every command that ends in `done` leaves EVT_N as the events drive it. -/
theorem evtN_driveEvtN : (driveEvtN s).ev.evtN = evtLow (driveEvtN s) := rfl

end Sys2Proof.Machine
end

