-- ==== Sys2Proof/Laws/Dsp.lean ====
section
/-! SUPPORT. What a compute operation, a slot operation and a control operation do at their cell, once each: the lanes, the
status word, and what each leaves alone. -/

namespace Sys2Proof.Machine

variable (s : State)

/-! ## Cells -/

theorem cellOf_setCell (n m : Nat) (c : Cell) : cellOf (setCell s n c) m = if m = n then c else cellOf s m := Sparse.get_put

@[simp] theorem cellOf_setCell_self (n : Nat) (c : Cell) : cellOf (setCell s n c) n = c := by simp [cellOf_setCell]

theorem cellOf_setCell_ne {n m : Nat} (c : Cell) (h : m ≠ n) : cellOf (setCell s n c) m = cellOf s m := by
  simp [cellOf_setCell, h]

@[simp] theorem cellOf_setO (k : Nat) (v : Int) (n : Nat) : cellOf (setO s k v) n = cellOf s n := rfl

/-! ## Noting the events of R84 -/

theorem noteSeen_fields (c : Cell) (v : Seen) :
    noteSeen c v = { c with wrapped := (noteSeen c v).wrapped, lostSum := (noteSeen c v).lostSum, saturated := (noteSeen c v).saturated } := by
  cases v <;> rfl

theorem foldl_noteSeen_fields (l : List Seen) (c : Cell) :
    l.foldl noteSeen c = { c with
      wrapped := (l.foldl noteSeen c).wrapped, lostSum := (l.foldl noteSeen c).lostSum, saturated := (l.foldl noteSeen c).saturated } := by
  induction l generalizing c with
  | nil => rfl
  | cons v l ih =>
    simp only [List.foldl_cons]
    rw [ih, noteSeen_fields]

theorem foldl_noteSeen_none (l : List Seen) (h : ∀ v ∈ l, v = .none) (c : Cell) : l.foldl noteSeen c = c := by
  induction l generalizing c with
  | nil => rfl
  | cons v l ih =>
    have hv := h v (List.mem_cons_self ..)
    subst hv
    exact ih (fun x hx => h x (List.mem_cons_of_mem _ hx)) c

theorem foldl_recordSeen_none (l : List (Nat × Seen)) (h : ∀ e ∈ l, e.2 = .none) (st addr acc : Nat) :
    l.foldl (fun st e => recordSeen st addr e.1 acc e.2) st = st := by
  induction l generalizing st with
  | nil => rfl
  | cons e l ih =>
    have he := h e (List.mem_cons_self ..)
    simp only [List.foldl_cons, he]
    exact ih (fun x hx => h x (List.mem_cons_of_mem _ hx)) st

/-! ## Compute operations -/

theorem compute_stopped {n : Nat} (h : cellExec s n = false) (p : Pred) (acc : Nat) (f : LaneOp) : compute s n p acc f = s := by
  simp [compute, h]

/-- A compute operation changes its own cell and the status word of that cell, nothing else. -/
theorem compute_fields (n : Nat) (p : Pred) (acc : Nat) (f : LaneOp) :
    compute s n p acc f = { s with cells := (compute s n p acc f).cells, obj := (compute s n p acc f).obj } := by
  unfold compute
  split
  · rfl
  · dsimp only; split <;> rfl

theorem compute_others {n m : Nat} (p : Pred) (acc : Nat) (f : LaneOp) (h : m ≠ n) : cellOf (compute s n p acc f) m = cellOf s m := by
  unfold compute
  split
  · rfl
  · dsimp only; split <;> simp [cellOf_setCell_ne _ _ h]

theorem compute_objects {n k : Nat} (p : Pred) (acc : Nat) (f : LaneOp) (h : k ≠ Obj.clus.cellStatus (n / 8) (n % 8)) :
    getO (compute s n p acc f) k = getO s k := by
  unfold compute
  split
  · rfl
  · dsimp only; split
    · rfl
    · rw [getO_setO_ne _ _ h]; rfl

/-- The cell after a compute operation: only lanes, addresses of instructions, latch and noted events differ. -/
theorem compute_cell {n : Nat} (h : cellExec s n = true) (p : Pred) (acc : Nat) (f : LaneOp) :
    cellOf (compute s n p acc f) n = { cellOf s n with
      lanes := (runLanes p f (cellOf s n).lanes).map (·.1), pc := (cellOf s n).nextPc, nextPc := ((cellOf s n).nextPc + 1) % 4096,
      latch := ⟨(cellOf s n).lanes, none, none, none⟩, wrapped := (cellOf (compute s n p acc f) n).wrapped,
      lostSum := (cellOf (compute s n p acc f) n).lostSum, saturated := (cellOf (compute s n p acc f) n).saturated } := by
  unfold compute
  simp only [h, Bool.not_true, Bool.false_eq_true, if_false]
  split
  all_goals
    simp only [cellOf_setCell_self, cellOf_setO]
    rw [foldl_noteSeen_fields]
    rfl

theorem compute_status {n : Nat} (h : cellExec s n = true) (p : Pred) (acc : Nat) (f : LaneOp) :
    natO (compute s n p acc f) (Obj.clus.cellStatus (n / 8) (n % 8))
      = ((List.range 8).zip ((runLanes p f (cellOf s n).lanes).toList.map (·.2))).foldl
          (fun st e => recordSeen st (cellOf s n).nextPc e.1 acc e.2) (natO s (Obj.clus.cellStatus (n / 8) (n % 8))) := by
  unfold compute
  simp only [h, Bool.not_true, Bool.false_eq_true, if_false]
  split
  · rename_i hs
    rw [show natO (setCell _ _ _) _ = natO s _ from rfl]
    simpa [startInstr] using hs.symm
  · rw [natO_setO_self]; simp [startInstr]

theorem runLanes_lane (p : Pred) (f : LaneOp) (v : Vector Lane 8) (i : Fin 8) :
    ((runLanes p f v).map (·.1))[i] = if predTakes p v[i] then (f v i v[i]).1 else v[i] := by
  simp only [runLanes, Fin.getElem_fin, Vector.getElem_map, Vector.getElem_ofFn, Fin.eta]
  split <;> rfl

theorem runLanes_quiet (p : Pred) (f : Vector Lane 8 → Fin 8 → Lane → Lane) (v : Vector Lane 8) :
    ∀ x ∈ (runLanes p (quiet f) v).toList.map (·.2), x = Seen.none := by
  intro x hx
  obtain ⟨y, hy, rfl⟩ := List.mem_map.mp hx
  obtain ⟨i, hi, rfl⟩ := List.getElem_of_mem hy
  simp only [runLanes, Vector.getElem_toList, Vector.getElem_ofFn, quiet]
  split <;> rfl

/-- An operation that records nothing leaves every object alone. -/
theorem compute_quiet_obj (n : Nat) (p : Pred) (acc : Nat) (f : Vector Lane 8 → Fin 8 → Lane → Lane) :
    (compute s n p acc (quiet f)).obj = s.obj := by
  unfold compute
  split
  · rfl
  · dsimp only
    rw [foldl_recordSeen_none]
    · split
      · rfl
      · rename_i h; exact absurd rfl h
    · intro e he
      exact runLanes_quiet p f _ e.2 (List.of_mem_zip he).2

/-! ## Slot and control operations -/

theorem slotOp_stopped {n : Nat} (h : cellExec s n = false) (f : Cell → Cell) : slotOp s n f = s := by simp [slotOp, h]

theorem slotOp_runs {n : Nat} (h : cellExec s n = true) (f : Cell → Cell) : slotOp s n f = setCell s n (f (cellOf s n)) := by
  simp [slotOp, h]

/-! ## Compute operations in the terms of the statements -/

theorem takes_iff (p : Pred) (l : Lane) : predTakes p l = true ↔ (p.pen = false ∨ l.f[p.psel] ≠ p.pinv) := by
  unfold predTakes predFlag; cases p.pen <;> simp

theorem runLanes_seen (p : Pred) (f : Lane → Lane × Seen) (c : Cell) :
    (runLanes p (fun _ _ l => f l) c.lanes).toList.map (·.2) = (List.finRange 8).map (recordedIn c p f) := by
  have key : ∀ i : Fin 8,
      (if predTakes p c.lanes[i] = true then f c.lanes[i] else (c.lanes[i], Seen.none)).2 = recordedIn c p f i := by
    intro i
    unfold recordedIn
    by_cases hp : predTakes p c.lanes[i] = true
    · rw [if_pos hp, if_pos ((takes_iff ..).mp hp)]
    · rw [if_neg hp, if_neg (fun x => hp ((takes_iff ..).mpr x))]
  apply List.ext_getElem
  · simp
  · intro i h1 h2
    simp only [List.length_map, Vector.length_toList] at h1
    simp only [List.getElem_map, Vector.getElem_toList, List.getElem_finRange]
    refine Eq.trans ?_ (key ⟨i, h1⟩)
    unfold runLanes
    rw [Vector.getElem_ofFn]

theorem foldl_noteSeen_flags (l : List Seen) (c : Cell) :
    ((l.foldl noteSeen c).wrapped = true ↔ c.wrapped = true ∨ .wrap ∈ l)
    ∧ ((l.foldl noteSeen c).lostSum = true ↔ c.lostSum = true ∨ .lost ∈ l)
    ∧ ((l.foldl noteSeen c).saturated = true ↔ c.saturated = true ∨ .sat ∈ l) := by
  induction l generalizing c with
  | nil => simp
  | cons v l ih =>
    simp only [List.foldl_cons, List.mem_cons]
    have := ih (noteSeen c v)
    rw [this.1, this.2.1, this.2.2]
    cases v <;> simp [noteSeen]

theorem compute_lanesOnly {n : Nat} (h : cellExec s n = true) (p : Pred) (acc : Nat) (f : LaneOp) :
    LanesOnly s (compute s n p acc f) n where
  rest := compute_fields ..
  others := fun m hm => compute_others s p acc f hm
  objects := fun k hk => compute_objects s p acc f (by simpa using hk)
  cell := by
    have := compute_cell s h p acc f
    rw [this]

theorem compute_lanesDone {n : Nat} (h : cellExec s n = true) (p : Pred) (acc : Nat) (f : LaneOp) :
    LanesDone s (compute s n p acc f) n p (fun v i l => (f v i l).1) := by
  intro i
  rw [compute_cell s h p acc f]
  show ((runLanes p f (cellOf s n).lanes).map (·.1))[i] = _
  rw [runLanes_lane]
  by_cases hp : predTakes p (cellOf s n).lanes[i] = true
  · rw [if_pos hp, if_pos ((takes_iff ..).mp hp)]
  · rw [if_neg hp, if_neg (fun x => hp ((takes_iff ..).mpr x))]

/-- The events a cell has noted after a compute operation. -/
theorem compute_noted {n : Nat} (h : cellExec s n = true) (p : Pred) (acc : Nat) (f : LaneOp) :
    let l := (runLanes p f (cellOf s n).lanes).toList.map (·.2)
    ((cellOf (compute s n p acc f) n).wrapped = true ↔ (cellOf s n).wrapped = true ∨ .wrap ∈ l)
    ∧ ((cellOf (compute s n p acc f) n).lostSum = true ↔ (cellOf s n).lostSum = true ∨ .lost ∈ l)
    ∧ ((cellOf (compute s n p acc f) n).saturated = true ↔ (cellOf s n).saturated = true ∨ .sat ∈ l) := by
  unfold compute
  simp only [h, Bool.not_true, Bool.false_eq_true, if_false]
  split
  all_goals
    simp only [cellOf_setCell_self, cellOf_setO]
    exact foldl_noteSeen_flags _ _

/-- An operation that records nothing. -/
theorem compute_laneEffect {n : Nat} (h : cellExec s n = true) (p : Pred) (acc : Nat) (f : Vector Lane 8 → Fin 8 → Lane → Lane) :
    LaneEffect s (compute s n p acc (quiet f)) n p f := by
  refine ⟨compute_lanesOnly s h .., compute_lanesDone s h p acc (quiet f), compute_quiet_obj .., ?_⟩
  have no (v : Seen) (hv : v ≠ .none) : ¬ v ∈ (runLanes p (quiet f) (cellOf s n).lanes).toList.map (·.2) :=
    fun hm => hv (runLanes_quiet p f _ v hm)
  have k := compute_noted s h p acc (quiet f)
  refine ⟨Bool.eq_iff_iff.mpr ?_, Bool.eq_iff_iff.mpr ?_, Bool.eq_iff_iff.mpr ?_⟩
  · rw [k.1]; simp [no .wrap]
  · rw [k.2.1]; simp [no .lost]
  · rw [k.2.2]; simp [no .sat]

/-- An operation that may record. -/
theorem compute_laneRecord {n : Nat} (h : cellExec s n = true) (p : Pred) (acc : Nat) (f : Lane → Lane × Seen) :
    LaneRecord s (compute s n p acc (fun _ _ l => f l)) n p acc f := by
  have k := compute_noted s h p acc (fun _ _ l => f l)
  have st := compute_status s h p acc (fun _ _ l => f l)
  rw [runLanes_seen] at k st
  refine ⟨compute_lanesOnly s h .., compute_lanesDone s h p acc _, st, ?_, ?_, ?_⟩
  · rw [k.1]; simp
  · rw [k.2.1]; simp
  · rw [k.2.2]; simp

/-! ## Slots in the terms of the statements -/

theorem slotStep_eq (c : Cell) (slot : SlotId) (ap : Fin 8) (am : Fin 4) (u : Int) :
    (slotStep c slot ap am u).1 = slotAt c slot ap am u ∧
    (slotStep c slot ap am u).2 = { c with addrs := slotLeaves c slot ap am u, latch := (slotStep c slot ap am u).2.latch } ∧
    (slotStep c slot ap am u).2.latch.lanes = c.latch.lanes ∧ (slotStep c slot ap am u).2.latch.loadB = c.latch.loadB := by
  cases slot
  · exact ⟨rfl, rfl, rfl, rfl⟩
  · simp only [slotStep, slotAt, slotLeaves, slotStart]
    cases c.latch.ldpA with
    | none => simp
    | some x => simp

theorem memGet_memPut (c : Cell) (a b : Nat) (w : Word) : memGet (memPut c a w) b = if b % 32768 = a % 32768 then w else memGet c b := Sparse.get_put

theorem regOf_setReg (l : Lane) (r q : Fin 8) (w : Word) : regOf (setReg l r w) q = if q = r then w else regOf l q := by
  have := r.isLt; have := q.isLt
  unfold regOf setReg setX setC
  by_cases hr : r.val < 4 <;> by_cases hq : q.val < 4 <;> simp [hr, hq, Vector.getElem_set, Fin.ext_iff, Fin.ofNat, Nat.mod_eq_of_lt]
  all_goals first
    | omega
    | (congr 1; apply propext; omega)
theorem setReg_af (l : Lane) (r : Fin 8) (w : Word) : (setReg l r w).a = l.a ∧ (setReg l r w).f = l.f := by
  unfold setReg; split <;> exact ⟨rfl, rfl⟩

theorem setCell_becomes (n : Nat) (c : Cell) : CellBecomes s (setCell s n c) n c :=
  ⟨rfl, by simp, fun m hm => cellOf_setCell_ne s c hm⟩

theorem memGet_eq (c d : Cell) (h : d.mem = c.mem) (a : Nat) : memGet d a = memGet c a := by unfold memGet; rw [h]

theorem loadReg_spec (c : Cell) (slot : SlotId) (reg : Fin 8) (f : Fin 8 → Word) (h : slot = .b ∨ c.latch.loadB ≠ some reg) :
    Loaded c (loadReg c slot reg f) reg f ∧ (loadReg c slot reg f).addrs = c.addrs := by
  have key (d : Cell) (hd : d = { c with lanes := Vector.ofFn (fun i => setReg c.lanes[i] reg (f i)), latch := d.latch }) : Loaded c d reg f ∧ d.addrs = c.addrs := by
    have hl : d.lanes = Vector.ofFn (fun i => setReg c.lanes[i] reg (f i)) := by rw [hd]
    refine ⟨⟨by rw [hd], fun i => ?_⟩, by rw [hd]⟩
    have : d.lanes[i] = setReg c.lanes[i] reg (f i) := by simp [hl]
    rw [this]
    refine ⟨by rw [regOf_setReg]; simp, fun r hr => by rw [regOf_setReg]; simp [hr], (setReg_af ..).1, (setReg_af ..).2⟩
  cases slot
  · apply key
    have := h.resolve_left (by simp)
    simp [loadReg, this]
  · apply key; simp [loadReg]

end Sys2Proof.Machine
end

