-- ==== Sys2Proof/Laws/Gultin.lean ====
section
/-! SUPPORT. What a Gultin request in its turn does, step by step: from the header to its checks, and what an acknowledgement
leaves. -/

namespace Sys2Proof.Machine

variable (s : State)

/-! ## The sender's address -/

theorem session_setSession (n m : Nat) (v : Session) : session (setSession s n v) m = if m = n then v else session s m :=
  Sparse.get_put

@[simp] theorem session_setSession_self (n : Nat) (v : Session) : session (setSession s n v) n = v := by simp [session_setSession]

/-- A message leaves the sender's address, and the slot of its tag, nothing else. -/
theorem touch_fields (n : Nat) (e : Envelope) :
    touch s n e = { s with obj := (touch s n e).obj, ctl := { s.ctl with sessions := (touch s n e).ctl.sessions } } := by
  unfold touch
  simp only [setSession]
  rfl

theorem getO_touch {n k : Nat} (e : Envelope) (h1 : k ≠ Obj.sess.peerAddress (n - 1)) (h2 : k ≠ Obj.sess.peerPort (n - 1)) :
    getO (touch s n e) k = getO s k := by
  unfold touch
  simp only [setSession, setMany_cons, setMany_nil]
  show getO (setO (setO s _ _) _ _) k = _
  rw [getO_setO_ne _ _ h2, getO_setO_ne _ _ h1]

theorem natO_touch {n k : Nat} (e : Envelope) (h1 : k ≠ Obj.sess.peerAddress (n - 1)) (h2 : k ≠ Obj.sess.peerPort (n - 1)) :
    natO (touch s n e) k = natO s k := by simp [natO, getO_touch s e h1 h2]

/-- Objects outside 1110h are not touched. -/
theorem getO_touch_ne {n k : Nat} (e : Envelope) (h : keyIndex k ≠ 0x1110) (hn : n ≤ 65536) : getO (touch s n e) k = getO s k := by
  apply getO_touch
  · rintro rfl; exact h (keyIndex_okey _ _ _ (by omega) (by decide))
  · rintro rfl; exact h (keyIndex_okey _ _ _ (by omega) (by decide))

theorem touch_session (n : Nat) (e : Envelope) :
    (session (touch s n e) n).results = (session s n).results ∧ (session (touch s n e) n).held = (session s n).held
      ∧ (session (touch s n e) n).skipped = (session s n).skipped := by
  unfold touch
  simp only [session_setSession_self]
  split <;> exact ⟨rfl, rfl, rfl⟩

/-! ## A request in its turn -/

/-- A request that the units of a pair do not pass to each other. -/
theorem passOn_kept {e : Envelope} {r : Request} (h : InOrder s e r) (hr : reqSequenced r = true) : passOn s e r = s := by
  have h4 : (reqCode r == 4) = false := by
    cases hc : reqCode r == 4 with
    | false => rfl
    | true => simp [reqSequenced, beq_iff_eq.mp hc] at hr
  unfold passOn
  rcases h.unpassed with hp | hp
  · simp [hp]
  · simp [hp, h4]

/-- With no answer recorded or on its way to the next sequence number, that number is the turn. -/
theorem turn_eq {n q : Nat} (hr : (session s n).results.any (fun x => x.sequence == q) = false) (ha : answering s n q = false)
    (hq : q = natO s (Obj.sess.nextSeq (n - 1))) : turn s n = q := by
  unfold turn
  rw [← hq]
  simp [turnFrom, hr, ha]

/-- A sequenced request in its turn goes from its header straight to check 5. -/
theorem gultin_inOrder {e : Envelope} {r : Request} (h : InOrder s e r) (hr : reqSequenced r = true) :
    gultin s e r = execute (touch s e.session e) e r := by
  have ho : sessionOpen s e.session = true := by
    simp [sessionOpen, h.session.1, h.session.2, h.opened]
  have hg : gultin s e r = sequenced (touch s e.session e) e r := by
    unfold gultin
    have h2 : ¬ stageOf s < 2 := by have := h.stage; omega
    have hp := passOn_kept s h hr
    simp only [h2, h.served, h.heard, h.header, h.tag, hp, decide_false, Bool.or_false, Bool.false_eq_true, if_false,
      Bool.not_true, ho]
    cases r <;> first | rfl | simp [reqSequenced, reqCode] at hr
  rw [hg]
  have hs := touch_session s e.session e
  have hn : natO (touch s e.session e) (Obj.sess.nextSeq (e.session - 1)) = natO s (Obj.sess.nextSeq (e.session - 1)) := by
    have hb : e.session - 1 < 65536 := by have := h.session; omega
    apply natO_touch
    · intro hk; exact absurd ((okey_inj hb (by decide) hb (by decide)).mp hk).2.2 (by decide)
    · intro hk; exact absurd ((okey_inj hb (by decide) hb (by decide)).mp hk).2.2 (by decide)
  have hi : inHand (touch s e.session e) e = false := by
    have := h.alone
    unfold inHand at this ⊢
    rw [hs.2.1, touch_fields]
    exact this
  have hu : (session s e.session).results.any (fun x => x.sequence == e.sequence) = false := by
    have := h.unanswered
    simp only [List.any_eq_false] at this ⊢
    intro x hx hxe
    refine this x hx ?_
    simp at hxe ⊢; omega
  have ha : answering (touch s e.session e) e.session e.sequence = false := by
    unfold inHand at hi
    exact (Bool.or_eq_false_iff.mp hi).2
  have ht : turn (touch s e.session e) e.session = e.sequence :=
    turn_eq _ (by rw [hs.1]; exact hu) ha (by rw [hn]; exact h.turn)
  unfold sequenced
  simp only [hi, hn, ht, hs.1, hs.2.1, hs.2.2, hu, h.unskipped, h.nothing, ← h.turn]
  simp <;> (intro; omega)

/-- Check 5 and the active unit: a lone engine carries a request out itself. -/
theorem paused_touch (n : Nat) (e : Envelope) : paused (touch s n e) = paused s := by rw [touch_fields]; rfl

theorem pairEnable_touch (n : Nat) (e : Envelope) : (touch s n e).rst.pairEnable = s.rst.pairEnable := by rw [touch_fields]

theorem decidedByActive_touch {n : Nat} (e : Envelope) (r : Request) (hn : n ≤ 65536) :
    decidedByActive (touch s n e) r = decidedByActive s r := by
  have h1 : getO (touch s n e) Obj.pair.role = getO s Obj.pair.role := getO_touch_ne s e (by decide) hn
  have h2 : getO (touch s n e) Obj.pair.state = getO s Obj.pair.state := getO_touch_ne s e (by decide) hn
  have h3 : (touch s n e).pair = s.pair := by rw [touch_fields]
  unfold decidedByActive isStandby isActive isForce pairState natO
  rw [h1, h2, h3, pairEnable_touch]

theorem decidedByActive_lone (r : Request) (h : s.rst.pairEnable = false) : decidedByActive s r = false := by
  simp [decidedByActive, isStandby, h]

/-- A sequenced request in its turn is carried out. -/
theorem execute_inOrder {e : Envelope} {r : Request} (h : InOrder s e r) :
    paused (touch s e.session e) = false ∧ decidedByActive (touch s e.session e) r = false := by
  refine ⟨by rw [paused_touch]; exact h.running, ?_⟩
  rw [decidedByActive_touch s e r (by have := h.session; omega)]
  exact h.decides

/-- A WRITE in its turn. -/
theorem write_inOrder {e : Envelope} {i sub : Nat} {w : WriteBody} (h : InOrder s e (.write i sub w)) :
    gultin s e (.write i sub w) = doWrite (touch s e.session e) e i sub w := by
  rw [gultin_inOrder s h rfl]
  unfold execute
  simp [execute_inOrder s h]

theorem nameUnit_lone (e : Envelope) (r : Request) (h : s.rst.pairEnable = false) : nameUnit s e r = r := by
  unfold nameUnit
  split <;> simp [h]

theorem nameUnit_touch (n : Nat) (e : Envelope) (r : Request) : nameUnit (touch s n e) e r = nameUnit s e r := by
  rw [touch_fields]; rfl

/-- A WRITE that its checks accept is journaled, takes its effect and is acknowledged. -/
theorem write_ok {e : Envelope} {i sub f : Nat} {w : WriteBody} (h : InOrder s e (.write i sub w))
    (hu : nameUnit s e (.write i sub w) = .write i sub w)
    (hc : writeCheck (touch s e.session e) e.session i sub w (e.flags.getLsbD 1) = .ok f) :
    gultin s e (.write i sub w)
      = acknowledge (journalAndDo (touch s e.session e) e.session e.sequence (.write i sub w) f (e.flags.getLsbD 1)) e (.write i sub w) f true := by
  rw [write_inOrder s h]
  unfold doWrite
  rw [nameUnit_touch, hu]
  simp only [hc, conclude]

/-! ## Answers of a lone engine -/

theorem forwarded_false {e : Envelope} {r : Request} (h : headerBad e r = false) : forwarded e = false := by
  unfold headerBad at h
  simp only [Bool.or_eq_false_iff] at h
  have hf : e.flags &&& 0xFFFC = 0 := by simpa using h.1.1.1.1.1.1.1.1.2
  unfold forwarded
  have : (e.flags &&& 0xFFFC).getLsbD 14 = false := by rw [hf]; rfl
  simpa [BitVec.getLsbD_and] using this

/-! ## Accepted writes -/

theorem getO_journalAdd {n q f k : Nat} {r : Request} (h : k ≠ Obj.jrn.highWater) : getO (journalAdd s n q f r) k = getO s k := by
  unfold journalAdd
  exact getO_setO_ne _ _ h

theorem declAt_journalAdd (n q f : Nat) (r : Request) (i e b : Nat) : declAt (journalAdd s n q f r) i e b = declAt s i e b := by
  have hs : getO (journalAdd s n q f r) (Obj.eddy.state e) = getO s (Obj.eddy.state e) :=
    getO_journalAdd s (by unfold Obj.eddy.state Obj.jrn.highWater okey; omega)
  have ht : natO (journalAdd s n q f r) (Obj.eddy.taps e) = natO s (Obj.eddy.taps e) := by
    unfold natO
    rw [getO_journalAdd s (by unfold Obj.eddy.taps Obj.jrn.highWater okey; omega)]
  unfold declAt
  rw [hs, ht]
  rfl

theorem declFor_journalAdd (n q f : Nat) (r : Request) (i e b : Nat) : declFor (journalAdd s n q f r) i e b = declFor s i e b := by
  unfold declFor
  rw [declAt_journalAdd]
  rfl

/-- An accepted number of a CONTROL object takes effect at once, its entry retires, and it is acknowledged. -/
theorem write_accepted {e : Envelope} {i sub : Nat} {w : WriteBody} {v : Int} (h : AcceptedWrite s e i sub w v) :
    gultin s e (.write i sub w)
      = acknowledge (retireEntry (applyNum (atRequest s e (.write i sub w)) s.frame (okey i w.element sub) v false) e.session e.sequence)
          e (.write i sub w) s.frame true := by
  obtain ⟨d, hd, hsz, he, hv⟩ := h.object
  rw [write_ok s h.order h.named h.checks]
  unfold journalAndDo
  have hstay : staysOpen (touch s e.session e) e.session (.write i sub w) (e.flags.getLsbD 1) = false := by
    simp [staysOpen, hd, he]
  have hfr : (journalAdd (touch s e.session e) e.session e.sequence s.frame (.write i sub w)).frame = s.frame := by
    rw [touch_fields]; rfl
  simp only [hstay, effectOf, writeEffect, declFor_journalAdd, hd, hsz, hv, placeValue, he, applyChange, atRequest, inJournal, hfr, if_false,
    Bool.false_eq_true]

/-- An accepted BLOB of one segment. -/
theorem blob_accepted {e : Envelope} {i sub : Nat} {w : WriteBody} (h : AcceptedBlob s e i sub w) :
    gultin s e (.write i sub w)
      = acknowledge (retireEntry (applyBlob (dropSeries (atRequest s e (.write i sub w)) (okey i w.element sub)) s.frame
            (okey i w.element sub) w.value) e.session e.sequence) e (.write i sub w) s.frame true := by
  obtain ⟨d, hd, hsz, he⟩ := h.object
  rw [write_ok s h.order h.named (f := s.frame) (by rw [h.whole.1]; exact h.checks)]
  unfold journalAndDo
  have hstay : staysOpen (touch s e.session e) e.session (.write i sub w) (e.flags.getLsbD 1) = false := by
    simp [staysOpen, hd, he]
  have hfr : (journalAdd (touch s e.session e) e.session e.sequence s.frame (.write i sub w)).frame = s.frame := by
    rw [touch_fields]; rfl
  have hc : continued (journalAdd (touch s e.session e) e.session e.sequence s.frame (.write i sub w)) (okey i w.element sub) w
      = some w.value := by
    have : seriesOf (journalAdd (touch s e.session e) e.session e.sequence s.frame (.write i sub w)) (okey i w.element sub) = none := by
      rw [touch_fields]; exact h.fresh
    simp [continued, this, h.whole.2]
  rw [h.whole.1] at hstay ⊢
  have hfr2 (l : List Series) : { journalAdd (touch s e.session e) e.session e.sequence s.frame (.write i sub w) with
      ctl := { (journalAdd (touch s e.session e) e.session e.sequence s.frame (.write i sub w)).ctl with series := l } : State }.frame
      = s.frame := hfr
  simp only [hstay, effectOf, writeEffect, declFor_journalAdd, hd, hsz, hc, placeValue, he, applyChange, atRequest, inJournal, if_true,
    Option.getD_some, dropSeries, Bool.false_eq_true, if_false, hfr2]

end Sys2Proof.Machine
end

