-- ==== Sys2Proof/Laws/Memory.lean ====
section
/-! SUPPORT. The byte memories: a read after a write, and the canonical form that every write keeps. -/

namespace Sys2Proof.Machine

variable (s : State)

/-! ## Reading after writing -/

theorem get_append_of_get {α : Type} (d : Nat → α) (a b : List (Nat × α)) (k : Nat) (h : ∀ e ∈ a, e.1 ≠ k) :
    Sparse.get d (a ++ b) k = Sparse.get d b k := by
  induction a with
  | nil => rfl
  | cons e r ih =>
    have he := h e (List.mem_cons_self ..)
    simp [Sparse.get, he, ih (fun x hx => h x (List.mem_cons_of_mem _ hx))]

theorem get_filter {α : Type} (d : Nat → α) (p : Nat × α → Bool) (k : Nat) (h : ∀ v, p (k, v) = true) :
    ∀ m : List (Nat × α), Sparse.get d (m.filter p) k = Sparse.get d m k
  | [] => rfl
  | (j, v) :: r => by
    have ih := get_filter d p k h r
    by_cases hj : j = k
    · subst hj; simp [h, Sparse.get]
    · by_cases hp : p (j, v) = true
      · simp [hp, Sparse.get, hj, ih]
      · simp [hp, Sparse.get, hj, ih]

theorem get_append_left {α : Type} (d : Nat → α) (a b : List (Nat × α)) (k : Nat) (h : ∀ e ∈ b, e.1 ≠ k) :
    Sparse.get d (a ++ b) k = Sparse.get d a k := by
  induction a with
  | nil =>
    have := get_append_of_get d b [] k h
    simpa using this
  | cons e r ih => simp [Sparse.get, ih]

/-- A byte outside the range written reads as before. -/
theorem byteGet_bytesPut_outside (m : Sparse Byte) (a : Nat) (b : List Byte) {k : Nat} (h : k < a ∨ a + b.length ≤ k) :
    byteGet (bytesPut m a b) k = byteGet m k := by
  unfold byteGet bytesPut Sparse.putMany
  have hrun : ∀ e ∈ Sparse.run (fun _ => (0 : Byte)) a b, e.1 ≠ k := by
    have key : ∀ (l : List Byte) (a : Nat), (k < a ∨ a + l.length ≤ k) → ∀ e ∈ Sparse.run (fun _ => (0 : Byte)) a l, e.1 ≠ k := by
      intro l
      induction l with
      | nil => intro a _ e he; cases he
      | cons v r ih =>
        intro a ha e he
        have hr := ih (a + 1) (by simp only [List.length_cons] at ha; omega) e
        unfold Sparse.run at he
        split at he
        · exact hr he
        · rcases List.mem_cons.1 he with rfl | he
          · simp only [List.length_cons] at ha
            show a ≠ k
            omega
          · exact hr he
    exact key b a h
  rcases h with h | h
  · rw [List.append_assoc, get_append_left, get_filter]
    · intro v; simpa using h
    · intro e he
      rcases List.mem_append.1 he with he | he
      · exact hrun e he
      · have := (List.mem_filter.1 he).2
        simp only [decide_eq_true_eq] at this
        omega
  · rw [List.append_assoc, get_append_of_get, get_append_of_get _ _ _ _ hrun, get_filter]
    · intro v; simpa using h
    · intro e he
      have := (List.mem_filter.1 he).2
      simp only [decide_eq_true_eq] at this
      omega

/-! ## The canonical form -/

theorem Memory.wf_reset : Memory.wf Machine.State.reset.bus = true := rfl

theorem Memory.wf_iff (b : Bus) : Memory.wf b = true ↔
    Sparse.wf (fun _ => (0 : Byte)) b.hbm = true ∧ Sparse.wf (fun _ => (0 : Byte)) b.sram = true
      ∧ Sparse.wf (fun _ => (0 : Byte)) b.aon = true ∧ Sparse.wf (fun _ => (0 : Byte)) b.flash = true
      ∧ Sparse.wf (fun _ => (0 : Byte)) b.otp = true := by
  simp [Memory.wf, and_assoc]

theorem Memory.wf_flashPut (a : Nat) (b : List Byte) (h : Memory.wf s.bus = true) : Memory.wf (flashPut s a b).bus = true := by
  rw [Memory.wf_iff] at h ⊢
  exact ⟨h.1, h.2.1, h.2.2.1, Sparse.wf_putMany h.2.2.2.1, h.2.2.2.2⟩

/-- A word of a ring lies in no byte memory. -/
theorem ringPut_bus (r : Nat × Nat) (w : Word) : (ringPut s r w).bus = s.bus := by
  unfold ringPut
  split
  · dsimp only; split <;> rfl
  · rfl

/-- Nor does a word of cluster memory. -/
theorem Memory.wf_putClusterWord (c w : Nat) (x : Word) (h : Memory.wf s.bus = true) : Memory.wf (putClusterWord s c w x).bus = true := by
  unfold putClusterWord
  split
  · rw [ringPut_bus]; exact h
  · exact h

/-- A byte written through the bus keeps the canonical form. -/
theorem Memory.wf_areaPut (a : Area) (off : Nat) (v : Byte) (h : Memory.wf s.bus = true) : Memory.wf (areaPut s a off v).bus = true := by
  rw [Memory.wf_iff] at h ⊢
  cases a with
  | sram => exact ⟨h.1, Sparse.wf_put h.2.1, h.2.2.1, h.2.2.2.1, h.2.2.2.2⟩
  | aon => exact ⟨h.1, h.2.1, Sparse.wf_put h.2.2.1, h.2.2.2.1, h.2.2.2.2⟩
  | hbm =>
    simp only [areaPut]
    cases bufferAt s (0x800000000 + off) with
    | some e => exact h
    | none =>
      cases ringInHbm s (0x800000000 + off) with
      | some r => rw [ringPut_bus]; exact h
      | none => exact ⟨Sparse.wf_put h.1, h.2.1, h.2.2.1, h.2.2.2.1, h.2.2.2.2⟩
  | rom => exact h
  | cluster => exact (Memory.wf_iff _).mp (Memory.wf_putClusterWord s _ _ _ ((Memory.wf_iff _).mpr h))
  | cells => exact h
  | regs => exact h
  | otp => exact h
  | qspi => exact h

theorem Memory.wf_areaPutMany (a : Area) (b : List Byte) : ∀ (s : State) (off : Nat), Memory.wf s.bus = true →
    Memory.wf (areaPutMany s a off b).bus = true := by
  induction b with
  | nil => exact fun _ _ h => h
  | cons v r ih => exact fun s off h => ih _ _ (Memory.wf_areaPut s a off v h)

theorem Memory.wf_programOption (b : List Byte) (h : Memory.wf s.bus = true) : Memory.wf (programOption s b).bus = true := by
  unfold programOption
  split
  · exact h
  · rw [Memory.wf_iff] at h ⊢
    exact ⟨h.1, h.2.1, h.2.2.1, h.2.2.2.1, Sparse.wf_putMany h.2.2.2.2⟩

theorem Memory.wf_burnKey (b : List Byte) (h : Memory.wf s.bus = true) : Memory.wf (burnKey s b).bus = true := by
  rw [Memory.wf_iff] at h ⊢
  exact ⟨h.1, h.2.1, h.2.2.1, h.2.2.2.1, Sparse.wf_putMany h.2.2.2.2⟩

/-- A reset clears the volatile memories or leaves them, and keeps the flash, the OTP and the backup SRAM. -/
theorem Memory.wf_wipe (cold : Bool) (h : Memory.wf s.bus = true) : Memory.wf (wipe s cold).bus = true := by
  have hd : (dormantAll s).bus = s.bus := by
    have key : ∀ (l : List Nat) (s : State),
        (l.foldl (fun s n => if sessState s n = 1 ∨ sessState s n = 2 then dormantSession s n else s) s).bus = s.bus := by
      intro l
      induction l with
      | nil => intro s; rfl
      | cons n r ih =>
        intro s
        rw [List.foldl_cons, ih]
        split <;> rfl
    exact key _ _
  rw [Memory.wf_iff] at h ⊢
  have hs : (wipe s cold).bus
      = { Bus.reset with
          hbm := if cold then [] else (dormantAll s).bus.hbm
          aon := (dormantAll s).bus.aon, flash := (dormantAll s).bus.flash, otp := (dormantAll s).bus.otp } := by
    cases cold <;> unfold wipe
    · rw [if_neg Bool.false_ne_true]
      dsimp only
      rw [setMany_bus, setO_bus]
    · rfl
  rw [hd] at hs
  rw [hs]
  refine ⟨?_, rfl, h.2.2⟩
  cases cold
  · exact h.1
  · rfl

end Sys2Proof.Machine
end

