-- ==== Sys2Proof/Laws/PerInstr.lean ====
section
/-! SUPPORT. The operands of each command: a well-formed command is one that fails no check, no check is named twice for a
command, and a command of a cell names one of the 128 cells. One lemma per constructor. -/

namespace Sys2Proof.Laws.Operands

open Sys2Proof Sys2Proof.Machine

/-- What holds of the operands of every command. -/
def Statement (i : Instr) : Prop :=
  i.failures.Nodup ∧ (i.wellFormed = true ↔ i.failures = []) ∧ ∀ n, cellCommand i = some n → n < 128

theorem ofChecks {i : Instr} (h : (i.checks.map (·.1)).Nodup) (hc : ∀ n, cellCommand i = some n → n < 128) : Statement i := by
  refine ⟨List.Nodup.sublist (List.Sublist.map _ List.filter_sublist) h, ?_, hc⟩
  simp [Instr.wellFormed, Instr.failures, List.filter_eq_nil_iff]

theorem ofOther {i : Instr} (h : decide (i.checks.map (·.1)).Nodup = true) (hc : cellCommand i = none) : Statement i :=
  ofChecks (of_decide_eq_true h) (fun n hn => by rw [hc] at hn; cases hn)

theorem ofCell {i : Instr} (c : Fin 128) (h : decide (i.checks.map (·.1)).Nodup = true)
    (hc : cellCommand i = some c.val) : Statement i :=
  ofChecks (of_decide_eq_true h) (fun n hn => by rw [hc] at hn; cases hn; exact c.isLt)

theorem hello (x0 : Envelope) (x1 : HelloBody) : Statement (.hello x0 x1) := ofOther rfl rfl
theorem claim (x0 : Envelope) (x1 : ClaimBody) : Statement (.claim x0 x1) := ofOther rfl rfl
theorem yield (x0 : Envelope) (x1 : Nat) : Statement (.yield x0 x1) := ofOther rfl rfl
theorem heartbeat (x0 : Envelope) (x1 : Nat) : Statement (.heartbeat x0 x1) := ofOther rfl rfl
theorem read (x0 : Envelope) (x1 : ReadBody) : Statement (.read x0 x1) := ofOther rfl rfl
theorem write (x0 : Envelope) (x1 : Nat) (x2 : Nat) (x3 : WriteBody) : Statement (.write x0 x1 x2 x3) := ofOther rfl rfl
theorem groupBegin (x0 : Envelope) (x1 : BeginBody) : Statement (.groupBegin x0 x1) := ofOther rfl rfl
theorem groupCommit (x0 : Envelope) (x1 : CommitBody) : Statement (.groupCommit x0 x1) := ofOther rfl rfl
theorem subscribe (x0 : Envelope) (x1 : SubscribeBody) : Statement (.subscribe x0 x1) := ofOther rfl rfl
theorem resume (x0 : Envelope) (x1 : Nat) : Statement (.resume x0 x1) := ofOther rfl rfl
theorem sequenceGapTimeout (x0 : Fin 32) : Statement (.sequenceGapTimeout x0) := ofOther rfl rfl
theorem blobSeriesTimeout (x0 : Fin 32) (x1 : Nat) (x2 : Nat) (x3 : Nat) : Statement (.blobSeriesTimeout x0 x1 x2 x3) := ofOther rfl rfl
theorem sessionDormant (x0 : Fin 32) : Statement (.sessionDormant x0) := ofOther rfl rfl
theorem sessionFree (x0 : Fin 32) : Statement (.sessionFree x0) := ofOther rfl rfl
theorem close (x0 : Envelope) (x1 : WriteBody) : Statement (.close x0 x1) := ofOther rfl rfl
theorem claimWindowClose : Statement .claimWindowClose := ofOther rfl rfl
theorem ownerLossTimeout : Statement .ownerLossTimeout := ofOther rfl rfl
theorem subscriptionPeriod (x0 : Fin 32) (x1 : Nat) : Statement (.subscriptionPeriod x0 x1) := ofOther rfl rfl
theorem journalConfirmTimeout (x0 : Fin 32) (x1 : Nat) : Statement (.journalConfirmTimeout x0 x1) := ofOther rfl rfl
theorem journalReplay : Statement .journalReplay := ofOther rfl rfl
theorem persistSave (x0 : Nat) (x1 : Nat) (x2 : Nat) : Statement (.persistSave x0 x1 x2) := ofOther rfl rfl
theorem nop (x0 : Fin 128) (x1 : Pred) : Statement (.nop x0 x1) := ofCell x0 rfl rfl
theorem mac (x0 : Fin 128) (x1 : Pred) (x2 : Fin 8) (x3 : Fin 4) (x4 : Fin 4) (x5 : Fin 4) (x6 : Bool) :
    Statement (.mac x0 x1 x2 x3 x4 x5 x6) := ofCell x0 rfl rfl
theorem msu (x0 : Fin 128) (x1 : Pred) (x2 : Fin 8) (x3 : Fin 4) (x4 : Fin 4) (x5 : Fin 4) (x6 : Bool) :
    Statement (.msu x0 x1 x2 x3 x4 x5 x6) := ofCell x0 rfl rfl
theorem mpy (x0 : Fin 128) (x1 : Pred) (x2 : Fin 8) (x3 : Fin 4) (x4 : Fin 4) (x5 : Fin 4) (x6 : Bool) (x7 : Bool) :
    Statement (.mpy x0 x1 x2 x3 x4 x5 x6 x7) := ofCell x0 rfl rfl
theorem sqa (x0 : Fin 128) (x1 : Pred) (x2 : Fin 8) (x3 : Fin 4) : Statement (.sqa x0 x1 x2 x3) := ofCell x0 rfl rfl
theorem acc (x0 : Fin 128) (x1 : Pred) (x2 : Fin 8) (x3 : Fin 4) (x4 : Bool) (x5 : Bool) (x6 : Bool) (x7 : Fin 4) :
    Statement (.acc x0 x1 x2 x3 x4 x5 x6 x7) := ofCell x0 rfl rfl
theorem ext (x0 : Fin 128) (x1 : Pred) (x2 : Fin 8) (x3 : Fin 4) (x4 : Fin 16) : Statement (.ext x0 x1 x2 x3 x4) := ofCell x0 rfl rfl
theorem exw (x0 : Fin 128) (x1 : Pred) (x2 : Fin 8) (x3 : Fin 2) (x4 : Fin 4) : Statement (.exw x0 x1 x2 x3 x4) := ofCell x0 rfl rfl
theorem max (x0 : Fin 128) (x1 : Pred) (x2 : Fin 4) (x3 : Fin 4) (x4 : Fin 4) : Statement (.max x0 x1 x2 x3 x4) := ofCell x0 rfl rfl
theorem min (x0 : Fin 128) (x1 : Pred) (x2 : Fin 4) (x3 : Fin 4) (x4 : Fin 4) : Statement (.min x0 x1 x2 x3 x4) := ofCell x0 rfl rfl
theorem abs (x0 : Fin 128) (x1 : Pred) (x2 : Fin 4) (x3 : Fin 4) : Statement (.abs x0 x1 x2 x3) := ofCell x0 rfl rfl
theorem cmp (x0 : Fin 128) (x1 : Pred) (x2 : Fin 4) (x3 : Fin 4) (x4 : Fin 4) (x5 : Fin 4) :
    Statement (.cmp x0 x1 x2 x3 x4 x5) := ofCell x0 rfl rfl
theorem sel (x0 : Fin 128) (x1 : Pred) (x2 : Fin 4) (x3 : Fin 4) (x4 : Fin 4) (x5 : Fin 4) :
    Statement (.sel x0 x1 x2 x3 x4 x5) := ofCell x0 rfl rfl
theorem shf (x0 : Fin 128) (x1 : Pred) (x2 : Fin 4) (x3 : Fin 4) (x4 : BitVec 5) : Statement (.shf x0 x1 x2 x3 x4) := ofCell x0 rfl rfl
theorem shuf (x0 : Fin 128) (x1 : Pred) (x2 : Fin 4) (x3 : Fin 4) (x4 : Fin 8) : Statement (.shuf x0 x1 x2 x3 x4) := ofCell x0 rfl rfl
theorem bcast (x0 : Fin 128) (x1 : Pred) (x2 : Fin 4) (x3 : Fin 4) (x4 : Fin 8) : Statement (.bcast x0 x1 x2 x3 x4) := ofCell x0 rfl rfl
theorem log2 (x0 : Fin 128) (x1 : Pred) (x2 : Fin 4) (x3 : Fin 4) : Statement (.log2 x0 x1 x2 x3) := ofCell x0 rfl rfl
theorem exp2 (x0 : Fin 128) (x1 : Pred) (x2 : Fin 4) (x3 : Fin 4) : Statement (.exp2 x0 x1 x2 x3) := ofCell x0 rfl rfl
theorem zxg (x0 : Fin 128) (x1 : Pred) (x2 : Fin 8) (x3 : Fin 4) (x4 : Fin 4) (x5 : Bool) (x6 : Fin 4) (x7 : Bool) :
    Statement (.zxg x0 x1 x2 x3 x4 x5 x6 x7) := ofCell x0 rfl rfl
theorem mov (x0 : Fin 128) (x1 : Pred) (x2 : Fin 8) (x3 : Fin 8) : Statement (.mov x0 x1 x2 x3) := ofCell x0 rfl rfl
theorem ldv (x0 : Fin 128) (x1 : SlotId) (x2 : Fin 8) (x3 : Fin 4) (x4 : LoadDest) :
    Statement (.ldv x0 x1 x2 x3 x4) := ofCell x0 rfl rfl
theorem ldb (x0 : Fin 128) (x1 : SlotId) (x2 : Fin 8) (x3 : Fin 4) (x4 : LoadDest) :
    Statement (.ldb x0 x1 x2 x3 x4) := ofCell x0 rfl rfl
theorem stv (x0 : Fin 128) (x1 : SlotId) (x2 : Fin 8) (x3 : Fin 4) (x4 : Fin 8) (x5 : Bool) (x6 : Pred) :
    Statement (.stv x0 x1 x2 x3 x4 x5 x6) := ofCell x0 rfl rfl
theorem stl (x0 : Fin 128) (x1 : SlotId) (x2 : Fin 8) (x3 : Fin 4) (x4 : Fin 8) (x5 : Fin 8) :
    Statement (.stl x0 x1 x2 x3 x4 x5) := ofCell x0 rfl rfl
theorem ldp (x0 : Fin 128) (x1 : SlotId) (x2 : Fin 8) (x3 : Fin 4) (x4 : LdpKind) (x5 : LoadDest) :
    Statement (.ldp x0 x1 x2 x3 x4 x5) := ofCell x0 rfl rfl
theorem yieldSlot (x0 : Fin 128) (x1 : SlotId) : Statement (.yieldSlot x0 x1) := ofCell x0 rfl rfl
theorem doLoop (x0 : Fin 128) (x1 : Fin 1024) : Statement (.doLoop x0 x1) := ofCell x0 rfl rfl
theorem endLoop (x0 : Fin 128) (x1 : Fin 4) : Statement (.endLoop x0 x1) := ofCell x0 rfl rfl
theorem frameEnd (x0 : Fin 128) : Statement (.frameEnd x0) := ofCell x0 rfl rfl
theorem cellStatusClear (x0 : Envelope) (x1 : Fin 8) (x2 : WriteBody) : Statement (.cellStatusClear x0 x1 x2) := ofOther rfl rfl
theorem frameTick : Statement .frameTick := ofOther rfl rfl
theorem zxTimeout (x0 : Nat) : Statement (.zxTimeout x0) := ofOther rfl rfl
theorem meterPeriod : Statement .meterPeriod := ofOther rfl rfl
theorem directApply : Statement .directApply := ofOther rfl rfl
theorem tdmFrame (x0 : Fin 4) (x1 : List (Nat × Int)) (x2 : Option Int) : Statement (.tdmFrame x0 x1 x2) := ofOther rfl rfl
theorem eddyFetchDone (x0 : Nat) (x1 : Fin 16) : Statement (.eddyFetchDone x0 x1) := ofOther rfl rfl
theorem eddyFetchDeadline (x0 : Nat) (x1 : Fin 16) : Statement (.eddyFetchDeadline x0 x1) := ofOther rfl rfl
theorem eddyCopyDone (x0 : Nat) : Statement (.eddyCopyDone x0) := ofOther rfl rfl
theorem storeLength (x0 : Envelope) (x1 : WriteBody) : Statement (.storeLength x0 x1) := ofOther rfl rfl
theorem storeChunk (x0 : Envelope) (x1 : WriteBody) : Statement (.storeChunk x0 x1) := ofOther rfl rfl
theorem verify (x0 : Envelope) (x1 : WriteBody) : Statement (.verify x0 x1) := ofOther rfl rfl
theorem verifyDone : Statement .verifyDone := ofOther rfl rfl
theorem groupDiscard (x0 : Envelope) (x1 : WriteBody) : Statement (.groupDiscard x0 x1) := ofOther rfl rfl
theorem preparationDone (x0 : Nat) : Statement (.preparationDone x0) := ofOther rfl rfl
theorem commitTest (x0 : Nat) (x1 : Bool) : Statement (.commitTest x0 x1) := ofOther rfl rfl
theorem groupApply (x0 : Nat) : Statement (.groupApply x0) := ofOther rfl rfl
theorem subgroupTest (x0 : Nat) (x1 : Bool) : Statement (.subgroupTest x0 x1) := ofOther rfl rfl
theorem subgroupApply (x0 : Nat) : Statement (.subgroupApply x0) := ofOther rfl rfl
theorem heldGroupTimeout : Statement .heldGroupTimeout := ofOther rfl rfl
theorem prepare (x0 : BraidFrame) : Statement (.prepare x0) := ofOther rfl rfl
theorem ready (x0 : BraidFrame) : Statement (.ready x0) := ofOther rfl rfl
theorem refuse (x0 : BraidFrame) : Statement (.refuse x0) := ofOther rfl rfl
theorem go (x0 : BraidFrame) : Statement (.go x0) := ofOther rfl rfl
theorem abort (x0 : BraidFrame) : Statement (.abort x0) := ofOther rfl rfl
theorem fedDecisionDeadline : Statement .fedDecisionDeadline := ofOther rfl rfl
theorem fedGoMissing : Statement .fedGoMissing := ofOther rfl rfl
theorem arrayBlock (x0 : BraidFrame) : Statement (.arrayBlock x0) := ofOther rfl rfl
theorem subbandAvailable : Statement .subbandAvailable := ofOther rfl rfl
theorem snapshotReady (x0 : List Nat) : Statement (.snapshotReady x0) := ofOther rfl rfl
theorem weightFetchLate (x0 : Fin 256) : Statement (.weightFetchLate x0) := ofOther rfl rfl
theorem mapComplete : Statement .mapComplete := ofOther rfl rfl
theorem stageChunk (x0 : Envelope) (x1 : WriteBody) : Statement (.stageChunk x0 x1) := ofOther rfl rfl
theorem detectPoll (x0 : Fin 6) (x1 : Bool) : Statement (.detectPoll x0 x1) := ofOther rfl rfl
theorem fcReceived (x0 : Fin 6) : Statement (.fcReceived x0) := ofOther rfl rfl
theorem fcLost (x0 : Fin 6) : Statement (.fcLost x0) := ofOther rfl rfl
theorem blockLockAcquired (x0 : Fin 6) (x1 : Fin 9) : Statement (.blockLockAcquired x0 x1) := ofOther rfl rfl
theorem blockLockLost (x0 : Fin 6) (x1 : Fin 9) (x2 : Nat) : Statement (.blockLockLost x0 x1 x2) := ofOther rfl rfl
theorem marker (x0 : Fin 6) (x1 : Fin 9) (x2 : MarkerBlock) : Statement (.marker x0 x1 x2) := ofOther rfl rfl
theorem pilot (x0 : Fin 6) (x1 : Fin 9) (x2 : Fin 16) (x3 : PilotBits) :
    Statement (.pilot x0 x1 x2 x3) := ofOther rfl rfl
theorem train (x0 : Fin 6) (x1 : TrainBlock) : Statement (.train x0 x1) := ofOther rfl rfl
theorem trainStateTimeout (x0 : Fin 6) : Statement (.trainStateTimeout x0) := ofOther rfl rfl
theorem trainAttemptTimeout (x0 : Fin 6) : Statement (.trainAttemptTimeout x0) := ofOther rfl rfl
theorem backoffExpiry (x0 : Fin 6) : Statement (.backoffExpiry x0) := ofOther rfl rfl
theorem berSecond (x0 : Fin 6) (x1 : Fin 9) : Statement (.berSecond x0 x1) := ofOther rfl rfl
theorem spareReq (x0 : BraidFrame) : Statement (.spareReq x0) := ofOther rfl rfl
theorem spareCopyStart (x0 : Fin 6) : Statement (.spareCopyStart x0) := ofOther rfl rfl
theorem spareDone (x0 : BraidFrame) : Statement (.spareDone x0) := ofOther rfl rfl
theorem spareCancel (x0 : BraidFrame) : Statement (.spareCancel x0) := ofOther rfl rfl
theorem tune (x0 : BraidFrame) : Statement (.tune x0) := ofOther rfl rfl
theorem laneRetrainDone (x0 : Fin 6) (x1 : Fin 9) : Statement (.laneRetrainDone x0 x1) := ofOther rfl rfl
theorem laneRetrainTimeout (x0 : Fin 6) (x1 : Fin 9) : Statement (.laneRetrainTimeout x0 x1) := ofOther rfl rfl
theorem linkRetrain (x0 : Envelope) (x1 : WriteBody) : Statement (.linkRetrain x0 x1) := ofOther rfl rfl
theorem laneRetrain (x0 : Envelope) (x1 : WriteBody) : Statement (.laneRetrain x0 x1) := ofOther rfl rfl
theorem rtpPacket (x0 : Fin 2) (x1 : RtpPacket) : Statement (.rtpPacket x0 x1) := ofOther rfl rfl
theorem rxPathLoss (x0 : Fin 512) (x1 : Fin 2) : Statement (.rxPathLoss x0 x1) := ofOther rfl rfl
theorem rtpTx (x0 : Fin 512) (x1 : Bool) (x2 : Bool) : Statement (.rtpTx x0 x1 x2) := ofOther rfl rfl
theorem portLinkDown (x0 : Fin 5) : Statement (.portLinkDown x0) := ofOther rfl rfl
theorem portLinkUp (x0 : Fin 5) : Statement (.portLinkUp x0) := ofOther rfl rfl
theorem switchFrame (x0 : Fin 3) (x1 : Fin 3) (x2 : EthFrame) : Statement (.switchFrame x0 x1 x2) := ofOther rfl rfl
theorem twoStepHoldExpiry (x0 : Fin 2) (x1 : Nat) (x2 : Nat) : Statement (.twoStepHoldExpiry x0 x1 x2) := ofOther rfl rfl
theorem macAgeExpiry (x0 : Fin 2) (x1 : Nat) : Statement (.macAgeExpiry x0 x1) := ofOther rfl rfl
theorem igmpReport (x0 : Fin 2) (x1 : Fin 2) (x2 : Nat) : Statement (.igmpReport x0 x1 x2) := ofOther rfl rfl
theorem igmpQuery (x0 : Fin 2) (x1 : Fin 2) (x2 : Nat) : Statement (.igmpQuery x0 x1 x2) := ofOther rfl rfl
theorem membershipExpiry (x0 : Fin 2) (x1 : Fin 2) (x2 : Nat) : Statement (.membershipExpiry x0 x1 x2) := ofOther rfl rfl
theorem arpRequest (x0 : Fin 3) (x1 : Nat) (x2 : Nat) (x3 : Nat) : Statement (.arpRequest x0 x1 x2 x3) := ofOther rfl rfl
theorem icmpEcho (x0 : Fin 3) (x1 : Nat) (x2 : Nat) (x3 : Nat) (x4 : Nat) (x5 : List Byte) :
    Statement (.icmpEcho x0 x1 x2 x3 x4 x5) := ofOther rfl rfl
theorem ringProbeSend (x0 : Fin 2) : Statement (.ringProbeSend x0) := ofOther rfl rfl
theorem ringProbeMiss (x0 : Fin 2) : Statement (.ringProbeMiss x0) := ofOther rfl rfl
theorem ringRestore (x0 : Fin 2) : Statement (.ringRestore x0) := ofOther rfl rfl
theorem flushFrame (x0 : Fin 2) (x1 : Fin 2) : Statement (.flushFrame x0 x1) := ofOther rfl rfl
theorem sync (x0 : Fin 2) (x1 : Fin 2) (x2 : PtpMsg) : Statement (.sync x0 x1 x2) := ofOther rfl rfl
theorem followUp (x0 : Fin 2) (x1 : PtpMsg) : Statement (.followUp x0 x1) := ofOther rfl rfl
theorem announce (x0 : Fin 2) (x1 : PtpMsg) : Statement (.announce x0 x1) := ofOther rfl rfl
theorem delayReqSend (x0 : Fin 2) (x1 : ReqEgress) : Statement (.delayReqSend x0 x1) := ofOther rfl rfl
theorem delayResp (x0 : Fin 2) (x1 : PtpMsg) : Statement (.delayResp x0 x1) := ofOther rfl rfl
theorem pdelayMessage (x0 : Fin 2) (x1 : Fin 3) (x2 : PtpMsg) (x3 : Int) : Statement (.pdelayMessage x0 x1 x2 x3) := ofOther rfl rfl
theorem announceTimeout (x0 : Fin 2) : Statement (.announceTimeout x0) := ofOther rfl rfl
theorem syncTimeout (x0 : Fin 2) : Statement (.syncTimeout x0) := ofOther rfl rfl
theorem stepPendingTimeout (x0 : Fin 2) (x1 : Int) (x2 : Int) : Statement (.stepPendingTimeout x0 x1 x2) := ofOther rfl rfl
theorem asymClear (x0 : Envelope) (x1 : WriteBody) : Statement (.asymClear x0 x1) := ofOther rfl rfl
theorem refWindow (x0 : Fin 8) (x1 : Int) (x2 : Nat) (x3 : Int) : Statement (.refWindow x0 x1 x2 x3) := ofOther rfl rfl
theorem refAbsent (x0 : Fin 8) : Statement (.refAbsent x0) := ofOther rfl rfl
theorem refQualTime (x0 : Fin 8) : Statement (.refQualTime x0) := ofOther rfl rfl
theorem refWtrExpiry (x0 : Fin 8) : Statement (.refWtrExpiry x0) := ofOther rfl rfl
theorem refSwitchApply : Statement .refSwitchApply := ofOther rfl rfl
theorem pllUnlock (x0 : Int) : Statement (.pllUnlock x0) := ofOther rfl rfl
theorem pairAliveEdge (x0 : Nat) : Statement (.pairAliveEdge x0) := ofOther rfl rfl
theorem roleWatchEnd : Statement .roleWatchEnd := ofOther rfl rfl
theorem unitBRoleWait : Statement .unitBRoleWait := ofOther rfl rfl
theorem agree (x0 : AgreeFrame) : Statement (.agree x0) := ofOther rfl rfl
theorem agreeTimeout : Statement .agreeTimeout := ofOther rfl rfl
theorem fill (x0 : BraidFrame) : Statement (.fill x0) := ofOther rfl rfl
theorem tdmIn (x0 : BraidFrame) : Statement (.tdmIn x0) := ofOther rfl rfl
theorem tdmInDeadline : Statement .tdmInDeadline := ofOther rfl rfl
theorem journal (x0 : BraidFrame) (x1 : Envelope) (x2 : JournalItem) (x3 x4 : Nat) : Statement (.journal x0 x1 x2 x3 x4) := by
  cases x2 <;> exact ofOther rfl rfl
theorem journalAck (x0 : BraidFrame) : Statement (.journalAck x0) := ofOther rfl rfl
theorem gultinFwd (x0 : BraidFrame) (x1 : Envelope) (x2 : Request) : Statement (.gultinFwd x0 x1 x2) := ofOther rfl rfl
theorem resyncReq (x0 : BraidFrame) : Statement (.resyncReq x0) := ofOther rfl rfl
theorem resyncPhase (x0 : BraidFrame) : Statement (.resyncPhase x0) := ofOther rfl rfl
theorem resyncAbortMsg (x0 : BraidFrame) : Statement (.resyncAbortMsg x0) := ofOther rfl rfl
theorem versions (x0 : BraidFrame) : Statement (.versions x0) := ofOther rfl rfl
theorem handoverFrame (x0 : BraidFrame) : Statement (.handoverFrame x0) := ofOther rfl rfl
theorem pathHandover (x0 : Fin 2) : Statement (.pathHandover x0) := ofOther rfl rfl
theorem partnerResetRequest (x0 : BraidFrame) : Statement (.partnerResetRequest x0) := ofOther rfl rfl
theorem resyncData (x0 : Sys2Proof.Machine.ResyncMessage) : Statement (.resyncData x0) := ofOther rfl rfl
theorem takeover (x0 : Bool) : Statement (.takeover x0) := ofOther rfl rfl
theorem tickWatchdog : Statement .tickWatchdog := ofOther rfl rfl
theorem resync (x0 : Envelope) (x1 : WriteBody) : Statement (.resync x0 x1) := ofOther rfl rfl
theorem resyncAutoDelay : Statement .resyncAutoDelay := ofOther rfl rfl
theorem configEnd : Statement .configEnd := ofOther rfl rfl
theorem catchmentCapture : Statement .catchmentCapture := ofOther rfl rfl
theorem bulkEnd : Statement .bulkEnd := ofOther rfl rfl
theorem capture : Statement .capture := ofOther rfl rfl
theorem catchUpFrame (x0 : Nat) : Statement (.catchUpFrame x0) := ofOther rfl rfl
theorem inStep : Statement .inStep := ofOther rfl rfl
theorem resyncTimeout : Statement .resyncTimeout := ofOther rfl rfl
theorem forceActive (x0 : Envelope) (x1 : WriteBody) : Statement (.forceActive x0 x1) := ofOther rfl rfl
theorem partnerReset (x0 : Envelope) (x1 : WriteBody) : Statement (.partnerReset x0 x1) := ofOther rfl rfl
theorem fedframe (x0 : BraidFrame) : Statement (.fedframe x0) := ofOther rfl rfl
theorem fedtick (x0 : BraidFrame) (x1 : Int) : Statement (.fedtick x0 x1) := ofOther rfl rfl
theorem fedMemberLost (x0 : Fin 8) : Statement (.fedMemberLost x0) := ofOther rfl rfl
theorem fedMismatchClear (x0 : Fin 3) : Statement (.fedMismatchClear x0) := ofOther rfl rfl
theorem powerOnReset : Statement .powerOnReset := ofOther rfl rfl
theorem resetNAssert (x0 : Nat) : Statement (.resetNAssert x0) := ofOther rfl rfl
theorem resetNRelease (x0 : Nat) : Statement (.resetNRelease x0) := ofOther rfl rfl
theorem systemWatchdog : Statement .systemWatchdog := ofOther rfl rfl
theorem coreWatchdog (x0 : Fin 5) : Statement (.coreWatchdog x0) := ofOther rfl rfl
theorem thermalReset : Statement .thermalReset := ofOther rfl rfl
theorem thermalWarn : Statement .thermalWarn := ofOther rfl rfl
theorem supplyWarn : Statement .supplyWarn := ofOther rfl rfl
theorem vbatLow (x0 : Nat) : Statement (.vbatLow x0) := ofOther rfl rfl
theorem optionLoadDone : Statement .optionLoadDone := ofOther rfl rfl
theorem stretchExpiry : Statement .stretchExpiry := ofOther rfl rfl
theorem releaseGap : Statement .releaseGap := ofOther rfl rfl
theorem firmwareBooted (x0 : Fin 2) : Statement (.firmwareBooted x0) := ofOther rfl rfl
theorem flowingEntry : Statement .flowingEntry := ofOther rfl rfl
theorem resetBlock (x0 : Envelope) (x1 : WriteBody) : Statement (.resetBlock x0 x1) := ofOther rfl rfl
theorem resetWarm (x0 : Envelope) (x1 : WriteBody) : Statement (.resetWarm x0 x1) := ofOther rfl rfl
theorem resetCold (x0 : Envelope) (x1 : WriteBody) : Statement (.resetCold x0 x1) := ofOther rfl rfl
theorem softResetDelay : Statement .softResetDelay := ofOther rfl rfl
theorem safetyCoreReset (x0 : Fin 26) : Statement (.safetyCoreReset x0) := ofOther rfl rfl
theorem blockIdle (x0 : Fin 26) : Statement (.blockIdle x0) := ofOther rfl rfl
theorem idleTimeout (x0 : Fin 26) (x1 : Bool) : Statement (.idleTimeout x0 x1) := ofOther rfl rfl
theorem blockRelease (x0 : Fin 26) : Statement (.blockRelease x0) := ofOther rfl rfl
theorem controlRestart : Statement .controlRestart := ofOther rfl rfl
theorem domainWakeDone (x0 : Fin 19) : Statement (.domainWakeDone x0) := ofOther rfl rfl
theorem optionProgram (x0 : SvcFrame) : Statement (.optionProgram x0) := ofOther rfl rfl
theorem svcRead (x0 : SvcFrame) : Statement (.svcRead x0) := ofOther rfl rfl
theorem svcWrite (x0 : SvcFrame) : Statement (.svcWrite x0) := ofOther rfl rfl
theorem svcWriteLast (x0 : SvcFrame) : Statement (.svcWriteLast x0) := ofOther rfl rfl
theorem svcFetch (x0 : SvcFrame) : Statement (.svcFetch x0) := ofOther rfl rfl
theorem counterClear (x0 : SvcFrame) : Statement (.counterClear x0) := ofOther rfl rfl
theorem rtcSync : Statement .rtcSync := ofOther rfl rfl
theorem stickyClear (x0 : Envelope) (x1 : WriteBody) : Statement (.stickyClear x0 x1) := ofOther rfl rfl
theorem countClear (x0 : Envelope) (x1 : WriteBody) : Statement (.countClear x0 x1) := ofOther rfl rfl
theorem clearAll (x0 : Envelope) (x1 : WriteBody) : Statement (.clearAll x0 x1) := ofOther rfl rfl
theorem injectionWindow (x0 : Envelope) (x1 : WriteBody) : Statement (.injectionWindow x0 x1) := ofOther rfl rfl
theorem windowTimeout : Statement .windowTimeout := ofOther rfl rfl
theorem arm (x0 : Envelope) (x1 : WriteBody) : Statement (.arm x0 x1) := ofOther rfl rfl
theorem injectionFire (x0 : Fin 256) : Statement (.injectionFire x0) := ofOther rfl rfl
theorem driftWordClose (x0 : Fin 16) : Statement (.driftWordClose x0) := ofOther rfl rfl
theorem driftMapWord : Statement .driftMapWord := ofOther rfl rfl
theorem driftPop (x0 : Fin 16) (x1 : Nat) : Statement (.driftPop x0 x1) := ofOther rfl rfl
theorem driftFlush (x0 : Envelope) (x1 : WriteBody) : Statement (.driftFlush x0 x1) := ofOther rfl rfl
theorem moraineMirror : Statement .moraineMirror := ofOther rfl rfl
theorem shutdown (x0 : Envelope) (x1 : WriteBody) : Statement (.shutdown x0 x1) := ofOther rfl rfl
theorem moraineClear (x0 : SvcFrame) : Statement (.moraineClear x0) := ofOther rfl rfl
theorem busTransaction (x0 : BusTx) : Statement (.busTransaction x0) := ofOther rfl rfl
theorem busResponseTimeout (x0 : Fin 17) (x1 : BitVec 8) (x2 : BitVec 48) : Statement (.busResponseTimeout x0 x1 x2) := ofOther rfl rfl
theorem scrubPass (x0 : Bool) (x1 : List Nat) : Statement (.scrubPass x0 x1) := ofOther rfl rfl
theorem hbmTempHigh : Statement .hbmTempHigh := ofOther rfl rfl
theorem hbmTempNormal : Statement .hbmTempNormal := ofOther rfl rfl
theorem keyWrite (x0 : SvcFrame) : Statement (.keyWrite x0) := ofOther rfl rfl
theorem dmaStart (x0 : Envelope) (x1 : WriteBody) : Statement (.dmaStart x0 x1) := ofOther rfl rfl
theorem dmaDatagram (x0 : Nat) (x1 : Nat) (x2 : List Byte) : Statement (.dmaDatagram x0 x1 x2) := ofOther rfl rfl
theorem fwChunk (x0 : Envelope) (x1 : WriteBody) : Statement (.fwChunk x0 x1) := ofOther rfl rfl
theorem fwVerify (x0 : Envelope) (x1 : WriteBody) : Statement (.fwVerify x0 x1) := ofOther rfl rfl
theorem fwHandover (x0 : Envelope) (x1 : WriteBody) : Statement (.fwHandover x0 x1) := ofOther rfl rfl
theorem handoverDone : Statement .handoverDone := ofOther rfl rfl
theorem handoverTimeout : Statement .handoverTimeout := ofOther rfl rfl
theorem powerOnRelease : Statement .powerOnRelease := ofOther rfl rfl
theorem resetPulseEnd (x0 : Fin 8) : Statement (.resetPulseEnd x0) := ofOther rfl rfl
theorem junctionCooling (x0 : Int) : Statement (.junctionCooling x0) := ofOther rfl rfl
theorem pllLock : Statement .pllLock := ofOther rfl rfl
theorem bootImageBad (x0 : Option (Fin 2)) : Statement (.bootImageBad x0) := ofOther rfl rfl
theorem partnerAbsent : Statement .partnerAbsent := ofOther rfl rfl
theorem pairRoleChange (x0 : Bool) : Statement (.pairRoleChange x0) := ofOther rfl rfl
theorem glideEnd : Statement .glideEnd := ofOther rfl rfl
theorem dmaTransferDone (x0 : Fin 9) : Statement (.dmaTransferDone x0) := ofOther rfl rfl
theorem fwVerifyDone : Statement .fwVerifyDone := ofOther rfl rfl
theorem jtagTck (x0 : Bool) (x1 : Bool) (x2 : Bool) : Statement (.jtagTck x0 x1 x2) := ofOther rfl rfl

end Sys2Proof.Laws.Operands
end

