-- ==== Sys2Proof/Tests/Slice0.lean ====
section
/-! SUPPORT. Tests of the model: a term that each check of WellFormed refuses, words of a cell written out from Tables 3.6 to 3.10, worked
examples of the manual, and for every statement with hypotheses a state and operands that meet them, clause by clause. -/

set_option Elab.async false

namespace Sys2Proof.Tests

open Sys2Proof Sys2Proof.Machine

/-! ## Small states -/

/-- The lone engine in Flowing, with some objects set. -/
def up (l : List (Nat × Int)) : State :=
  let r : State := { State.reset with rst := { Reset.reset with
    asserted := [], released := 10, optionsLoaded := true, begun := true, pllLocked := true, ticked := true, pairEnable := false } }
  setMany r ((Obj.stage.stage, 3) :: l)

/-- Session 1 is OPEN and owns the engine. -/
def owned (l : List (Nat × Int)) : State :=
  up ([(Obj.sess.state 0, 1), (Obj.sess.station 0, 7), (Obj.own.ownerState, 2), (Obj.own.ownerSession, 1), (Obj.own.ownerStation, 7)] ++ l)

/-- The envelope of a request of session 1 with sequence number 1, as it comes to the Gultin port by CTL0. -/
def env (r : Request) : Envelope :=
  let n := (reqPayload r).length
  ⟨0x474C, 1, reqCode r, 1, 1, 2, n, 0, 0, n + 16, 0x0A000001, 40000, 31013, 2, 0, []⟩

/-- The body of a WRITE with a value of a type code. -/
def body (element typ : Nat) (value : List Byte) : WriteBody := ⟨element, typ, 0, value.length, value⟩

/-- A Braid message of one link as R223 frames it, on a link that has received none. -/
def message (l : Fin 6) (cls : Nat) (bytes : List Byte) : BraidFrame := ⟨l, frameBlocks cls 0 bytes⟩

/-! ## WellFormed refuses -/

def goodHello : Request := .hello ⟨7, 0, 0⟩

theorem smoke_envelopeWidths : Instr.failures (.hello { env goodHello with magic := 65536 } ⟨7, 0, 0⟩) = [.envelopeWidths] := by decide +kernel
theorem smoke_envelopeIfc : Instr.failures (.hello { env goodHello with ifc := 3 } ⟨7, 0, 0⟩) = [.envelopeWidths] := by decide +kernel
theorem smoke_envelopeTag : Instr.failures (.hello { env goodHello with tag := [0x00] } ⟨7, 0, 0⟩) = [.envelopeTag] := by decide +kernel
theorem smoke_payloadWidths : Instr.failures (.claim (env goodHello) ⟨256, 0⟩) = [.payloadWidths] := by decide +kernel
theorem smoke_journalWidths :
    Instr.failures (.journal (message 0 1 [0x13]) (env goodHello) (.entry goodHello) (2 ^ 64) 0) = [.journalWidths] := by decide +kernel
theorem smoke_decisionWidths :
    Instr.failures (.journal (message 0 1 [0x13]) (env goodHello) (.decision (.elected (some (33, 0, false)))) 0 0) = [.journalWidths] := by decide +kernel
theorem smoke_braidWidths : Instr.failures (.agree ⟨⟨0, []⟩, 0⟩) = [.braidWidths] := by decide +kernel
theorem smoke_blockWidths : Instr.failures (.marker 0 0 ⟨idleBlock, [], 0, [0, 0, 0, 0, 0, 2]⟩) = [.blockWidths] := by decide +kernel
theorem smoke_trainWidths : Instr.failures (.train 0 ⟨0, idleBlock, true, (0, 0), [0]⟩) = [.blockWidths] := by decide +kernel
theorem smoke_accOperands : Instr.failures (.acc 0 ⟨false, 0, false⟩ 0 0 false false true 0) = [.accOperands] := by decide +kernel
theorem smoke_endCount : Instr.failures (.endLoop 0 0) = [.endCount] := by decide +kernel
theorem smoke_objectNumber : Instr.failures (.persistSave 65536 0 0) = [.objectNumber] := by decide +kernel
theorem smoke_tdmSamples : Instr.failures (.tdmFrame 0 [(3, 0), (3, 1)] none) = [.tdmSamples] := by decide +kernel
theorem smoke_rtpWidths :
    Instr.failures (.rtpPacket 0 ⟨0, 0, 0, 4, false, 0, 0, 0, 0, 0, []⟩) = [.rtpWidths] := by decide +kernel
theorem smoke_etherWidths : Instr.failures (.macAgeExpiry 0 (2 ^ 48)) = [.etherWidths] := by decide +kernel
theorem smoke_ptpWidths :
    Instr.failures (.announce 0 ⟨11, 0, 0, 0, false, 0, 0, 0, 0, 0, 256, 0, 0, 0, 0, 0⟩) = [.etherWidths] := by decide +kernel
theorem smoke_busLength : Instr.failures (.busTransaction ⟨0, 0, 0, none, [], .clean⟩) = [.busLength] := by decide +kernel
theorem smoke_elementList : Instr.failures (.snapshotReady [4, 4]) = [.elementList] := by decide +kernel
theorem smoke_scrubPlaces : Instr.failures (.scrubPass false [66]) = [.elementList] := by decide +kernel
theorem smoke_resyncStores :
    Instr.failures (.resyncData ⟨message 0 2 [0x17], .bulk [] [(1, []), (0, [])] []⟩) = [.resyncStores] := by decide +kernel

/-! ## Words of a cell, from the bits of Tables 3.6 to 3.10 -/

/-- 01h MAC, Acc 010b, X 01b, C 11b, SH 10b, CX 0: 00001 010 01 11 10 0 0. -/
theorem test_word_mac : wordCommands 5 0x0A78000000000000 = some [.mac 5 ⟨false, 0, false⟩ 2 1 3 2 false] := by decide +kernel
/-- 03h MPY with NEG and CX; PSEL 01b, PEN 1, PINV 1: control 0001 1100 0000 0000. -/
theorem test_word_mpy : wordCommands 0 0x1F93000000001C00 = some [.mpy 0 ⟨true, 1, true⟩ 7 2 1 0 true true] := by decide +kernel
/-- 05h ACC, Acc 1, X 2, W 1, LD 1, Z 0, SH 11b: 00101 001 10 1 1 0 11 0. -/
theorem test_word_acc : wordCommands 0 0x29B6000000000000 = some [.acc 0 ⟨false, 0, false⟩ 1 2 true true false 3] := by decide +kernel
/-- 06h EXT, Acc 0, X 1, SHIFT field 9: 00110 000 01 1001 00. -/
theorem test_word_ext : wordCommands 127 0x3064000000000000 = some [.ext 127 ⟨false, 0, false⟩ 0 1 9] := by decide +kernel
/-- 07h EXW, Acc 3, pair X3:X2, s 2: 00111 011 10 10 0000. -/
theorem test_word_exw : wordCommands 0 0x3BA0000000000000 = some [.exw 0 ⟨false, 0, false⟩ 3 1 2] := by decide +kernel
/-- 0Dh SHF, X 2, Xa 1, amount −16: 01101 0 10 01 0 10000. -/
theorem test_word_shf : wordCommands 0 0x6A50000000000000 = some [.shf 0 ⟨false, 0, false⟩ 2 1 0x10] := by decide +kernel
/-- 12h ZXG, Acc 4, X 0, previous X 3, K 1, SH 01b, FSEL 1: 10010 100 00 11 1 01 1. -/
theorem test_word_zxg : wordCommands 0 0x943B000000000000 = some [.zxg 0 ⟨false, 0, false⟩ 4 0 3 true 1 true] := by decide +kernel
/-- 13h MOV, destination C2 (110b), source X1 (001b): 10011 110 001 00000. -/
theorem test_word_mov : wordCommands 0 0x9E20000000000000 = some [.mov 0 ⟨false, 0, false⟩ 6 1] := by decide +kernel
/-- NOP with LDV (001b, AP 3, AM 11b, REG 2) in slot A, STL (100b, AP 1, AM 01b, REG 4, lane 5) in slot B, DO with ARG 9. -/
theorem test_word_slots : wordCommands 0 0x00002F4085944009
    = some [.nop 0 ⟨false, 0, false⟩, .ldv 0 .a 3 3 ⟨2, .clean⟩, .stl 0 .b 1 1 4 5, .doLoop 0 9] := by decide +kernel
/-- LDP (101b, AP 0, AM 00b, kind M 01b, index 6) in slot A, YIELD in slot B, END of two loops. -/
theorem test_word_control : wordCommands 0 0x0000A070C0008002
    = some [.nop 0 ⟨false, 0, false⟩, .ldp 0 .a 0 0 .m ⟨6, .clean⟩, .yieldSlot 0 .b, .endLoop 0 2] := by decide +kernel
/-- STV with PM (010b, AP 7, AM 10b, REG 1, bit 4) in slot A, FRAME_END. -/
theorem test_word_frameEnd : wordCommands 9 0x00005E300000C000
    = some [.nop 9 ⟨false, 0, false⟩, .stv 9 .a 7 2 1 true ⟨false, 0, false⟩, .frameEnd 9] := by decide +kernel
/-- OP 14h is reserved. -/
theorem test_word_reserved : wordCommands 0 0xA000000000000000 = none := by decide +kernel

/-! ## Hypotheses met: the DSP cells -/

/-- An accumulator with a value, a wrap count and the lost mark. -/
def accOf (v w : Int) (lost : Bool) : Acc := ⟨BitVec.ofInt 56 v, w, lost⟩

/-- The lone engine with a cell in a given state, its schedule under way. -/
def withCell (n : Nat) (c : Cell) : State := { up [] with cells := [(n, { c with active := true })] }

/-- A cell executes at either end of the cells' numbers. -/
theorem witness_SelectionCommands : cellExec (withCell 0 Cell.zero) 0 = true ∧ cellExec (withCell 127 Cell.zero) 127 = true := by decide +kernel

theorem witness_AccumulatorCommands : cellExec (withCell 0 Cell.zero) 0 = true ∧ cellExec (withCell 127 Cell.zero) 127 = true
    ∧ (∀ p ∈ [-(2 ^ 55 : Int), 0, 2 ^ 55], -(2 ^ 55) ≤ p ∧ p ≤ 2 ^ 55)
    ∧ 2 ^ 55 - 1 < (accOf (2 ^ 55 - 1) 6 false).v.toInt + 1 ∧ (accOf (-(2 ^ 55)) (-7) false).v.toInt + -1 < -(2 ^ 55)
    ∧ 2 ^ 55 - 1 < (accOf (2 ^ 55 - 1) 7 false).v.toInt + 1 ∧ (accOf (-(2 ^ 55)) (-8) false).v.toInt + -1 < -(2 ^ 55)
    ∧ (accOf 0 0 true).lost = true := by decide +kernel

theorem witness_RecordingCommands : cellExec (withCell 127 Cell.zero) 127 = true ∧ (accOf 0 (-8) true).lost = true
    ∧ ((accOf 0 1 false).lost = false ∧ (accOf 0 1 false).w ≠ 0) ∧ ((accOf 0 0 false).lost = false ∧ (accOf 0 0 false).w = 0)
    ∧ 0 ≤ (0x0F : BitVec 5).toInt ∧ (0x10 : BitVec 5).toInt < 0 := by decide +kernel

/-- A cell whose lane 5 holds a value that saturates EXT of accumulator 0, and whose next instruction is the last of a bank. -/
def saturating : Cell :=
  { Cell.zero with nextPc := 4095, lanes := Cell.zero.lanes.set 5 { Cell.zero.lanes[5] with a := Cell.zero.lanes[5].a.set 0 (accOf (2 ^ 55 - 1) 0 false) } }

def seenAll (s : State) (n : Nat) (acc : Fin 8) (shift : Nat) (i : Fin 8) : Seen :=
  recordedIn (cellOf s n) ⟨false, 0, false⟩ (fun l => (l, (l.a[acc].ext shift).2)) i

theorem witness_FirstOccurrence : cellExec (withCell 9 saturating) 9 = true
    ∧ natO (withCell 9 saturating) (Obj.clus.cellStatus 1 1) / 2 ^ 29 % 8 = 0 ∧ (cellOf (withCell 9 saturating) 9).nextPc < 4096
    ∧ seenAll (withCell 9 saturating) 9 0 0 5 ≠ .none ∧ (∀ j : Fin 8, j < 5 → seenAll (withCell 9 saturating) 9 0 0 j = .none)
    ∧ (let s := setO (withCell 9 saturating) (Obj.clus.cellStatus 1 1) 0x20000000
       cellExec s 9 = true ∧ natO s (Obj.clus.cellStatus 1 1) / 2 ^ 29 % 8 ≠ 0) := by decide +kernel

theorem witness_LevelCommands : cellExec (withCell 0 Cell.zero) 0 = true ∧ -8388608 ≤ (-8388608 : Int) ∧ (8388607 : Int) ≤ 8388607 := by
  decide +kernel

/-- A cell whose slot B has loaded register 2 in the instruction in progress. -/
def loadedB : Cell := { Cell.zero with latch := { Cell.zero.latch with loadB := some 2 } }

theorem witness_LoadCommands : cellExec (withCell 9 loadedB) 9 = true ∧ (SlotId.b = .b)
    ∧ (cellOf (withCell 9 loadedB) 9).latch.loadB ≠ some 3 ∧ 4 ≤ (withCell 9 loadedB).rst.released
    ∧ (withCell 9 loadedB).ev.now.find? (fun r => r.event == 224 && r.frame == 0) = none := by decide +kernel

theorem witness_StoreCommands : cellExec (withCell 9 saturating) 9 = true ∧ (7 : Nat) < 32768
    ∧ 32767 ≠ slotAt (cellOf (withCell 9 saturating) 9) .a 0 0 8 / 8 * 8 + 7
    ∧ ∀ i : Fin 8, (8 : Nat) ≠ slotAt (cellOf (withCell 9 saturating) 9) .a 0 0 8 / 8 * 8 + i.val := by decide +kernel

/-- M of linear mode, of a circular buffer of 3 words at the top of the memory, and of the bit-reversed block of one word. -/
theorem witness_AddressRegisters : (0 : Word).toNat / 2 ^ 30 = 0
    ∧ ((0x7FFE8003 : Word).toNat / 2 ^ 30 = 1 ∧ (0x7FFE8003 : Word).toNat % 2 ^ 15 ≠ 0)
    ∧ ((0x40000000 : Word).toNat / 2 ^ 30 = 1 ∧ (0x40000000 : Word).toNat % 2 ^ 15 = 0)
    ∧ ((0x80000000 : Word).toNat / 2 ^ 30 = 2 ∧ 2 ^ 0 ≤ max ((0x80000000 : Word).toNat % 2 ^ 15) 1
      ∧ max ((0x80000000 : Word).toNat % 2 ^ 15) 1 < 2 ^ (0 + 1))
    ∧ cellExec (withCell 64 Cell.zero) 64 = true := by decide +kernel

/-- A cell with loops open. -/
def looping (l : List Loop) : State := withCell 127 { Cell.zero with loops := l }

/-- A program without code whose cell 127 exchanges one vector. -/
def exchanging (x : XEntry) : State :=
  { withCell 127 Cell.zero with prog := { Program.reset with running := some ⟨0, [], 0, 0, [], [], [], [(127, [x])], [], [], [], [], none⟩ } }

theorem witness_ControlCommands :
    (cellExec (looping [⟨1, 1⟩, ⟨2, 0⟩]) 127 = true ∧ (cellOf (looping [⟨1, 1⟩, ⟨2, 0⟩]) 127).loops.length < 3)
    ∧ (∃ l r, (cellOf (looping [⟨1, 1⟩, ⟨2, 0⟩]) 127).loops = l :: r ∧ 0 < l.left ∧ 0 < (1 : Fin 4).val)
    ∧ (cellExec (looping [⟨1, 0⟩]) 127 = true ∧ (cellOf (looping [⟨1, 0⟩]) 127).loops = [⟨1, 0⟩])
    ∧ (cellExec (looping [⟨1, 0⟩, ⟨2, 1⟩]) 127 = true ∧ (cellOf (looping [⟨1, 0⟩, ⟨2, 1⟩]) 127).loops = ⟨1, 0⟩ :: ⟨2, 1⟩ :: [])
    ∧ ((exchangeOf (looping []) 127).length ≤ (cellOf (looping []) 127).yields ∧ cellExec (looping []) 127 = true)
    ∧ (let s : State := { looping [] with bus := { (looping []).bus with late := [(126, .transaction ⟨0, 0, 0, some 1, [], .clean⟩)] }
                                          cells := [(126, { Cell.zero with active := true, nextPc := 1 }), (127, { Cell.zero with active := true })] }
       cellExec s 127 = true ∧ ∀ e ∈ s.bus.late, e.1 ≠ 127 ∧ cellBusy s e.1 = true)
    ∧ (cellExec (exchanging ⟨0, 8, 32760, 262143⟩) 127 = true
      ∧ (exchangeOf (exchanging ⟨0, 8, 32760, 262143⟩) 127)[(cellOf (exchanging ⟨0, 8, 32760, 262143⟩) 127).yields]? = some ⟨0, 8, 32760, 262143⟩
      ∧ (262143 : Nat) < 262144)
    ∧ (cellExec (exchanging ⟨1, 8, 32767, 0⟩) 127 = true
      ∧ (exchangeOf (exchanging ⟨1, 8, 32767, 0⟩) 127)[(cellOf (exchanging ⟨1, 8, 32767, 0⟩) 127).yields]? = some ⟨1, 8, 32767, 0⟩
      ∧ (32767 : Nat) < 32768)
    ∧ (cellCommand (.frameEnd 127) = some 127 ∧ cellExec (up []) 127 = false
      ∧ cellExec (setO (withCell 127 Cell.zero) (Obj.pwr.state 15) 1) 127 = false) :=
  ⟨by decide +kernel, ⟨_, _, rfl, by decide +kernel, by decide +kernel⟩, by decide +kernel, by decide +kernel, by decide +kernel,
    by decide +kernel, by decide +kernel, by decide +kernel, by decide +kernel⟩

theorem witness_CellWordsRoundTrip : cellCommand (.endLoop 127 2) = some (127 : Fin 128).val ∧ (Instr.endLoop 127 2).wellFormed = true
    ∧ encodeWord (.endLoop 127 2) = some 0x8002 := by decide +kernel

theorem witness_CellsStayCanonical : cellCommand (.doLoop 0 9) = some 0 ∧ cellsSound (up [])
    ∧ ∃ t, exec (.doLoop 0 9) (up []) = .next t :=
  ⟨rfl, ⟨by decide +kernel, fun n => by
    have h : cellOf (up []) n = Cell.zero := rfl
    rw [h]
    decide +kernel⟩, ⟨_, rfl⟩⟩

/-! ## Hypotheses met: Gultin -/

/-- What InOrder asks, decided. -/
def inOrder (s : State) (e : Envelope) (r : Request) : Bool :=
  decide (2 ≤ stageOf s ∧ (1 ≤ e.session ∧ e.session ≤ 32) ∧ (s.rst.pairEnable = false ∨ reqCode r ≠ 2)
    ∧ ([servedAt s e, tagOk s e r, sessState s e.session == 1, e.sequence == natO s (Obj.sess.nextSeq (e.session - 1)),
        (session s e.session).held.isEmpty].all id = true)
    ∧ ([inReset s 25, headerBad e r, inHand s e, paused s, decidedByActive s r,
        (session s e.session).results.any (fun x => decide (e.sequence ≤ x.sequence)),
        (session s e.session).skipped.any (fun k => decide (k.1 ≤ e.sequence) && decide (e.sequence ≤ k.2))].any id = false))

theorem inOrder_of {s : State} {e : Envelope} {r : Request} (h : inOrder s e r = true) : InOrder s e r := by
  have h := of_decide_eq_true h
  have yes := h.2.2.2.1
  have no := h.2.2.2.2
  simp only [List.all_cons, List.all_nil, List.any_cons, List.any_nil, id_eq, Bool.and_eq_true, Bool.or_eq_false_iff, beq_iff_eq,
    List.isEmpty_iff] at yes no
  exact {
    stage := h.1, session := h.2.1, unpassed := h.2.2.1, heard := yes.1, tag := yes.2.1, opened := yes.2.2.1, turn := yes.2.2.2.1
    nothing := yes.2.2.2.2.1, served := no.1, header := no.2.1, alone := no.2.2.1, running := no.2.2.2.1, decides := no.2.2.2.2.1
    unanswered := no.2.2.2.2.2.1, unskipped := no.2.2.2.2.2.2.1 }

/-- The declaration a WRITE of a session meets, once the sender's address is noted. -/
def declMet (s : State) (e : Envelope) (i sub : Nat) (w : WriteBody) : Option Decl := declFor (touch s e.session e) i w.element sub

/-- What AcceptedWrite asks, decided. -/
def accepted (s : State) (e : Envelope) (i sub : Nat) (w : WriteBody) (v : Int) : Bool :=
  match declMet s e i sub w with
  | none => false
  | some d => inOrder s e (.write i sub w) && decide ((w.element < 65536 ∧ sub < 256) ∧ nameUnit s e (.write i sub w) = .write i sub w
      ∧ writeCheck (touch s e.session e) e.session i sub w (e.flags.getLsbD 1) = .ok s.frame
      ∧ d.typ.size ≠ 0 ∧ d.effect = .control ∧ decodeNum d.typ w.value = some v)

theorem accepted_of {s : State} {e : Envelope} {i sub : Nat} {w : WriteBody} {v : Int} (h : accepted s e i sub w v = true) :
    AcceptedWrite s e i sub w v := by
  unfold accepted at h
  split at h
  · cases h
  · rename_i d hd
    have c := of_decide_eq_true (Bool.and_eq_true_iff.mp h).2
    exact { order := inOrder_of (Bool.and_eq_true_iff.mp h).1, fits := c.1, named := c.2.1, checks := c.2.2.1, object := ⟨d, hd, c.2.2.2⟩ }

/-- What AcceptedBlob asks, decided. -/
def acceptedBlob (s : State) (e : Envelope) (i sub : Nat) (w : WriteBody) : Bool :=
  match declMet s e i sub w with
  | none => false
  | some d => inOrder s e (.write i sub w) && decide ((e.flags.getLsbD 1 = true ∧ w.offset = 0) ∧ (w.element < 65536 ∧ sub < 256)
      ∧ nameUnit s e (.write i sub w) = .write i sub w ∧ seriesOf s (okey i w.element sub) = none
      ∧ writeCheck (touch s e.session e) e.session i sub w true = .ok s.frame ∧ d.typ.size = 0 ∧ d.effect = .control)

theorem acceptedBlob_of {s : State} {e : Envelope} {i sub : Nat} {w : WriteBody} (h : acceptedBlob s e i sub w = true) :
    AcceptedBlob s e i sub w := by
  unfold acceptedBlob at h
  split at h
  · cases h
  · rename_i d hd
    have c := of_decide_eq_true (Bool.and_eq_true_iff.mp h).2
    exact { order := inOrder_of (Bool.and_eq_true_iff.mp h).1, whole := c.1, fits := c.2.1, named := c.2.2.1, fresh := c.2.2.2.1
            checks := c.2.2.2.2.1, object := ⟨d, hd, c.2.2.2.2.2⟩ }

/-- The envelope of a WRITE of session 1, and its body, with a value of so many bytes. -/
def wenv (i sub element typ : Nat) (value : List Byte) : Envelope := env (.write i sub (body element typ value))

/-- A WRITE of session 1, the owner, to an object, with a numeric value of n bytes, is accepted. -/
abbrev Writes (l : List (Nat × Int)) (i sub element typ n v : Nat) : Prop :=
  accepted (owned l) (wenv i sub element typ (natBE v n)) i sub (body element typ (natBE v n)) v = true

theorem witness_MessagesTurnedAway :
    (gultinOf (.hello (env goodHello) ⟨7, 0, 0⟩) = some (env goodHello, goodHello) ∧ stageOf State.reset < 2)
    ∧ inReset { up [] with rst := { (up []).rst with firmwareDown := true } } 25 = true
    ∧ servedAt (up []) { env goodHello with dstPort := 31012 } = false
    ∧ servedAt (up [(Obj.ifc.gultinEnable 11, 0)]) { env goodHello with ifc := 0 } = false
    ∧ (2 ≤ stageOf (up []) ∧ inReset (up []) 25 = false ∧ ∀ r ∈ [goodHello, .resume 0], servedAt (up []) (env r) = true)
    ∧ headerBad { env goodHello with session := 0, magic := 0 } goodHello = true
    ∧ (headerBad { env goodHello with session := 0 } goodHello = false
      ∧ tagOk (up [(Obj.own.authMode, 2)]) { env goodHello with session := 0 } goodHello = false)
    ∧ (let r : Request := .resume 0
       gultinOf (.resume (env r) 0) = some (env r, r) ∧ reqSequenced r = true ∧ headerBad (env r) r = false ∧ tagOk (up []) (env r) r = true
         ∧ getO (up []) Obj.own.authMode = 0 ∧ sessState (up []) 1 ≠ 1 ∧ sessState (up []) 1 ≠ 2
         ∧ headerBad { env r with session := 33 } r = false ∧ headerBad { env r with session := 0 } r = false)
    ∧ (let r : Request := .groupCommit ⟨1, 0, 0, 0⟩
       gultinOf (.groupCommit (env r) ⟨1, 0, 0, 0⟩) = some (env r, r) ∧ reqSequenced r = true ∧ headerBad (env r) r = false) := by decide +kernel

theorem witness_HelloAndHeartbeat :
    (let e := { env goodHello with session := 0 }
     2 ≤ stageOf (up []) ∧ inReset (up []) 25 = false ∧ servedAt (up []) e = true ∧ headerBad e goodHello = false
       ∧ tagOk (up []) e goodHello = true ∧ helloBad ⟨7, 0, 0⟩ = false
       ∧ sessionNumbers.find? (fun m => sessState (up []) m == 0) = some 1)
    ∧ (∀ x ∈ [(1, (0 : Int)), (2, 9), (3, 0), (3, 9)],
        let s := up [(Obj.sess.state 31, (x.1 : Nat)), (Obj.sess.station 31, 7), (Obj.sess.fencedAt 31, x.2)]
        let r : Request := .hello ⟨7, 32, 0⟩
        let e := { env r with session := 0 }
        servedAt s e = true ∧ headerBad e r = false ∧ tagOk s e r = true ∧ helloBad ⟨7, 32, 0⟩ = false ∧ sessState s 32 = x.1
          ∧ natO s (Obj.sess.station (32 - 1)) = 7)
    ∧ (let r : Request := .hello ⟨7, 33, 0⟩
       let e := { env r with session := 0 }
       headerBad e r = false ∧ tagOk (up []) e r = true ∧ helloBad ⟨7, 33, 0⟩ = true ∧ getO (up []) Obj.own.authMode = 0)
    ∧ (∀ n ∈ [1, 2], let e := env (.heartbeat 0)
       let s := setO (owned []) Obj.own.ownerSession (n : Nat)
       2 ≤ stageOf s ∧ inReset s 25 = false ∧ servedAt s e = true ∧ headerBad e (.heartbeat 0) = false ∧ tagOk s e (.heartbeat 0) = true
         ∧ cutOff s = false ∧ 1 ≤ e.session ∧ e.session ≤ 32 ∧ sessState s e.session = 1 ∧ ownerState s = 2
         ∧ natO s Obj.own.ownerSession = n) := by decide +kernel

theorem witness_Acknowledgement :
    let s := owned []
    let e := env (.yield 9)
    confirms s = false ∧ forwarded e = false ∧ 1 ≤ e.session ∧ e.session ≤ 32 ∧ sessState s e.session ≠ 0
      ∧ natO s (Obj.sess.nextSeq (e.session - 1)) = e.sequence
      ∧ (session s e.session).results.any (fun x => decide (e.sequence ≤ x.sequence)) = false := by decide +kernel

/-- Session 1 is OPEN, and session 2 of station 9 owns the engine with priority 5, preemptible. -/
def other : List (Nat × Int) :=
  [(Obj.sess.state 1, 1), (Obj.sess.station 1, 9), (Obj.own.ownerSession, 2), (Obj.own.ownerStation, 9), (Obj.own.ownerPriority, 5),
    (Obj.own.preemptible, 1)]

def noOwner : List (Nat × Int) := [(Obj.own.ownerState, 0), (Obj.own.ownerSession, 0), (Obj.own.ownerStation, 0)]

theorem witness_Ownership :
    (ownerSession (up []) = none ∧ natO (up []) Obj.own.ownerEpoch + 1 < 4294967296 ∧ NotYetRaised (up []) 231)
    ∧ (InOrder (owned noOwner) (env (.claim ⟨6, 1⟩)) (.claim ⟨6, 1⟩) ∧ ownerState (owned noOwner) = 0)
    ∧ (InOrder (owned []) (env (.claim ⟨6, 1⟩)) (.claim ⟨6, 1⟩) ∧ ownerState (owned []) = 2 ∧ natO (owned []) Obj.own.ownerSession = 1)
    ∧ (InOrder (owned other) (env (.claim ⟨6, 1⟩)) (.claim ⟨6, 1⟩) ∧ ownerState (owned other) = 2 ∧ natO (owned other) Obj.own.ownerSession ≠ 1
      ∧ getO (owned other) Obj.own.preemptible = 1 ∧ natO (owned other) Obj.own.ownerPriority < 6)
    ∧ (claimBad ⟨6, 1⟩ = false ∧ (1 : BitVec 8).getLsbD 2 = false ∧ (1 : BitVec 8).getLsbD 1 = false ∧ (owned []).rst.pairEnable = false)
    ∧ (InOrder (owned []) (env (.claim ⟨0, 4⟩)) (.claim ⟨0, 4⟩) ∧ claimBad ⟨0, 4⟩ = false ∧ (4 : BitVec 8).getLsbD 2 = true)
    ∧ (let s := owned [(Obj.sess.state 1, 1), (Obj.sess.station 1, 9)]
       InOrder s (env (.yield 9)) (.yield 9) ∧ ownerState s = 2 ∧ natO s Obj.own.ownerSession = 1
        ∧ journalFits (touch s 1 (env (.yield 9))) (.yield 9) = true ∧ successor (touch s 1 (env (.yield 9))) 1 9 = some 2) :=
  ⟨⟨by decide +kernel, by decide +kernel, by unfold NotYetRaised; decide +kernel⟩, ⟨inOrder_of (by decide +kernel), by decide +kernel⟩,
    ⟨inOrder_of (by decide +kernel), by decide +kernel⟩, ⟨inOrder_of (by decide +kernel), by decide +kernel⟩, by decide +kernel,
    ⟨inOrder_of (by decide +kernel), by decide +kernel⟩, ⟨inOrder_of (by decide +kernel), by decide +kernel⟩⟩

/-- A READ of OWNER_EPOCH, a U32, and one of a BLOB from the end of its value. -/
def readEpoch : ReadBody := ⟨0x1100, 0, 6, 4, 0, 0⟩
def readLog : ReadBody := ⟨0x4300, 0, 10, 15, 0, 0⟩

theorem witness_ReadAndSubscribe :
    (∀ b ∈ [readEpoch, readLog], InOrder (owned []) (env (.read b)) (.read b)
      ∧ (readCheck (touch (owned []) 1 (env (.read b))) b).isRight = true)
    ∧ (∀ m ∈ [0, 1], let r : Request := .subscribe ⟨1, m, m, 0, 255, 0, 0⟩
        InOrder (owned []) (env r) r ∧ (owned []).rst.pairEnable = false ∧ (session (owned []) 1).subs = []) := by
  have h : (∀ b ∈ [readEpoch, readLog], inOrder (owned []) (env (.read b)) (.read b) = true
      ∧ (readCheck (touch (owned []) 1 (env (.read b))) b).isRight = true)
    ∧ (∀ m ∈ [0, 1], inOrder (owned []) (env (.subscribe ⟨1, m, m, 0, 255, 0, 0⟩)) (.subscribe ⟨1, m, m, 0, 255, 0, 0⟩) = true) := by
    decide +kernel
  exact ⟨fun b hb => ⟨inOrder_of (h.1 b hb).1, (h.1 b hb).2⟩, fun m hm => ⟨inOrder_of (h.2 m hm), by decide +kernel, by decide +kernel⟩⟩

/-! ## Hypotheses met: accepted writes -/

/-- What WriteMeets and the value of a WRITE of session 1 ask, decided: the value offered to an object of a class. -/
def offered (s : State) (i sub : Nat) (w : WriteBody) (last : Bool) (eff : Effect) : Option Val :=
  let r : Request := .write i sub w
  let e := { env r with flags := if last then 2 else 0 }
  let a := touch s 1 e
  let k := okey i w.element sub
  match declFor a i w.element sub with
  | none => none
  | some d =>
    let meets := decide ((d.typ = .blob ∨ w.offset = 0) ∧ w.typ = d.typ.code ∧ (accessOf d k = .rw ∨ accessOf d k = .wo)
      ∧ isOwner a 1 = true ∧ keyBlocked a k = false ∧ ¬ (i = 0x5300 ∧ sub = 9 ∧ stagingBusy a w.element = true)
      ∧ journalFits a r = true ∧ d.effect = eff ∧ nameUnit s e r = r)
    if !(inOrder s e r && meets) then none
    else if d.typ.size ≠ 0 then ((decodeNum d.typ w.value).filter (numOk a d k)).map .num
    else ((continued a k w).filter (fun b => !segmentRefused a k b.length && (!last || blobOk k b))).map .bytes

/-- The same, with the engine the request finds. -/
def offeredTo (s : State) (i sub element typ : Nat) (v : List Byte) (eff : Effect) (p : State → Change → Bool) : Bool :=
  (offered s i sub (body element typ v) true eff).any (fun x => p (touch s 1 (wenv i sub element typ v)) ⟨okey i element sub, x⟩)

/-- A group of session 1 is open. -/
def opened (s : State) : State := { s with slu := { s.slu with openTag := 5, openSession := 1 } }

theorem witness_WritesByClass :
    (∀ x ∈ [(0x1100, 5, 0, 1, 1, 1), (0x1200, 4, 0, 3, 2, 10), (0x1200, 4, 0, 3, 2, 10000), (0x1300, 8, 255, 1, 1, 0)],
      offeredTo (owned []) x.1 x.2.1 x.2.2.1 x.2.2.2.1 (natBE x.2.2.2.2.2 x.2.2.2.2.1) .control (fun _ _ => true) = true)
    ∧ offeredTo (owned [(Obj.prog.storeLength, 1)]) 0x4000 7 0 15 [0x47] .control (fun _ _ => true) = true
    ∧ offeredTo (owned []) 0x4210 1 255 1 [0x01] .direct (fun _ _ => true) = true
    ∧ offeredTo (owned []) 0x4210 6 0 11 [0x80, 0x00] .direct (fun _ _ => true) = true
    ∧ offeredTo (opened (owned [])) 0x5300 1 255 1 [0x01] .sluice (fun a c => decide (a.slu.openSession = 1 ∧ shadowCheck a c = .ok 0)) = true
    ∧ offeredTo (owned []) 0x5300 1 255 1 [0x01] .sluice (fun a c => decide (a.slu.openSession ≠ 1 ∧ singleCheck a c = .ok 16)) = true
    ∧ ((offered (owned [(Obj.prog.storeLength, 65536)]) 0x4000 7 (body 0 15 [0x47]) false .control).isSome = true) := by
  decide +kernel

theorem witness_ClearingWrites :
    Writes [(Obj.evt.sticky 255, 1)] 0x1300 2 255 1 1 0 ∧ Writes [(Obj.evt.count 0, 7)] 0x1300 5 0 3 2 0 ∧ Writes [] 0x1300 68 0 1 1 1
    ∧ Writes [(Obj.clus.cellStatus 15 7, 0x20000100)] 0x4010 9 15 4 4 0x20000000 ∧ Writes [] 0x4010 2 0 4 4 0xFFFFFFFF := by
  unfold Writes; decide +kernel

theorem witness_InjectionWrites :
    (Writes [] 0x1400 0 0 3 2 0x4B4C ∧ getO (owned []) Obj.inj.window = 0)
    ∧ (Writes [(Obj.inj.window, 1)] 0x1400 0 0 3 2 0x494E ∧ getO (owned [(Obj.inj.window, 1)]) Obj.inj.window = 1)
    ∧ Writes [(Obj.inj.window, 1)] 0x1400 0 0 3 2 0x4B4C ∧ Writes [(Obj.inj.window, 2)] 0x1400 0 0 3 2 0
    ∧ Writes [(Obj.inj.window, 2)] 0x1400 1 255 2 1 2 ∧ Writes [(Obj.inj.window, 2)] 0x1400 1 0 2 1 0 := by
  unfold Writes; decide +kernel

theorem witness_CloseAndReset :
    (Writes [] 0x1110 10 0 1 1 1 ∧ natO (owned []) Obj.own.ownerSession = 1 ∧ ownerState (owned []) = 2)
    ∧ (Writes [] 0x1110 10 31 1 1 1 ∧ natO (owned []) Obj.own.ownerSession ≠ 32)
    ∧ Writes [] 0x1200 1 0 3 2 0 ∧ Writes [] 0x1200 1 0 3 2 0x4019 ∧ (Writes [] 0x1200 1 0 3 2 62 ∧ (owned []).rst.soft = none)
    ∧ Writes [] 0x1200 1 0 3 2 63 ∧ Writes [] 0x1200 1 0 3 2 0x8019 := by
  unfold Writes; decide +kernel

theorem witness_FirmwareWrites :
    acceptedBlob (owned [(Obj.fw.target, 1), (Obj.fw.length, 2)]) (wenv 0x1620 5 0 15 [0xAA, 0x55]) 0x1620 5 (body 0 15 [0xAA, 0x55]) = true
    ∧ Writes [] 0x1620 6 0 1 1 1 ∧ Writes [(Obj.fw.version 1, 0x01000001)] 0x1620 10 0 2 1 3
    ∧ Writes [(Obj.fw.version 1, 0x01000001)] 0x1620 10 0 2 1 0
    ∧ Writes [] 0x1620 10 0 2 1 2 := by
  unfold Writes; decide +kernel

/-- All nine lanes of link 5 lie at the end of Table 10.4's numbering. -/
theorem witness_GroupBeamAndRetrainWrites :
    (let s : State := { owned [] with slu := { (owned []).slu with openTag := 5, openSession := 1 } }
     accepted s (wenv 0x4300 8 0 1 [0x01]) 0x4300 8 (body 0 1 [0x01]) 1 = true ∧ s.slu.openSession ≠ 0)
    ∧ acceptedBlob { owned [(Obj.beam.bufferBase 255 0, 65536)] with
          array := { (owned []).array with buffers := [(510, [0, 0]), (511, [0, 0])] } }
        (wenv 0x5300 9 255 15 [0x01]) 0x5300 9 (body 255 15 [0x01]) = true
    ∧ Writes [(Obj.tb.asymDegrade, 2)] 0x2100 75 0 1 1 1
    ∧ (Writes [(Obj.link.state 5, 6)] 0x3000 9 5 1 1 1 ∧ linkActive (owned [(Obj.link.state 5, 6)]) 5 = true)
    ∧ (Writes [] 0x3000 9 0 1 1 1 ∧ linkActive (owned []) 0 = false)
    ∧ Writes [(Obj.link.state 5, 6), (Obj.lane.role 58, 1)] 0x3010 14 58 1 1 1 := by
  unfold Writes; decide +kernel

theorem witness_QueueAndTransferWrites :
    (Writes [(Obj.drift.consumer 15, 2)] 0x1380 4 15 1 1 1 ∧ (owned []).array.mapOut = none
      ∧ natO (owned []) (Obj.drift.flushed 15) + ((driftQ (owned []) 15).words ++ (driftQ (owned []) 15).packing.toList).foldl
          (fun n x => n + x.items) 0 < 4294967296)
    ∧ (Writes [] 0x1500 8 0 1 1 1 ∧ (owned []).ev.ring.length < 128)
    ∧ (Writes [(Obj.dma.direction 9, 1), (Obj.dma.length 9, 4)] 0x1600 7 9 1 1 1 ∧ Writes [(Obj.dma.direction 1, 1)] 0x1600 7 1 1 1 1) := by
  unfold Writes; decide +kernel

/-- The state of a pair: role (0 ACTIVE), pair state, and the rest of its objects; both pair links ACTIVE. -/
def paired (role st : Nat) (l : List (Nat × Int)) : State :=
  let s := owned ([(Obj.pair.role, (role : Int)), (Obj.pair.state, (st : Int)), (Obj.link.state 0, 6), (Obj.link.state 1, 6)] ++ l)
  { s with rst := { s.rst with pairEnable := true }, pair := { s.pair with watching := 0 } }

/-- A sole active unit whose standby has asked for a resync. -/
def asked : State :=
  let s := paired 0 1 [(Obj.pair.resyncAuto, 1)]
  { s with pair := { s.pair with resyncAsked := true, versionsOk := true } }

theorem witness_PairWrites :
    (accepted asked (wenv 0x3800 8 0 1 [0x01]) 0x3800 8 (body 0 1 [0x01]) 1 = true ∧ resyncOk asked = true
      ∧ asked.ev.now.find? (fun r => r.event == 132 && r.frame == asked.frame) = none)
    ∧ (accepted (paired 1 9 [(Obj.prog.bootSlot, 255)]) (wenv 0x3800 10 0 1 [0x01]) 0x3800 10 (body 0 1 [0x01]) 1 = true
      ∧ pairState (paired 1 9 []) = 9 ∧ 1 < natO (paired 1 9 [(Obj.prog.bootSlot, 255)]) Obj.prog.bootSlot)
    ∧ (accepted (paired 0 1 []) (wenv 0x3800 12 0 1 [0x01]) 0x3800 12 (body 0 1 [0x01]) 1 = true ∧ isActive (paired 0 1 []) = true) := by
  decide +kernel

/-! ## Hypotheses met: timers, mixing, programs, groups -/

/-- What the clause of GROUP_COMMIT asks of an open group with one change, for a target. -/
def committable (b : CommitBody) (k : Nat) : Bool :=
  let s := { opened (owned []) with slu := { (opened (owned [])).slu with openSet := [⟨k, .num 1⟩] } }
  let e := env (.groupCommit b)
  let a := touch s 1 e
  let l := s.slu.openSet
  let bound := prepBound a l
  let first := if hasCatch l then up16 (s.frame + bound + 2) else s.frame + bound + 2
  let j := inJournal s e (.groupCommit b) (if b.target ≠ 0 ∧ first ≤ b.target then b.target else first)
  inOrder s e (.groupCommit b) && decide ((b.reserved = 0 ∧ b.options &&& 0xFFFC = 0 ∧ b.target < 2 ^ 48 ∧ isOwner s 1 = true
      ∧ s.slu.openSession = 1 ∧ s.slu.openTag = b.tag ∧ journalUsed s + entryLength (.groupCommit b) ≤ 65536)
    ∧ natO s Obj.slu.fedTag = 0 ∧ b.target ≤ s.frame + 21600000 ∧ (hasCatch l = true → b.target % 16 = 0) ∧ spansOk a l = true
    ∧ weightsBad a l = [] ∧ blockedIn a l = none ∧ (pairState s ≠ 2 ∧ pairState s ≠ 6) ∧ (committed s).length < 16
    ∧ collides a l = false ∧ lack a l [] (frameAsked a l bound b.target) = 0
    ∧ lack j l [] (frameAsked j l (prepBound j l) (if b.target ≠ 0 ∧ first ≤ b.target then b.target else first)) = 0
    ∧ (b.target = 0 ∨ first ≤ b.target ∨ b.options.getLsbD 0 = true))

theorem witness_GroupsAndResume :
    (inOrder (owned []) (env (.groupBegin ⟨1, 0⟩)) (.groupBegin ⟨1, 0⟩) = true ∧ isOwner (owned []) 1 = true
      ∧ (owned []).slu.openSession = 0 ∧ journalUsed (owned []) + entryLength (.groupBegin ⟨1, 0⟩) ≤ 65536)
    ∧ (∀ b ∈ [(⟨5, 0, 0, 0⟩ : CommitBody), ⟨5, 21600000, 3, 0⟩, ⟨5, 16, 1, 0⟩], committable b (okey 0x5300 255 1) = true)
    ∧ (committable ⟨5, 2, 0, 0⟩ (okey 0x4200 0 3) = true ∧ committable ⟨5, 1, 1, 0⟩ (okey 0x4200 0 3) = true)
    ∧ (let s : State := { opened (owned []) with slu := { (opened (owned [])).slu with openSet := [⟨okey 0x5300 255 1, .num 1⟩] } }
       let b : CommitBody := ⟨5, 0, 2, 0⟩
       inOrder s (env (.groupCommit b)) (.groupCommit b) = true ∧ (match judge (touch s 1 (env (.groupCommit b))) s.slu.openSet 0 false true 0 with
          | .accept 16 16 _ => true
          | _ => false) = true)
    ∧ (let s := setMany { opened (owned []) with slu := { (opened (owned [])).slu with openSet := [⟨okey 0x5300 255 1, .num 1⟩] } }
         [(Obj.slu.fedTag, 9), (Obj.fed.enable, 1), (Obj.fed.leader, 7)]
       leads s = false ∧ (match judge (touch s 1 (env (.groupCommit ⟨5, 0, 0, 0⟩))) s.slu.openSet 0 false false 9 with
          | .accept 0 0 _ => true
          | _ => false) = true)
    ∧ (∀ q ∈ [4294967168, 4294967295],
       let s := up [(Obj.sess.state 31, 2), (Obj.sess.fencedAt 31, 5), (Obj.sess.nextSeq 31, 4294967168)]
       let e : Envelope := { env (.resume 5) with session := 32, sequence := q }
       2 ≤ stageOf s ∧ inReset s 25 = false ∧ servedAt s e = true ∧ headerBad e (.resume 5) = false ∧ tagOk s e (.resume 5) = true
        ∧ paused s = false ∧ decidedByActive s (.resume 5) = false ∧ sessState s e.session = 2 ∧ natO s (Obj.sess.fencedAt (e.session - 1)) = 5
        ∧ natO s (Obj.sess.nextSeq (e.session - 1)) ≤ q ∧ q ≤ natO s (Obj.sess.nextSeq (e.session - 1)) + 127 ∧ inHand s e = false
        ∧ (session s e.session).held = [] ∧ (session s e.session).results = [] ∧ (session s e.session).skipped = []
        ∧ journalUsed s + entryLength (.resume 5) ≤ 65536) := by decide +kernel

/-- A candidate of session n with priority p. -/
def candidate (n p : Nat) : Candidate := ⟨n, p, true, none⟩

/-- The engine in an election. -/
def electing (l : List Candidate) : State :=
  let s := owned [(Obj.own.ownerState, 1), (Obj.own.ownerSession, 0)]
  { s with ctl := { s.ctl with candidates := l } }

theorem witness_SessionAndElectionTimers :
    (let h : Held := ⟨env (.groupCommit ⟨5, 0, 0, 0⟩), .groupCommit ⟨5, 0, 0, 0⟩⟩
     let g : Held := ⟨env (.yield 9), .yield 9⟩
     (forwarded g.envelope = false ∧ reqCode g.request ≠ 8) ∧ (session (setSession (owned []) 1 { session (owned []) 1 with held := [h] }) 1).held = [h])
    ∧ (sessState (owned other) 1 = 1 ∧ ownerSession (owned other) ≠ some 1 ∧ sessState (owned [(Obj.sess.state 31, 2)]) 32 = 2)
    ∧ (sessState (owned [(Obj.sess.state 31, 3)]) 32 = 3 ∧ ownerSession (owned [(Obj.sess.state 31, 3)]) ≠ some 32)
    ∧ (let s := electing [candidate 1 5, candidate 2 5, candidate 32 4]
       ownerState s = 1 ∧ decidesNothing s = false ∧ isStandby s = false ∧ (winner s (allCandidates s)).isSome = true
        ∧ (∀ c ∈ allCandidates s, (session s c.session).held = []) ∧ natO s Obj.own.ownerEpoch + 1 < 4294967296)
    ∧ (let s := electing []
       ownerState s = 1 ∧ decidesNothing s = false ∧ isStandby s = false ∧ winner s (allCandidates s) = none ∧ natO s Obj.own.ownerEpoch + 1 < 4294967296)
    ∧ (isStandby (paired 1 4 []) = true ∧ (paired 1 4 []).ctl.handover = false ∧ inReset (paired 1 4 []) 25 = false)
    ∧ (∀ open_ ∈ [0, 1], let s : State := { owned [] with slu := { (owned []).slu with openSession := open_ } }
        s.ctl.handover = false ∧ inReset s 25 = false ∧ isStandby s = false ∧ ownerSession s = some 1 ∧ (1 : Nat) ≠ 0 ∧ (session s 1).held = []
          ∧ s.ev.now.find? (fun r => r.event == 230 && r.frame == s.frame) = none) := by decide +kernel

/-- Session 32 with a periodic subscription to OWNER_EPOCH and one to the events 0 to 255. -/
def subscribed : State :=
  let s := owned []
  setSession s 32 { session s 32 with subs := [⟨1, 0, 1, 60000, okey 0x1100 0 6, 0, 0, []⟩, ⟨2, 1, 1, 1, 0, 0, 255, []⟩] }

/-- An active unit in step that waits for the confirmation of request 1 of session 1. -/
def awaiting : State :=
  let s := paired 0 3 []
  { s with ctl := { s.ctl with await := [⟨env (.yield 9), .yield 9, ⟨1, true, 0, 0, 3⟩⟩] } }

/-- The engine before a replay of entries. -/
def replaying (l : List JEntry) : State := { owned [] with ctl := { (owned []).ctl with replay := true, journal := l } }

/-- The journal's entry of an accepted WRITE of SEVERITY of event 255. -/
def entryOf255 (bad : Bool) : JEntry := ⟨6, 2, 1, 1, 0, .write 0x1300 4 (body 255 2 [0x03]), 64, bad, false⟩

theorem witness_PushConfirmReplaySave :
    ((session subscribed 32).subs.find? (fun x => x.id == 1 && x.mode == 1) = some ⟨1, 0, 1, 60000, okey 0x1100 0 6, 0, 0, []⟩
      ∧ (session subscribed 32).subs.find? (fun x => x.id == 2 && x.mode == 1) = some ⟨2, 1, 1, 1, 0, 0, 255, []⟩
      ∧ inReset subscribed 25 = false ∧ (declAt subscribed 0x1100 0 6).isSome = true)
    ∧ (pairState awaiting = 3 ∧ awaiting.ctl.await.any (fun a => a.envelope.session == 1 && a.envelope.sequence == 1) = true)
    ∧ (∀ l ∈ [[], [entryOf255 true], [entryOf255 false]], let s := replaying l
       s.ctl.replay = true ∧ 2 ≤ stageOf s ∧ isActive s = true ∧ inReset s 25 = false ∧ s.ctl.journal = l ∧ s.slu = Sluice.reset)
    ∧ (let s := replaying [entryOf255 false]
       (declAt s 0x1300 255 4).any (fun d => decide (d.effect = .control ∧ d.typ.size ≠ 0 ∧ decodeNum d.typ [0x03] = some 3)) = true
        ∧ replayable s (okey 0x1300 255 4) = true)
    ∧ (declAt (up []) 0x1300 255 8 = some ⟨8, 0, 255, .bool, .rw, .control, true, 0, 1, 0⟩ ∧ Ty.bool.size ≠ 0
      ∧ inReset (up []) 25 = false ∧ 2 ≤ stageOf (up []))
    ∧ ((declAt (up []) 0x1100 0 17).any (fun d => d.persistent && d.typ.size == 0) = true) := by decide +kernel

/-- Destinations 3 and 4 of link group 2, led by 4, both at the end of their search for a crossing. -/
def searching : State :=
  let s := up [(Obj.dest.linkGroup 3, 2), (Obj.dest.linkGroup 4, 2), (Obj.dest.linkLead 4, 1), (Obj.dest.zxTimeout 4, 5)]
  { s with conf := { s.conf with dests := [(3, { Dest.idle with target := some 0, search := some 240 }),
    (4, { Dest.idle with target := some 0, search := some 240 })] } }

/-- Destination 5 at the end of the search of a cut. -/
def cutting : State :=
  { up [] with conf := { (up []).conf with dests := [(5, { Dest.idle with cut := some ⟨9, 1, 0, 64, 64, 5, 0⟩ })] } }

theorem witness_ZxTimeoutsAndMeters :
    (zxGroup cutting 5 = [5] ∧ (destOf cutting 5).cut = some ⟨9, 1, 0, 64, 64, 5, 0⟩
      ∧ (⟨9, 1, 0, 64, 64, 5, 0⟩ : Cut).count = (⟨9, 1, 0, 64, 64, 5, 0⟩ : Cut).limit)
    ∧ (3 ∈ zxGroup searching 3 ∧ 4 ∈ zxGroup searching 3 ∧ (destOf searching 3).target = some 0 ∧ (destOf searching 3).search = some 240
      ∧ (destOf searching 3).ramp = none ∧ 240 ≥ zxSamples searching (leadOf searching 3) ∧ 5 ∉ zxGroup searching 3)
    ∧ (Sparse.wf dfltOf searching.obj = true ∧ leadOf searching 3 = 4 ∧ ∀ m ∈ zxGroup searching 3, (destOf searching m).cut = none)
    ∧ (Sparse.wf (fun _ => Dest.idle) searching.conf.dests = true ∧ Sparse.wf (fun _ => Elem.idle) searching.array.elems = true
      ∧ Sparse.wf (fun _ => BeamSt.idle) searching.array.beams = true ∧ (∀ e ∈ searching.conf.dests, e.1 < 65536)
      ∧ (∀ e ∈ searching.array.elems, e.1 < 65536) ∧ ∀ e ∈ searching.array.beams, e.1 < 65536)
    ∧ (searching.conf.meterRun < natO searching Obj.meter.period
      ∧ natO (setO searching Obj.meter.period 0) Obj.meter.period ≤ searching.conf.meterRun) := by decide +kernel

/-- The TDM ports run in Flowing, group 0 at a position of a media frame, group 1 with two frames heard. -/
def playing (at_ : Nat) (rills : Sparse Rill) (l : List (Nat × Int)) : State :=
  let s := up l
  { s with conf := { s.conf with rills := rills, tdm := { s.conf.tdm with
      running := true, position := [at_, 0, 0, 0], driving := [true, true, false, false]
      heard := [[], [(0, [(128, 7)])], [], []] } } }

/-- Route 255 from the last slot of port 3 (group 0), or from the first of port 4 (group 1), to the last slot of port 3. -/
def routed (inPort inSlot : Nat) : State :=
  playing 0 [(255, { Rill.idle with mode := 2, last := some 0 })]
    [(Obj.rill.inPort 255, inPort), (Obj.rill.inSlot 255, inSlot), (Obj.rill.outPort 255, 3), (Obj.rill.outSlot 255, 31)]

theorem witness_TdmFrames :
    (up []).conf.tdm.running = false
    ∧ (let s := playing (frameSamples (up []) - 1) [] []
       s.conf.tdm.running = true ∧ liveRills s = [] ∧ (([(31, 5), (127, -5)] : List (Nat × Int)).map (·.1)).Nodup ∧ groupOf 127 = 0 ∧ groupOf 128 ≠ 0
        ∧ 127 % 32 < groupSlots s 0 ∧ s.conf.tdm.position[0]? = some (frameSamples s - 1) ∧ 2 ≤ stageOf s ∧ s.conf.tdm.outFade = none
        ∧ groupMaster s 0 = false)
    ∧ (let s := playing 0 [] []
       groupMaster { s with rst := { s.rst with options := s.rst.options.set 121 0x01 } } 0 = true)
    ∧ (∀ x ∈ [(3, 31), (4, 0)], let s := routed x.1 x.2
       liveRills s = [255] ∧ (rillOf s 255).mode = 2 ∧ (rillOf s 255).ramp = none ∧ groupOf (rillOut s 255) = 0
        ∧ rillOut s 255 % 32 < groupSlots s 0 ∧ s.conf.tdm.heard.length = 4 ∧ s.conf.tdm.position[0]? = some 0
        ∧ portDriven s 0 (rillOut s 255 / 32) = true ∧ (rillOf s 255).last = some 0)
    ∧ (groupOf (rillIn (routed 3 31) 255) = 0 ∧ groupOf (rillIn (routed 4 0) 255) = 1)
    ∧ (let s : State := { routed 4 0 with rst := { (routed 4 0).rst with upFrames := 1 } }
       rillSource s 255 (tdmNumber s 0) = some (0, [(128, 7)])) := by decide +kernel

/-- Delay block 7 with taps of cell 127, in a state, with the taps given still due; the cell's schedule is under way where `busy` says so. -/
def delaying (st : Nat) (due fetched : List Nat) (busy : Bool) : State :=
  let s := up [(Obj.eddy.state 7, st)]
  { s with eddy := [(7, { Eddy.empty with taps := List.replicate 16 (127, 32704), due := due, fetched := fetched })]
           cells := if busy then [(127, { Cell.zero with active := true, nextPc := 9 })] else [] }

theorem witness_EddyFetches :
    (∀ busy ∈ [true, false], let s := delaying 1 [15] [] busy
      (eddyOf s 7).taps[15]? = some (127, 32704) ∧ getO s (Obj.eddy.state 7) ≠ 0 ∧ (eddyOf s 7).due.contains 15 = true
        ∧ cellBusy s 127 = busy ∧ cellRuns s 127 = true)
    ∧ (let s := delaying 1 [] [3] false
       getO s (Obj.eddy.state 7) ≠ 0 ∧ (eddyOf s 7).due.contains 15 = false ∧ (eddyOf s 7).fetched.contains 15 = false)
    ∧ (cellRuns (setO (delaying 1 [15] [] false) (Obj.pwr.state 15) 1) 127 = false)
    ∧ (getO (delaying 2 [] [] false) (Obj.eddy.state 7) = 2) := by decide +kernel

theorem witness_ProgramStore :
    (Writes [(Obj.prog.storeSelect, 1)] 0x4000 5 0 4 4 50331648 ∧ natO (owned [(Obj.prog.storeSelect, 1)]) Obj.prog.storeSelect < 2)
    ∧ (acceptedBlob (owned [(Obj.prog.storeLength, 65536)]) (wenv 0x4000 7 0 15 [0x47]) 0x4000 7 (body 0 15 [0x47]) = true
      ∧ natO (owned [(Obj.prog.storeSelect, 0)]) Obj.prog.storeSelect < 2)
    ∧ Writes [] 0x4000 8 0 1 1 1
    ∧ (let s : State := { up [] with prog := { Program.reset with verifying := some 1 } }
       s.prog.verifying = some 1 ∧ swapPending s none = false ∧ (verifyImage (bytesGet s.bus.flash (storeBase 1) (natO s Obj.prog.storeLength)) (natO s Obj.prog.storeLength)
        (natO s Obj.ident.fwVersion) s.rst.rate (programKey s) s.prog.running).2 = none) := by
  unfold Writes; decide +kernel

/-! ## Hypotheses met: groups, federation, Catchment -/

/-- A group of session 1 with one change, for a frame. -/
def group (id target : Nat) (k : Nat) : Group :=
  { id := id, tag := 5, session := 1, target := target, asked := target, firstFeasible := false, sequential := false, fedTag := 0
    changes := [⟨k, .num 1⟩], rest := [], prepared := false, isReady := false, moved := false, phase := 1, bytes := 0, single := false
    beginSeq := 1, seq := id, late := false, prepAt := none, firstAt := none, heldCount := 0 }

/-- The engine with waiting groups. -/
def waitingFor (l : List Group) : State := { up [] with slu := { (up []).slu with waiting := l } }

/-- A program without code, as an image that is staged. -/
def emptyImage : Image := ⟨0, [], 0, 0, [], [], [], [], [], [], [], [], none⟩

/-- A unit of a pair with one waiting group, in step. -/
def pairWaiting (role : Nat) (g : Group) : State :=
  let s := paired role (if role = 0 then 3 else 4) []
  { s with slu := { s.slu with waiting := [g] } }

theorem witness_GroupTests :
    (let s := waitingFor [group 4 0 (okey 0x5300 255 1)]
     s.slu.coord = none ∧ s.slu.heldFed = none ∧ ∀ g ∈ s.slu.waiting, g.id = 4 → swapOf g.changes = none)
    ∧ (let g := group 4 0 (okey 0x4000 0 13)
       let s : State := { waitingFor [g] with prog := { Program.reset with staged := some emptyImage } }
       s.slu.waiting = [g] ∧ g.prepAt = none ∧ g.prepared = false ∧ swapOf g.changes ≠ none ∧ s.prog.staged = some emptyImage)
    ∧ (let g := { group 4 0 (okey 0x5300 255 1) with fedTag := 9 }
       let s : State := { up [(Obj.fed.enable, 1), (Obj.fed.members, 0x88)] with slu := { (up []).slu with coord := some g } }
       s.slu.coord = some g ∧ s.slu.heldFed = none ∧ (otherMembers s).isEmpty = false ∧ s.slu.waiting = [] ∧ swapOf g.changes = none)
    ∧ (let g := { group 4 0 (okey 0x5300 255 1) with fedTag := 9 }
       let s : State := { up [] with slu := { (up []).slu with heldFed := some g, fedAsk := some (9, 64) } }
       s.slu.coord = none ∧ s.slu.heldFed = some g ∧ g.prepared = false ∧ g.prepAt = none ∧ s.slu.fedAsk = some (g.fedTag, 64)
        ∧ s.slu.waiting = [] ∧ swapOf g.changes = none)
    ∧ (∀ role ∈ [0, 1], let g := { group 4 2 (okey 0x5300 255 1) with prepared := true }
       let s := pairWaiting role g
       waitingGroup s 4 = some g ∧ g.phase ≠ 4 ∧ inReset s 25 = false ∧ g.target = s.frame + 2 ∧ isStandby s = (role == 1)
        ∧ g.isReady = false ∧ complete s g true = true ∧ confirms s = (role == 0) ∧ (∀ c ∈ g.changes, c.object ≠ Obj.tb.rebase)
        ∧ decidesNothing s = false)
    ∧ (confirms (waitingFor []) = false ∧ isStandby (waitingFor []) = false ∧ decidesNothing (waitingFor []) = false)
    ∧ (∀ first ∈ [true, false], let g := { group 4 2 (okey 0x5300 255 1) with firstFeasible := first }
        let s := waitingFor [g]
        waitingGroup s 4 = some g ∧ inReset s 25 = false ∧ g.target = s.frame + 2 ∧ complete s g true = false
          ∧ g.firstFeasible = first ∧ g.moved = false)
    ∧ (let g := group 4 1 (okey 0x4000 0 13)
       let s := waitingFor [g]
       waitingGroup s g.id = some g ∧ g.phase ≠ 4 ∧ skipped s g = true ∧ 0 < boundLeft s g)
    ∧ (let g := group 4 1 (okey 0x4000 0 13)
       let h := { group 3 0 (okey 0x4000 0 13) with asked := 2 }
       let s := waitingFor [h, g]
       waitingGroup s g.id = some g ∧ h.phase ≠ 4 ∧ g.id ≠ h.id ∧ skipped s g = true ∧ skipped s h = true ∧ g.asked < h.asked
        ∧ 0 < boundLeft s g)
    ∧ (∀ ready ∈ [true, false], let g := { group 4 2 (okey 0x5300 255 1) with phase := 4, prepared := ready, moved := !ready }
        let s := waitingFor [g]
        waitingGroup s 4 = some g ∧ g.phase = 4 ∧ g.target = s.frame + 2 ∧ g.isReady = false ∧ complete s g true = ready) := by
  refine ⟨?_, ?_, ?_, ?_, ?_, ?_, ?_, ?_, ?_, ?_⟩ <;> decide +kernel

/-- A DIRECT write of a stored order, for a frame. -/
def direct (order frame k : Nat) : Direct := ⟨order, frame, 1, order, ⟨k, .num 1⟩⟩

/-- A ready group for the next boundary. -/
def readyGroup (id phase : Nat) (rest : List (List Change × Nat)) : Group :=
  { group id 1 (okey 0x5300 255 1) with isReady := true, phase := phase, rest := rest }

theorem witness_ChangesApply :
    (let s : State := { up [] with slu := { (up []).slu with direct := [direct 1 2 (okey 0x4210 255 1)] } }
     s.ctl.replay = false ∧ 2 ≤ stageOf s ∧ ∀ d ∈ s.slu.direct, s.frame + 1 < d.frame)
    ∧ (∀ blocked ∈ [true, false], let d := direct 1 1 (okey 0x6000 0 1)
       let s : State := { up [] with
         slu := { (up []).slu with direct := [d] }
         rst := { (up []).rst with blocks := if blocked then [(15, ⟨9, false, false⟩)] else [] }
         prog := { Program.reset with running := some { emptyImage with dict := [⟨0x6000, 1, 1, 10, 1, 1, 127, 0, 1, 0⟩] } } }
       dueAt s (s.frame + 1) = [.direct d] ∧ keyBlocked s d.change.object = blocked)
    ∧ (let d := direct 5 1 (okey 0x4210 255 1)
       let g := readyGroup 4 2 []
       let h := readyGroup 6 2 []
       let s : State := { waitingFor [g, h] with slu := { (waitingFor [g, h]).slu with direct := [d] } }
       dueAt s (s.frame + 1) = [.group g] ++ .direct d :: [.group h] ∧ (∀ x ∈ [Due.group h], x.isDirect = false)
        ∧ dueAt s (s.frame + 1) = [.group g, .direct d] ++ .group h :: [])
    ∧ (∀ ph ∈ [2, 4], ∀ rest ∈ [[], [([⟨okey 0x5300 254 1, .num 1⟩], 0)]],
        let g := readyGroup 4 ph rest
        let s := waitingFor [g]
        waitingGroup s 4 = some g ∧ g.isReady = true ∧ g.target = s.frame + 1 ∧ g.fedTag = 0 ∧ g.rest = rest
          ∧ dueAt s (s.frame + 1) = [.group g])
    ∧ (let s : State := { up [] with slu := { (up []).slu with heldFed := some (group 4 0 (okey 0x5300 255 1)) } }
       s.slu.heldFed = some (group 4 0 (okey 0x5300 255 1)) ∧ s.slu.prepareSeen = false ∧ isStandby s = false ∧ s.slu.waiting = []
        ∧ s.slu.coord = none) := by
  decide +kernel

/-- A federated engine of identity 3 whose link BL4 is ACTIVE. -/
def member (l : List (Nat × Int)) : State :=
  let s := up ([(Obj.link.state 4, 6), (Obj.fed.enable, 1), (Obj.fed.members, 0x88)] ++ l)
  { s with pins := { s.pins with fedId := 3 } }

/-- A federation message of kind 21h from member 7: its type, tag 9, frame and information. -/
def fedMsg (typ frame info : Nat) : BraidFrame :=
  message 4 1 (natBE 0x21 1 ++ natBE typ 1 ++ natBE 7 1 ++ [0x00] ++ natBE 9 4 ++ natBE frame 6 ++ [0x00, 0x00] ++ natBE info 8)

def accepts : Verdict → Bool
  | .accept _ _ _ => true
  | .nak _ _ _ => false

theorem accepts_of {v : Verdict} (h : accepts v = true) : ∃ t i w, v = .accept t i w := by
  cases v with
  | accept t i w => exact ⟨t, i, w, rfl⟩
  | nak _ _ _ => cases h

/-- The group of tag 9 that a member holds or a coordinator leads. -/
def tagged (prepared : Bool) (target : Nat) : Group := { group 4 target (okey 0x5300 255 1) with fedTag := 9, prepared := prepared }

/-- An engine as a standby in step; a member that holds a group; a coordinator. -/
def standby (s : State) : State :=
  { setMany s [(Obj.pair.role, 1), (Obj.pair.state, 4)] with rst := { s.rst with pairEnable := true }, pair := { s.pair with watching := 0 } }
def holding (g : Group) : State := { member [] with slu := { (member []).slu with heldFed := some g, fedAsk := some (9, 64) } }
def leading (g : Group) : State := { member [] with slu := { (member []).slu with coord := some g } }

/-- The engine as a PREPARE of the held group finds it once it is journaled, without the held group. -/
def atPrepare (s : State) : State :=
  let p := journalDecision (afterFed s (fedMsg 1 64 0)) (.fedPhase false 1 9 64 0)
  { p with slu := { s.slu with prepareSeen := true, fedAsk := some (9, 64), heldFed := none } }

theorem taken_of {s : State} {f : BraidFrame} {k : Nat} (h : ((receive s f).2 && decide (msgField f 0 1 = k)) = true) : takenAs s f k := by
  simp only [Bool.and_eq_true, decide_eq_true_eq] at h
  exact h

theorem refuses_of {v : Verdict} (h : (match v with | .accept _ _ _ => false | .nak code _ _ => code != 10) = true) :
    ∃ code i w, v = .nak code i w ∧ code ≠ 10 := by
  cases v with
  | accept _ _ _ => cases h
  | nak code i w => exact ⟨code, i, w, rfl, by simpa using h⟩

/-- A message of type `typ` meets an engine: delivered, of its kind, type and frame, not its own. -/
def fedMeets (s : State) (typ : Nat) : Bool :=
  let f := fedMsg typ 64 0
  (receive s f).2 && decide (msgField f 0 1 = 0x21 ∧ fedOn s = true ∧ inReset s 25 = false ∧ msgField f 2 1 ≠ s.pins.fedId
    ∧ msgField f 1 1 = typ ∧ msgField f 4 4 = 9 ∧ msgField f 8 6 = 64)

theorem witness_FederatedCommits :
    (∀ typ ∈ [1, 2, 3, 4, 5], fedMeets (standby (member [])) typ = true ∧ isStandby (standby (member [])) = true)
    ∧ (fedMeets (member []) 1 = true ∧ isStandby (member []) = false ∧ (member []).slu.heldFed = none)
    ∧ (∀ x ∈ [(true, 0), (false, 57), (false, 56)], let g := tagged x.1 0
        let s : State := { holding g with slu := { (holding g).slu with fedReady := x.2 } }
        fedMeets s 1 = true ∧ s.slu.heldFed = some g ∧ g.fedTag = 9 ∧ g.prepared = x.1 ∧ (64 < s.slu.fedReady + 8 ↔ x.2 = 57))
    ∧ (∃ t i w, judge (atPrepare (holding (tagged true 0))) (tagged true 0).all 0 true false 0 = .accept t i w)
    ∧ (∃ code i w, judge (atPrepare (setMany (holding (tagged true 0)) [(Obj.pair.state, 2)])) [⟨okey 0x4000 0 13, .num 1⟩] 0 true false 0
        = .nak code i w ∧ code ≠ 10)
    ∧ (∀ p ∈ [true, false], ∀ more ∈ [(0x88 : Int), 0xC8], let g := tagged p 64
        let s := setO (leading g) Obj.fed.members more
        fedMeets s 2 = true ∧ s.slu.coord = some g ∧ g.fedTag = 9 ∧ g.target = 64 ∧ s.slu.answers.contains 7 = false ∧ g.prepared = p
          ∧ (otherMembers s).all (7 :: s.slu.answers).contains = (more == 0x88) ∧ (otherMembers s).isEmpty = false)
    ∧ (fedMeets (leading (tagged true 64)) 3 = true)
    ∧ (fedMeets (holding (tagged true 0)) 4 = true ∧ fedMeets (holding (tagged true 0)) 5 = true
      ∧ (holding (tagged true 0)).slu.fedAsk = some (9, 64))
    ∧ (∀ x ∈ [(true, [7]), (true, []), (false, [7])], let g := tagged x.1 6
        let s : State := { leading g with slu := { (leading g).slu with answers := x.2 } }
        s.slu.coord = some g ∧ g.target ≤ s.frame + 6 ∧ isStandby s = false ∧ decidesNothing s = false ∧ g.prepared = x.1
          ∧ allReady s = !x.2.isEmpty)
    ∧ (let s : State := { member [] with slu := { (member []).slu with fedAsk := some (9, 2) } }
       s.slu.fedAsk = some (9, 2) ∧ 2 ≤ s.frame + 2 ∧ isStandby s = false ∧ decidesNothing s = false) := by
  refine ⟨by decide +kernel, by decide +kernel, by decide +kernel, accepts_of (by decide +kernel), refuses_of (by decide +kernel), ?_,
    by decide +kernel, by decide +kernel, by decide +kernel, by decide +kernel⟩
  decide +kernel

/-- A federation part of member 7 without slots, for a frame. -/
def fedPart (frame : Nat) : BraidFrame :=
  let p : FedPart := ⟨7, false, true, false, false, frame, 7, 0, 0, 0, 0, 0, 0, 0, 0x88, [], [], 0⟩
  message 4 0 ([0x20] ++ partBytes p)

theorem witness_FederationFrames :
    (takenAs (member []) (fedPart 1) 0x20 ∧ takenAs (member []) (fedPart 6) 0x20 ∧ takenAs { member [] with frame := 9 } (fedPart 8) 0x20)
    ∧ (fedOn (member []) = true ∧ partOk (member []) (frameBytes (fedPart 6)) = true
      ∧ partOk { member [] with frame := 9 } (frameBytes (fedPart 8)) = true
      ∧ (parsePart (frameBytes (fedPart 6))).member ≠ (member []).pins.fedId
      ∧ (member []).frame < (parsePart (frameBytes (fedPart 1))).frame ∧ (parsePart (frameBytes (fedPart 6))).frame ≤ (member []).frame + 6
      ∧ (member []).fed.parts.any (samePart (parsePart (frameBytes (fedPart 6)))) = false ∧ (parsePart (frameBytes (fedPart 8))).frame + 1 ≤ 9)
    ∧ (takenAs (member []) (message 4 0 (natBE 0x22 1 ++ natBE 0 7 ++ natBE 2 1)) 0x22 ∧ (member []).fed.hops.length = 2
      ∧ (member []).sel.entries.length = 8 ∧ natO (member []) Obj.fed.leader ≠ 3)
    ∧ (let s : State := { member [] with fed := { (member []).fed with missing := List.replicate 8 6 } }
       fedOn s = true ∧ (otherMembers s).contains 7 = true ∧ s.fed.missing.getD 7 0 = 6)
    ∧ (∀ bit ∈ [1, 2], let s : State := { member [(Obj.fed.mismatch, 7)] with fed := { (member []).fed with goodVersion := 60, goodTime := 60 } }
        60 ≤ s.fed.goodVersion ∧ 60 ≤ s.fed.goodTime ∧ memberBit s Obj.fed.mismatch bit = true) :=
  ⟨⟨taken_of (by decide +kernel), taken_of (by decide +kernel), taken_of (by decide +kernel)⟩, by decide +kernel,
    ⟨taken_of (by decide +kernel), by decide +kernel, by decide +kernel, by decide +kernel⟩, by decide +kernel, by decide +kernel⟩

/-- An array block of one channel, 127, for a frame, with version v. -/
def arrayMsg (v frame : Nat) : BraidFrame :=
  let b := natBE v 1 ++ natBE 0 7 ++ natBE frame 6 ++ natBE 127 1 ++ natBE 1 1 ++ List.replicate 44 0x00
  message 3 0 (b ++ natBE (crc32 b) 4)

def array : State := up [(Obj.link.state 2, 6), (Obj.link.state 3, 6)]

/-- A snapshot of two channels being computed, and saturated. -/
def snapshot : Snapshot := { Snapshot.none with number := 3, satur := [0], isPartial := true, groups := [0] }

/-- An array block's bytes reach the engine. -/
def arrayMeets (s : State) (v frame : Nat) : Bool :=
  (receive s (arrayMsg v frame)).2 && !inReset s 16 && decide ((arrayMsg v frame).link = 3)

/-- Areas for the snapshots computed, from generation `since` on. -/
def area (since : Nat) : SlotArea := ⟨65536, 131072, 65536, [Snapshot.none, Snapshot.none], since⟩

def computed (l : List SlotArea) (from_ : Nat) : State :=
  { up [] with array := { (up []).array with exactFrom := from_, corr := { (up []).array.corr with computing := [snapshot], areas := l } } }

theorem witness_IngestAndSnapshots :
    (∀ x ∈ [(1, 0), (2, 0), (1, 64)], arrayMeets array x.1 x.2 = true)
    ∧ blockBad array (frameBytes (arrayMsg 2 0)) = true
    ∧ (blockBad array (frameBytes (arrayMsg 1 64)) = false ∧ array.frame < (parseBlock 3 (frameBytes (arrayMsg 1 0))).frame + 2)
    ∧ (let s : State := { array with frame := 2 }
       arrayMeets s 1 0 = true ∧ blockBad s (frameBytes (arrayMsg 1 0)) = false
        ∧ (parseBlock 3 (frameBytes (arrayMsg 1 0))).frame + 2 ≤ s.frame)
    ∧ (let s : State := { up [(Obj.chan.lookbackLength, 4)] with frame := 32, array := { (up []).array with running := true, nextIn := 128 } }
       catchRuns s = true ∧ availFrame s s.array.nextSub ≤ s.frame ∧ 128 * s.array.nextSub + 128 ≤ s.array.nextIn
        ∧ (∀ e ∈ activeAt s (16 * s.array.nextSub), e < 65536) ∧ natAt s 0 Obj.chan.lookbackLength ≠ 0
        ∧ s.array.lookFrom ≤ s.array.nextSub ∧ numAt s 0 Obj.chan.lookbackFreeze ≠ 1)
    ∧ (snapshot.readyFrame ≤ (computed [] 1).frame ∧ 16 * snapshot.start < (computed [] 1).array.exactFrom)
    ∧ (∀ l ∈ [[area 0], [area 0, area 0]], let s := computed l 0
       s.array.corr.computing = snapshot :: [] ∧ s.array.exactFrom ≤ 16 * snapshot.start ∧ s.array.corr.areas = l.dropLast ++ [area 0]
        ∧ (∀ o ∈ l.dropLast, l.dropLast = [o] ∧ (area 0).since ≤ snapshot.gen) ∧ (area 0).snaps.length = 2
        ∧ 0 < blockCount snapshot.groups.length) := by decide +kernel

theorem witness_BeamsAndMaps :
    (let on : BeamCfg := ⟨true, 1, 0, []⟩
     ∀ v ∈ [{ BeamSt.idle with live := on }, { BeamSt.idle with fading := some (on, BeamCfg.off, 0, 16) },
        { BeamSt.idle with next := [(0, on, 16)] }],
       let s : State := { up [] with array := { (up []).array with running := true, beams := [(255, v)] } }
       catchRuns s = true ∧ (beamOf s 255).late = false
        ∧ (({ beginFade (beamOf s 255) s.array.nextSub with next := [] } : BeamSt).sides.any (fun c => c.on && c.mode == 1)) = true)
    ∧ (let d : MapDone := ⟨0, 0, 0, 0, 1, 1, 1, 64, 16, false, [], 0⟩
       let s : State := { up [] with frame := 48, array := { (up []).array with ended := [d] } }
       s.array.ended = d :: [] ∧ availFrame s d.last + 16 ≤ s.frame ∧ d.satur = 0 ∧ s.array.mapOut = none) := by decide +kernel

/-! ## Hypotheses met: Braid links -/

/-- Link 5 in a training state, with its lanes in block lock. -/
def link5 (st : Nat) (lanes : List Nat) : State :=
  up ((Obj.link.state 5, (st : Int)) :: lanes.map (fun i => (Obj.lane.locked (laneNo 5 i), 1)))

def tunedLane : LaneSt := { LaneSt.idle with tuned := true, partnerReady := true }

/-- Link 5 in TX_TUNE with lanes tuned in both directions. -/
def tuned5 (lanes : List Nat) : State :=
  let s := link5 4 lanes
  setLink (lanes.foldl (fun s i => setLane s 5 i tunedLane) s) 5 { linkOf s 5 with partnerWidth := lanes.length }

/-- A TRAIN block of a lane of link 5 in DESKEW, ready, width 8, no spare, a request for one step of PRE with REQ_ID 3, an echo of 0. -/
def trainBlock (lane : Fin 9) (satisfied : Bool) (ask : Fin 4 × Fin 4) : TrainBlock :=
  ⟨lane, mkBlock 2 [0x2D, BitVec.ofNat 8 (0xB0 + lane.val), 0x43, 0x00, 0x08, 0x0F, 0x00, 0x00], satisfied, ask, [0, 0, 0, 0, 0, 0]⟩

/-- Link 5 in a state with lane 0 as given. -/
def lane0 (st : Nat) (v : LaneSt) : State := setLane (link5 st []) 5 0 v

theorem witness_LinkTraining :
    (∀ st ∈ [1, 2, 3, 4, 5, 6, 7], linkState (link5 st [9]) 5 = st) ∧ (pairRuns (link5 2 [9]) = false ∧ laneLocked (link5 2 [9]) 5 9 = true)
    ∧ ((∀ i, i < 9 → laneLocked (link5 2 [0, 1, 2, 3, 4, 5, 6, 7, 8]) 5 i = true) ∧ laneLocked (link5 2 []) 5 8 = false)
    ∧ (∀ i, i < 9 → i ≠ 8 → laneLocked (link5 3 [0, 1, 2, 3, 4, 5, 6, 7]) 5 i = true)
    ∧ (trainOk (trainBlock 0 true (0, 0)) = true ∧ trainOk (trainBlock 8 false (1, 0)) = true
      ∧ trainOk ⟨0, idleBlock, true, (0, 0), [0, 0, 0, 0, 0, 0]⟩ = false)
    ∧ ((trainBlock 8 true (0, 0)).block.byte 1 / 32 = 5 ∧ (trainBlock 8 true (0, 0)).block.byte 2 % 16 = 3
      ∧ (laneOf (link5 4 []) 5 8).lastReq ≠ some 3 ∧ (laneOf (lane0 6 { LaneSt.idle with lastReq := some 3 }) 5 0).lastReq = some 3)
    ∧ ((laneOf (link5 4 []) 5 0).waiting = false ∧ ((1, 0) : Fin 4 × Fin 4) ≠ (0, 0)
      ∧ (laneOf (lane0 4 { LaneSt.idle with waiting := true }) 5 0).waiting = true)
    ∧ (let s := setLink (link5 5 []) 5 { linkOf (link5 5 []) 5 with deskewed := true }
       linkState s 5 = 5 ∧ (linkOf s 5).deskewed = true)
    ∧ (chooseWidth (link5 3 []) 5 false).isSome = false ∧ (chooseWidth (link5 3 [0]) 5 false).isSome = true
    ∧ (let s := tuned5 [0, 1, 2, 3, 4, 5, 6, 7]
       linkState s 5 = 4 ∧ chooseWidth s 5 true = some (8, none) ∧ partnerTuned s 5 false = true)
    ∧ (∀ w ∈ [0, 8], let s := tuned5 [0, 1, 2, 3, 4, 5, 6, 7]
       let s := setLink s 5 { linkOf s 5 with partnerWidth := 0, width := w }
       linkState s 5 = 4 ∧ chooseWidth s 5 true = some (8, none) ∧ partnerTuned s 5 false = false ∧ (linkOf s 5).width = w)
    ∧ (linkState (link5 4 [0]) 5 = 4 ∧ chooseWidth (link5 4 [0]) 5 true = none) := by decide +kernel

/-- Lane 7 of link 5 in block lock, with a role; the link in a state; lane 8 the idle spare where `spare` says so. -/
def lane7 (st role : Nat) (spare : Bool) : State :=
  up ([(Obj.link.state 5, (st : Int)), (Obj.lane.role (laneNo 5 7), (role : Int)), (Obj.lane.locked (laneNo 5 7), 1),
      (Obj.link.txWidth 5, 8)]
    ++ if spare then [(Obj.lane.locked (laneNo 5 8), 1), (Obj.lane.role (laneNo 5 8), 1)] else [])

/-- A marker of lane 7 of the partner's link 5, with a BIP and count 1, after an interval of one block. -/
def mark (bip : Nat) : MarkerBlock :=
  ⟨mkBlock 2 ([0x4B, 0x57, 0x07] ++ natBE bip 1 ++ natBE 1 4), [⟨1, 0x0100000000000000⟩], 100, List.replicate 6 0⟩

/-- A sparing message of link 5 for logical lane 7. -/
def spareMsg (kind : Nat) : BraidFrame := message 5 1 (natBE kind 1 ++ natBE 7 1 ++ natBE 0x96 1 ++ natBE 0 1)

/-- Link 5 active with a sparing of its transmit side in progress, or of its receive side. -/
def sparing (copying : Bool) : State :=
  let s := lane7 6 0 true
  setLink s 5 { linkOf s 5 with txSpare := some ⟨7, copying, true, true⟩ }
def spared (copying checks : Bool) : State :=
  let s := lane7 6 0 true
  setLink s 5 { linkOf s 5 with rxSpare := some ⟨7, copying, checks, true⟩ }

theorem witness_LaneCommands :
    (laneLocked (lane7 2 0 false) 5 7 = true ∧ linkActive (lane7 2 0 false) 5 = false)
    ∧ (linkActive (lane7 6 1 true) 5 = true ∧ laneRole (lane7 6 1 true) 5 7 = 1)
    ∧ (laneLocked (lane7 6 1 true) 5 8 = true ∧ laneRole (lane7 6 1 true) 5 8 = 1 ∧ (linkOf (lane7 6 1 true) 5).rxSpare = none)
    ∧ (∀ c ∈ [true, false], linkActive (spared true c) 5 = true ∧ laneLocked (spared true c) 5 8 = true
        ∧ (linkOf (spared true c) 5).rxSpare = some ⟨7, true, c, true⟩ ∧ (linkOf (spared false c) 5).rxSpare = some ⟨7, false, c, true⟩)
    ∧ (linkActive (lane7 6 0 true) 5 = true ∧ laneRole (lane7 6 0 true) 5 7 = 0 ∧ spareFree (lane7 6 0 true) 5 = true
      ∧ spareFree (lane7 6 0 false) 5 = false)
    ∧ laneLocked (lane7 6 0 false) 5 8 = false
    ∧ (markerOk (mark 1).block = true ∧ markerOk idleBlock = false ∧ bip8 (mark 1).since = 128 ∧ (mark 128).block.byte 3 = bip8 (mark 128).since
      ∧ (mark 1).block.byte 3 ≠ bip8 (mark 1).since ∧ qualifying (mark 0).since < 4096 ∧ badHeaders (mark 0).since = 0
      ∧ (laneOf (setLane (lane7 6 0 false) 5 7 { LaneSt.idle with bipArmed := true }) 5 7).bipArmed = true)
    ∧ (qualifying (List.replicate 4096 (⟨1, 0⟩ : LinkBlock)) ≥ 4096 ∧ badHeaders [⟨0, 0⟩] ≠ 0)
    ∧ (let m : MarkerBlock := { mark 0 with block := mkBlock 2 [0x4B, 0x58, 0x87, 0x00, 0x00, 0x00, 0x00, 0x01] }
       markerOk m.block = true ∧ copiesLane m.block 7 = true)
    ∧ (let s := setLane (link5 5 [0]) 5 0 { LaneSt.idle with lastCount := some 0 }
       let s := setLink s 5 { linkOf s 5 with width := 1 }
       linkState s 5 = 5 ∧ (linkOf s 5).deskewed = false ∧ usedLanes (linkOf s 5).width (linkOf s 5).spareLane = [0]
        ∧ (laneOf s 5 0).lastCount.any (fun c => (c + 1) % 4294967296 == (mark 0).block.field 4 4) = true)
    ∧ (15 : Fin 16).val ≠ 0
    ∧ (let s := setO (lane7 6 0 true) (Obj.lane.pilotErrors (laneNo 5 7)) 11
       natO s (Obj.link.berThreshold 5) < natO s (Obj.lane.pilotErrors (laneNo 5 7)) - (laneOf s 5 7).pilotBase ∧ laneRole s 5 7 = 0
        ∧ linkActive s 5 = true ∧ spareFree s 5 = true)
    ∧ (let s := setLane (lane7 6 3 false) 5 7 { LaneSt.idle with tuned := true, agreed := true }
       linkActive s 5 = true ∧ laneRole s 5 7 = 3 ∧ retrained s 5 7 = true)
    ∧ ((linkOf (sparing true) 5).txSpare = some ⟨7, true, true, true⟩)
    ∧ ((receive (lane7 6 0 true) (spareMsg 0xF0)).2 = true ∧ msgField (spareMsg 0xF0) 0 1 = 0xF0 ∧ (linkOf (lane7 6 0 true) 5).txSpare = none
      ∧ natO (lane7 6 0 true) (Obj.link.txSpareFor 5) = 255 ∧ msgField (spareMsg 0xF0) 1 1 < natO (lane7 6 0 true) (Obj.link.txWidth 5))
    ∧ ((receive (sparing true) (spareMsg 0xF1)).2 = true ∧ msgField (spareMsg 0xF1) 0 1 = 0xF1 ∧ msgField (spareMsg 0xF1) 1 1 = 7)
    ∧ ((receive (sparing false) (spareMsg 0xF2)).2 = true ∧ msgField (spareMsg 0xF2) 0 1 = 0xF2)
    ∧ ((receive (lane7 6 0 true) (spareMsg 0xF3)).2 = true ∧ msgField (spareMsg 0xF3) 0 1 = 0xF3
      ∧ (laneOf (lane7 6 0 true) 5 7).lastReq ≠ some (msgField (spareMsg 0xF3) 2 1 % 16))
    ∧ (let s := setLane (lane7 6 0 true) 5 7 { LaneSt.idle with lastReq := some 6, waiting := true }
       (laneOf s 5 7).lastReq = some (msgField (spareMsg 0xF3) 2 1 % 16) ∧ msgField (spareMsg 0xF3) 3 1 % 16 = (laneOf s 5 7).reqId) := by
  refine ⟨?_, ?_, ?_, ?_, ?_, ?_, ?_, ?_, ?_, ?_, ?_, ?_, ?_, ?_, ?_, ?_, ?_, ?_, ?_⟩ <;> decide +kernel

/-! ## Hypotheses met: network and time -/

/-- Receive stream 511 on path B, of one channel of 6 samples of 3 bytes. -/
def listening (path : Fin 2) (l : List (Nat × Int)) : State :=
  up ([(Obj.rx.enable 511, 1), (if path = 0 then Obj.rx.groupA 511 else Obj.rx.groupB 511, 0xEF000001), (Obj.rx.udpPort 511, 5004),
    (Obj.rx.channels 511, 1), (Obj.rx.payloadType 511, 98), (Obj.rx.packetTime 511, 0), (Obj.rx.encoding 511, 0)] ++ l)

/-- A packet of that stream with a time stamp. -/
def packet (ts : Nat) : RtpPacket := ⟨0xEF000001, 7, 5004, 2, false, 0, 98, 9, ts, 1, List.replicate 18 0x00⟩

/-- The packet is what the stream asks for. -/
def goodPacket (s : State) (path : Fin 2) (p : RtpPacket) : Bool :=
  let size := packetSamples s.rst.rate (natO s (Obj.rx.packetTime 511))
  (rxSource s 511 path == 0 || rxSource s 511 path == p.src) && p.version == 2 && !p.extension && p.csrcCount == 0
    && p.payloadType == natO s (Obj.rx.payloadType 511)
    && p.payload.length == natO s (Obj.rx.channels 511) * size * (if natO s (Obj.rx.encoding 511) = 0 then 3 else 2)

/-- First sample index of a packet of the stream. -/
def firstIndex (s : State) (p : RtpPacket) : Int :=
  nearestIndex ((p.timestamp : Int) - getO s (Obj.rx.rtpOffset 511) - getO s Obj.tb.tsShift) (sampleIndex s s.frame)
    + getO s (Obj.rx.linkOffset 511)

def isEarly (s : State) (p : RtpPacket) : Bool :=
  let size := packetSamples s.rst.rate (natO s (Obj.rx.packetTime 511))
  decide (s.frame + 240 < (firstIndex s p + size - 1).fdiv (frameSamples s : Nat))

/-- Transmit stream 511 with its next packet, in Flowing, with port 0 up. -/
def sending (l : List (Nat × Int)) (until_ : List (Nat × Nat)) : State :=
  let s := up ([(Obj.tx.enable 511, 1), (Obj.tx.paths 511, 1), (Obj.tx.packetTime 511, 0)] ++ l)
  { s with frame := 9, net := { s.net with txNext := [(511, 1)], txUntil := until_ } }

theorem witness_StreamCommands :
    (∀ path : Fin 2, let s := listening path []
      pathRuns s path = true ∧ getO s (Obj.rx.enable 511) ≠ 0 ∧ rxGroup s 511 path ≠ 0 ∧ rxGroup s 511 path = (packet 0).dst
        ∧ natO s (Obj.rx.udpPort 511) = (packet 0).port ∧ (∀ m, m < 511 → getO s (Obj.rx.enable m) = 0))
    ∧ (goodPacket (listening 1 []) 1 (packet 0) = true ∧ goodPacket (listening 1 []) 1 { packet 0 with version := 1 } = false)
    ∧ (isEarly (listening 1 []) (packet 100000) = true ∧ isEarly (listening 1 []) (packet 0) = false)
    ∧ (let s := listening 1 [(Obj.rx.linkOffset 511, 0)]
       (0 : Int) ≤ firstIndex s (packet 0) ∧ firstIndex s (packet 4294967295) < 0 ∧ isEarly s (packet 4294967295) = false
        ∧ s.net.seen.any (fun e => e.1 == 511 && e.2.1 == 9) = false
        ∧ s.net.copies.any (fun c => c.stream == 511 && c.path == 1 && c.seq == 9) = false)
    ∧ (let s : State := { listening 1 [] with net := { (listening 1 []).net with seen := [(511, 9, 3)] } }
       s.net.seen.any (fun e => e.1 == 511 && e.2.1 == 9) = true ∧ isEarly s (packet 0) = false)
    ∧ (let s := listening 1 []
       getO s (Obj.rx.enable 511) = 1 ∧ rxGroup s 511 1 ≠ 0 ∧ s.net.lossSeen.contains (2 * 511 + 1) = false)
    ∧ (Sparse.get (fun _ => 0) (sending [] [(511, 0)]).net.txNext 511 = 0 + 1 ∧ 3 ≤ stageOf (sending [] [(511, 0)])
      ∧ assocGet (sending [] [(511, 0)]).net.txUntil 511 = some 0)
    ∧ (∀ link ∈ [0, 1], let s := sending [(Obj.port.link 0, link)] []
        assocGet s.net.txUntil 511 = none ∧ (packetSamples s.rst.rate (natO s (Obj.tx.packetTime 511)) - 1) / frameSamples s ≤ s.frame
          ∧ natO s (Obj.tx.paths 511) = 1 ∧ sendsPacket s 0 0 = true ∧ pathUp s 0 = (link == 1))
    ∧ (let s : State := { listening 1 [] with frame := 1000 }
       s.frame + 240 ≥ (firstIndex s (packet 0) + 5).fdiv (frameSamples s : Nat) ∧ (firstIndex s (packet 0) + 5).fdiv (frameSamples s : Nat) + 61 < s.frame)
    ∧ (∀ p : Fin 5, portUp (up [(Obj.port.link p, 1)]) p = true ∧ (up []).net.paths.length = 2
        ∧ (pathOf (up []) (p / 2)).queues.length = 3)
    ∧ (∀ p : Fin 5, getO (up [(Obj.port.enable p, 1)]) (Obj.port.enable p) ≠ 0 ∧ 2 ≤ stageOf (up [(Obj.port.enable p, 1)])
        ∧ (p.val < 4 → inReset (up [(Obj.port.enable p, 1)]) (pathBlock (p / 2)) = false)) := by decide +kernel

/-- Path B with its two external ports up, and one address learned at port 1. -/
def switching (l : List (Nat × Int)) (dst : Nat) : State :=
  let s := up ([(Obj.port.link 2, 1), (Obj.port.link 3, 1)] ++ l)
  { s with net := { s.net with paths := [PathSt.idle, { PathSt.idle with macs := [(dst, 1)] }] } }

/-- A frame of a length between two stations. -/
def frameOf (dst length : Nat) (sound : Bool) (sent : Nat × Nat × Nat) : EthFrame :=
  ⟨dst, 6, none, 0x88B5, length, sound, 0, 0, 0, 0, 0, 0, none, (0, 0), sent⟩

/-- Path B is the ring breaker, in a ring state. -/
def ring (st : Nat) : State := switching [(Obj.ifc.ringBlock 6, 1), (Obj.ifc.ringState 6, st)] 2

/-- Path B with frames in the lowest queue of port 1. -/
def queued (l : List (Nat × EthFrame)) : State :=
  let s := switching [] 2
  { s with net := { s.net with paths := [PathSt.idle, { pathOf s 1 with queues := (pathOf s 1).queues.set 1 [[], [], [], l] }] } }

theorem witness_SwitchCommands :
    (let s := switching [] 2
     s.net.paths.length = 2 ∧ pathRuns s 1 = true ∧ portUp s (portNo 1 0) = true ∧ portUp s (portNo 1 1) = true
      ∧ 1522 < (frameOf 2 1523 true (0, 0, 0)).length ∧ (frameOf 2 64 false (0, 0, 0)).sound = false)
    ∧ (let s := up [(Obj.port.link 4, 1)]
       2 ≤ stageOf s ∧ portUp s 4 = true ∧ s.net.paths.length = 2)
    ∧ (∃ d, d ≠ ifcMac (switching [] d) 1 ∧ (frameOf d 1522 true (0, 0, 0)).length ≤ 1522 ∧ ¬ (0x0180C2000000 ≤ d ∧ d ≤ 0x0180C200000F)
        ∧ assocGet (pathOf (switching [] d) 1).macs d = some 1 ∧ groupMac d = false ∧ groupMac (frameOf d 1522 true (0, 0, 0)).src = false
        ∧ (frameOf d 1522 true (0, 0, 0)).src ≠ d ∧ (pathOf (switching [] d) 1).macs.length < 4096 ∧ ringState (switching [] d) 1 ≠ 1
        ∧ (frameOf d 1522 true (0, 0, 0)).ptp = none ∧ (pathOf (switching [] d) 1).queues.length = 3
        ∧ (queuesOf (switching [] d) 1 1).length = 4 ∧ queuesOf (switching [] d) 1 1 = [[], [], [], []])
    ∧ (let full := List.replicate 172 (0, frameOf 2 1522 true (0, 0, 0))
       262144 < ((queuesOf (queued full) 1 1).getD (queueOf (queued full) 1 (frameOf 2 1522 true (0, 0, 0))) []).foldl (fun n x => n + x.2.length) 0 + 1522)
    ∧ (let s := setQueues (switching [] 2) 1 1 [[(0, frameOf 2 64 true (0, 0, 0))], [], [], []]
       queuesOf s 1 1 = [(0, frameOf 2 64 true (0, 0, 0)) :: [], [], [], []])
    ∧ (getO (switching [(Obj.ifc.igmpSnoop 6, 1)] 2) (Obj.ifc.igmpSnoop (ifcElem (switching [(Obj.ifc.igmpSnoop 6, 1)] 2) 1)) ≠ 0)
    ∧ (breaker (ring 1) 1 = some 1 ∧ (breaker (ring 1) 1).isSome = true ∧ ringState (ring 1) 1 = 1 ∧ ringSends (ring 1) 1 = true)
    ∧ ((breaker (ring 2) 1).isSome = true ∧ ringState (ring 2) 1 = 2)
    ∧ (ifcRuns (switching [] 2) 1 = true ∧ ifcRuns (up [(Obj.port.link 4, 1)]) 2 = true) := by
  refine ⟨by decide +kernel, by decide +kernel, ?_, by decide +kernel, by decide +kernel, by decide +kernel, by decide +kernel, by decide +kernel,
    by decide +kernel⟩
  by_cases hm : 2 = ifcMac (up []) 1
  · have h4 : 4 ≠ ifcMac (up []) 1 := by rw [← hm]; decide
    exact ⟨4, h4, by decide +kernel⟩
  · exact ⟨2, hm, by decide +kernel⟩

/-- A PTP message of type and sequence number 5 of master 77. -/
def ptpMsg (typ : Nat) (interval origin ingress : Int) (twoStep : Bool) : PtpMsg :=
  ⟨typ, 0, 77, 5, twoStep, 0, origin, interval, 77, 6, 128, 0x21, 0x4E5D, 128, 1, ingress⟩

/-- Instance 1 in a state, following master 77, with its fields set. -/
def timing (st : Nat) (l : List (Nat × Int)) (v : PtpInst) : State :=
  let s := up ([(Obj.ptp.state 1, (st : Int)), (Obj.port.link 2, 1)] ++ l)
  { s with time := { s.time with inst := [PtpInst.idle, { v with master := some 77 }] } }

def idle : PtpInst := PtpInst.idle

/-- Path B is a peer-to-peer transparent clock that has asked port 0 at 5, with an answer held. -/
def peering (held : Option PtpMsg) : State :=
  let s := timing 1 [(Obj.ifc.tcMode 6, 2)] idle
  { s with net := { s.net with paths := [PathSt.idle, { PathSt.idle with reqOut := [some 5, none], respWait := [held, none] }] } }

theorem witness_NetworkTime :
    (let s := timing 1 [] idle
     s.time.inst.length = 2 ∧ hears s 1 (ptpMsg 0 (-7) 0 0 true) = true ∧ hears s 1 (ptpMsg 0 1 0 0 true) = true)
    ∧ (∀ p : Fin 2, SyncBy (timing 4 [] idle) 1 (.sync 1 p (ptpMsg 0 (-7) 9 9 false)) p (ptpMsg 0 (-7) 9 9 false) 9)
    ∧ (let w := ptpMsg 0 (-3) 0 1000000000 true
       let s := timing 1 [] { idle with waitSync := some (w, 1) }
       SyncBy s 1 (.followUp 1 (ptpMsg 8 (-3) 0 0 false)) 1 w 0 ∧ natO s (Obj.ptp.state 1) ≠ 4
        ∧ 655360000 < (ballIngress s 1 1 w.ingress - 0 - getO s (Obj.ptp.meanPathDelay 1) - getO s (Obj.cal.asymmetry (portNo 1 1))
            - (ptpOf s 1).predict).natAbs ∧ (ptpOf s 1).outliers.length < 2)
    ∧ (∀ st ∈ [1, 2], let w := ptpMsg 0 0 0 655360000 false
        let s := timing st [] { idle with inside := 14 }
        (natO s (Obj.ptp.state 1) = 1 ∨ natO s (Obj.ptp.state 1) = 2) ∧ hears s 1 w = true
          ∧ (ballIngress s 1 0 w.ingress - 0 - getO s (Obj.ptp.meanPathDelay 1) - getO s (Obj.cal.asymmetry (portNo 1 0))
            - (ptpOf s 1).predict).natAbs ≤ 655360000 ∧ (ptpOf s 1).inside < 15)
    ∧ (let w := ptpMsg 0 0 0 655360000 true
       let s := timing 1 [] { idle with waitSync := some (w, 0) }
       hears s 1 (ptpMsg 8 0 0 0 false) = true ∧ (ptpOf s 1).waitSync = some (w, 0)
        ∧ (ballIngress s 1 0 w.ingress - 0 - getO s (Obj.ptp.meanPathDelay 1) - getO s (Obj.cal.asymmetry (portNo 1 0))
            - (ptpOf s 1).predict).natAbs ≤ 655360000)
    ∧ (∀ k ∈ [(-3 : Int), 4], let s := timing 1 [(Obj.ptp.gmIdentity 1, 9)] idle
        let ms (l : List Master) := hearMaster 0 l (ptpMsg 11 k 0 0 false)
        natO s (Obj.ptp.state 1) ≠ 0 ∧ (ptpMsg 11 k 0 0 false).domain = natO s (Obj.ptp.domain 1)
          ∧ bestMaster (((ms []).filter Master.qualified).map (·.msg)) = none
          ∧ bestMaster (((ms [⟨ptpMsg 11 k 0 0 false, 0, none⟩]).filter Master.qualified).map (·.msg)) = some (ptpMsg 11 k 0 0 false)
          ∧ natO s (Obj.ptp.gmIdentity 1) ≠ (ptpMsg 11 k 0 0 false).gmIdentity)
    ∧ (let s := timing 1 [] idle
       natO s (Obj.ptp.state 1) ≠ 0 ∧ pathRuns s 1 = true ∧ (ptpOf s 1).master.isSome = true
        ∧ (getO (timing 1 [(Obj.ptp.delayMechanism 1, 1)] idle) (Obj.ptp.delayMechanism 1) == 1) = true)
    ∧ (let s := timing 1 [(Obj.ptp.delayMechanism 1, 1)] { idle with reqOut := some 5 }
       (ptpOf s 1).reqOut = some 5 ∧ getO s (Obj.ptp.delayMechanism 1) = 1 ∧ (ptpMsg 3 0 0 0 false).msgType = 3)
    ∧ (let s := timing 1 [(Obj.ptp.delayMechanism 1, 1)] { idle with reqOut := some 5, respWait := some (ptpMsg 3 0 0 0 true) }
       (ptpOf s 1).respWait = some (ptpMsg 3 0 0 0 true) ∧ (ptpMsg 3 0 0 0 true).seqId = (ptpMsg 10 0 0 0 false).seqId
        ∧ (ptpMsg 3 0 0 0 true).sourcePort = (ptpMsg 10 0 0 0 false).sourcePort ∧ (ptpMsg 10 0 0 0 false).msgType = 10)
    ∧ (let s := timing 1 [] { idle with reqOut := some 5, syncT := some (1, 2) }
       getO s (Obj.ptp.delayMechanism 1) ≠ 1 ∧ (ptpMsg 9 0 0 0 false).msgType = 9 ∧ (ptpOf s 1).master = some (ptpMsg 9 0 0 0 false).sourcePort
        ∧ (ptpOf s 1).syncT = some (1, 2))
    ∧ (∀ w ∈ [none, some (ptpMsg 3 0 0 0 true)], let s := peering w
       natO s (Obj.ifc.tcMode (ifcElem s 1)) = 2 ∧ pathRuns s 1 = true ∧ portUp s (portNo 1 0) = true ∧ s.net.paths.length = 2
        ∧ (pathOf s 1).reqOut.length = 2 ∧ (pathOf s 1).reqOut[0]? = some (some 5) ∧ (pathOf s 1).respWait[0]? = some w)
    ∧ (∀ st ∈ [2, 3], natO (timing st [] idle) (Obj.ptp.state 1) = st)
    ∧ (let s := timing 4 [] { idle with pending := some (65536, 3) }
       (ptpOf s 1).pending = some (65536, 3) ∧ isGrandmasterStep (timing 4 [(Obj.ptp.state 0, 3), (Obj.ptp.gmIdentity 0, 1), (Obj.ptp.gmIdentity 1, 1)]
        { idle with pending := some (65536, 3) }) 1 = false) := by
  refine ⟨by decide +kernel, fun p => .inl ⟨p, rfl, rfl, by decide +kernel, rfl, by decide, by decide, rfl⟩,
    ⟨.inr ⟨_, rfl, by decide +kernel, by decide +kernel, rfl, rfl, rfl⟩, by decide +kernel⟩, ?_, ?_, ?_, ?_, ?_, ?_, ?_, ?_, ?_, ?_⟩
    <;> decide +kernel

/-- Reference entry 7 in a condition, with objects of the engine set. -/
def reference (r : RefEntry) (l : List (Nat × Int)) : State :=
  let s := up l
  { s with sel := { s.sel with running := true, entries := s.sel.entries.set 7 r } }

def goodEntry (qualified selectable requal : Bool) : RefEntry := ⟨true, true, qualified, selectable, requal, false, 0, 0⟩

/-- A decided step to entry 1 for the next boundary, entry 2 being selected. -/
def stepping (d : Int) (jump ahead : Nat) : State :=
  { up [(Obj.sel.selected, 2)] with sel := { (up []).sel with pending := some ⟨1, 1, d, jump, ahead, false⟩ } }

theorem witness_ClockCommands :
    (let s := reference (goodEntry true true false) [(Obj.ref.hardLimit 7, 4600), (Obj.ref.jitterLimit 7, 50)]
     s.sel.entries.length = 8 ∧ s.sel.running = true ∧ (entryOf s 7).qualified = true ∧ sourcePresent s 7 = true ∧ classOk s 7 = true
      ∧ ¬ ((4601 : Int).natAbs ≤ natO s (Obj.ref.hardLimit 7) ∧ 0 ≤ natO s (Obj.ref.jitterLimit 7))
      ∧ ((-4600 : Int).natAbs ≤ natO s (Obj.ref.hardLimit 7) ∧ 50 ≤ natO s (Obj.ref.jitterLimit 7)) ∧ (entryOf s 7).present = true)
    ∧ (∀ q ∈ [true, false], let s := reference (goodEntry false false q) [(Obj.ref.priority 7, 1), (Obj.ref.wtr 7, 5)]
        (entryOf s 7).qualified = false ∧ conditionsHold s 7 = true ∧ (entryOf s 7).requal = q ∧ natO s (Obj.ref.wtr 7) ≠ 0)
    ∧ (let s := reference (goodEntry true false true) [(Obj.ref.priority 7, 1)]
       (entryOf s 7).qualified = true ∧ (entryOf s 7).selectable = false ∧ conditionsHold s 7 = true)
    ∧ (∀ d ∈ [(0 : Int), 10], let s := stepping d 0 0
        s.sel.entries.length = 8 ∧ s.sel.pending = some ⟨1, 1, d, 0, 0, false⟩ ∧ s.sel.steps = none ∧ s.sel.later = 0
          ∧ selectedEntry s ≠ some 1 ∧ 4 * d.natAbs ≤ (sample3 s).toNat)
    ∧ (∀ j ∈ [1, 2], let s := stepping 0 j (2 ^ 48)
        s.sel.pending = some ⟨1, 1, 0, j, 2 ^ 48, false⟩ ∧ j ≠ 0 ∧ s.sel.steps = none ∧ s.sel.later = 0 ∧ selectedEntry s ≠ some 1)
    ∧ (let s := reference (goodEntry true true false) []
       s.sel.steps = none ∧ s.sel.pending = none ∧ s.sel.running = true ∧ isStandby s = false ∧ isStandby (paired 1 4 []) = true)
    ∧ 3 ≤ (up []).rst.released := by decide +kernel

/-! ## Hypotheses met: pair -/

def setPair (s : State) (f : Pair → Pair) : State := { s with pair := f s.pair }

/-- A watch of a unit that has no role yet. -/
def watchingAt (w : Nat) (high unitB : Bool) : State :=
  let s := setPair (paired 1 0 []) (fun p => { p with watching := w, roleHigh := high })
  { s with pins := { s.pins with unitB := unitB } }

/-- A control message of the pair: kind and bytes. -/
def pairMsg (kind : Nat) (b : List Byte) : BraidFrame := message 1 0 (natBE kind 1 ++ b)

/-- The interval that classifies the partner as k, with `n` runs before it. -/
def kindOf (ns : Nat) : Nat := if ns ≤ 52000 then 1 else if ns ≤ 73000 then 2 else if ns ≤ 125000 then 3 else 0

theorem witness_PairRoles :
    (pairRuns (paired 0 3 []) = true ∧ kindOf 52000 = 1 ∧ kindOf 73000 = 2 ∧ kindOf 125000 = 3 ∧ kindOf 125001 = 0 ∧ pairState (paired 0 3 []) = 3)
    ∧ (let s := setPair { paired 0 1 [] with pins := { (paired 0 1 []).pins with unitB := true } } (fun p => { p with activeRuns := 2 })
       pairRuns s = true ∧ 3 ≤ s.pair.activeRuns + 1 ∧ s.pair.watching = 0 ∧ isActive s = true ∧ s.pins.unitB = true)
    ∧ (∀ st ∈ [2, 3, 4, 5, 6, 8], pairRuns (paired 1 st []) = true ∧ pairState (paired 1 st []) = st)
    ∧ (getO (paired 1 8 []) Obj.pair.takeoverSilent ≠ 1 ∨ getO (paired 1 8 [(Obj.pair.takeoverSilent, 0)]) Obj.pair.takeoverSilent ≠ 1)
    ∧ (∀ high ∈ [true, false], ∀ b ∈ [true, false], let s := watchingAt 1 high b
        pairRuns s = true ∧ s.pair.watching = 1 ∧ s.pair.roleHigh = high ∧ s.pins.unitB = b)
    ∧ (∀ high ∈ [true, false], pairRuns (watchingAt 2 high true) = true ∧ (watchingAt 2 high true).pair.watching = 2)
    ∧ (stageOf (up []) ≠ 1)
    ∧ (∀ st ∈ [4, 7, 8], let v : LinkSt := { LinkSt.idle with fcLost := true }
        let s := setLink (setLink (paired 1 st [(Obj.pair.takeoverSilent, 1)]) 0 v) 1 v
        pairRuns s = true ∧ isStandby s = true ∧ pairState s = st ∧ getO s Obj.pair.takeoverSilent = 1
          ∧ (false || ((linkOf s 0).fcLost && (linkOf s 1).fcLost)) = true)
    ∧ (2 ≤ stageOf (paired 1 4 []) ∧ pairState (paired 1 4 []) = 4 ∧ isActive (paired 1 4 []) = false)
    ∧ (let s := paired 0 3 [(Obj.pair.partnerState, 4)]
       pairRuns s = true ∧ isActive s = true ∧ natO s Obj.pair.partnerState = 4 ∧ pairState s = 3)
    ∧ (let s := setPair (paired 0 3 []) (fun p => { p with handovers := [(1, 1, true)] })
       s.pair.handovers.find? (fun h => h.1 == 1) = some (1, 1, true) ∧ 1 ≤ s.frame + 1)
    ∧ ((receive (paired 1 4 []) (pairMsg 0x16 (natBE 5 1 ++ natBE 9 6))).2 = true ∧ msgField (pairMsg 0x16 (natBE 5 1 ++ natBE 9 6)) 0 1 = 0x16
      ∧ msgField (pairMsg 0x16 (natBE 5 1 ++ natBE 9 6)) 1 1 = 5)
    ∧ ((receive (paired 1 4 []) (pairMsg 0x16 (natBE 6 1))).2 = true ∧ msgField (pairMsg 0x16 (natBE 6 1)) 1 1 = 6) :=
  ⟨by decide +kernel, by decide +kernel, by decide +kernel, by decide +kernel, by decide +kernel, by decide +kernel, by decide +kernel, by decide +kernel, by decide +kernel, by decide +kernel, by decide +kernel, by decide +kernel, by decide +kernel⟩

/-- An AGREE part without records of Unit B, for a frame: digest, part, last. -/
def agreeMsg (frame digest part last : Nat) : BraidFrame :=
  pairMsg 0x10 (natBE 1 1 ++ natBE frame 6 ++ natBE digest 8 ++ List.replicate 6 0x00 ++ natBE part 1 ++ natBE last 1)

/-- A FILL message that carries an array block of frame 0 for BL3. -/
def fillMsg : BraidFrame := pairMsg 0x11 (natBE 0 4 ++ natBE 1 1 ++ natBE 1 1 ++ frameBytes (arrayMsg 1 0))

/-- TDM inputs of no port of frame 0, from port 16 on. -/
def tdmInMsg : BraidFrame := pairMsg 0x12 (natBE 0 6 ++ natBE 16 1 ++ natBE 0 1)

/-- A pair message of a kind reaches a unit by the pair link. -/
def pairMeets (s : State) (f : BraidFrame) (kind : Nat) : Bool :=
  (receive s f).2 && pairRuns s && decide (msgField f 0 1 = kind ∧ f.link.val ≤ 1)

theorem witness_PairAgreement :
    (∀ p ∈ [0, 3], let s : State := setPair { paired 0 3 [] with frame := 1 } (fun x => { x with agreeParts := [3] })
        let f := agreeMsg 1 0 p 0
        pairMeets s f 0x10 = true ∧ agreeOk s f = true ∧ msgField f 2 6 = s.frame
          ∧ s.pair.agreeClosed = false ∧ s.pair.agreeParts ≠ [] ∧ s.pair.agreeParts.contains (msgField f 22 1) = (p == 3)
          ∧ msgField f 23 1 = 0 ∧ s.pair.agreeLast = none)
    ∧ (let s : State := setPair { paired 0 3 [] with frame := 1 } (fun x => { x with digests := [(0, 5)] })
       let f := agreeMsg 1 6 0 1
       pairMeets s f 0x10 = true ∧ agreeOk s f = true ∧ s.pair.agreeParts = [] ∧ 0 < s.frame ∧ assocGet s.pair.digests (s.frame - 1) = some 5
        ∧ 5 ≠ msgField f 8 8 ∧ (msgField f 1 1).testBit 1 = false)
    ∧ (∀ n ∈ [4, 5], ∀ st ∈ [3, 4], let s := setPair (paired (if st = 3 then 0 else 1) st []) (fun x => { x with agreeMissing := n })
        agrees s = true ∧ s.pair.agreeClosed = false ∧ s.pair.agreeParts = [] ∧ s.pair.agreeMissing = n ∧ pairState s = st)
    ∧ (let s := paired 1 4 []
       let v := parseBlock 3 ((frameBytes fillMsg).drop 7)
       pairMeets s fillMsg 0x11 = true ∧ agrees s = true ∧ msgField fillMsg 6 1 = 1 ∧ msgField fillMsg 5 1 = 1
        ∧ blockBad s ((frameBytes fillMsg).drop 7) = false ∧ v.seq = msgField fillMsg 1 4 ∧ s.frame < v.frame + 4
        ∧ s.array.copies.any (fun y => y.link == v.link && y.seq == v.seq && y.frame == v.frame) = false)
    ∧ (let s := paired 1 4 []
       pairMeets s tdmInMsg 0x12 = true ∧ agrees s = true ∧ isActive s = false ∧ s.frame < msgField tdmInMsg 1 6 + 3
        ∧ msgField tdmInMsg 7 1 + msgField tdmInMsg 8 1 ≤ 16 ∧ (frameBytes tdmInMsg).length = 9)
    ∧ (let s : State := { paired 1 4 [] with frame := 2 }
       agrees s = true ∧ isActive s = false ∧ 2 ≤ s.frame ∧ assocGet s.conf.tdm.adopted (s.frame - 2) = none)
    ∧ (∀ st ∈ [4, 6], let s := paired 1 st noOwner
        pairMeets s (pairMsg 0x13 [0x00]) 0x13 = true ∧ isStandby s = true ∧ inReset s 25 = false
          ∧ pairState s = st ∧ sessState s 1 ≠ 0 ∧ (1 : BitVec 8).getLsbD 2 = false ∧ ownerSession s = none ∧ s.ctl.forwarded = [])
    ∧ (let g := { group 4 9 (okey 0x5300 255 1) with seq := 7 }
       let s := paired 1 4 []
       let s : State := { s with slu := { s.slu with waiting := [g] } }
       pairMeets s (pairMsg 0x13 [0x00]) 0x13 = true ∧ isStandby s = true ∧ inReset s 25 = false ∧ s.slu.heldFed = none ∧ s.slu.waiting = [g] ∧ g.session = 1 ∧ g.seq = 7)
    ∧ (let f := pairMsg 0x14 (natBE 1 2 ++ natBE 1 4)
       let a : AwaitAck := ⟨env (.yield 9), .yield 9, ⟨1, true, 0, 0, 3⟩⟩
       pairMeets awaiting f 0x14 = true ∧ forwarded a.envelope = false ∧ a.result.ack = true
        ∧ awaiting.ctl.await.filter (fun x => x.envelope.session == msgField f 1 2 && x.envelope.sequence == msgField f 3 4) = [a])
    ∧ (∀ role ∈ [0, 1], let s := paired role 4 []
        pairMeets s (pairMsg 0x15 [0x00]) 0x15 = true ∧ inReset s 25 = false ∧ sessionOpen s 1 = true ∧ isActive s = (role == 0))
    ∧ (let s := setSession (paired 0 3 []) 1 { session (paired 0 3 []) 1 with results := [⟨1, true, 0, 0, 3⟩] }
       (session (touch (receive s (pairMsg 0x15 [0x00])).1 1 { env (.yield 9) with flags := (env (.yield 9)).flags ||| 0x4000 }) 1).results.find?
          (fun x => x.sequence == 1) = some ⟨1, true, 0, 0, 3⟩)
    ∧ (let s := paired 0 3 []
       let e := env (.yield 9)
       (session s 1).results.find? (fun x => x.sequence == e.sequence) = none ∧ inHand s e = false
        ∧ natO s (Obj.sess.nextSeq (e.session - 1)) ≤ e.sequence ∧ (session s 1).held = [])
    ∧ (let s := paired 0 3 []
       let s : State := { s with rst := { s.rst with firmwareDown := true } }
       pairMeets s (pairMsg 0x15 [0x00]) 0x15 = true ∧ inReset s 25 = true ∧ isActive s = true ∧ sessionOpen s 1 = true
        ∧ reqSequenced (.yield 9) = true) := by
  refine ⟨?_, ?_, ?_, ?_, ?_, ?_, ?_, ?_, ?_, ?_, ?_, ?_, ?_⟩ <;> decide +kernel

/-- A control message of a resync phase, with its frame. -/
def phaseMsg (kind phase frame : Nat) : BraidFrame := pairMsg 0x16 (natBE kind 1 ++ natBE phase 1 ++ natBE frame 6)

/-- The versions this unit announces. -/
def versionBytes (s : State) : List Byte :=
  let rev := (getB s Obj.ident.revision).take 4
  natBE (natO s Obj.clk.sampleRate) 1 ++ rev ++ List.replicate (4 - rev.length) 0 ++ natBE (fwMajor s) 1

theorem witness_PairResync :
    (let s := paired 0 1 [(Obj.pair.resyncAuto, 0)]
     pairMeets s (phaseMsg 1 0 0) 0x16 = true ∧ msgField (phaseMsg 1 0 0) 1 1 = 1 ∧ pairState s = 1 ∧ getO s Obj.pair.resyncAuto ≠ 1)
    ∧ (∀ st ∈ [5, 7, 8], pairMeets (paired 1 st []) (phaseMsg 2 1 9) 0x16 = true ∧ msgField (phaseMsg 2 1 9) 1 1 = 2
        ∧ msgField (phaseMsg 2 1 9) 2 1 = 1 ∧ pairState (paired 1 st []) = st)
    ∧ (∀ ph ∈ [(2 : Nat), 3, 4], let s := paired 1 6 [(Obj.pair.resyncPhase, (ph : Int))]
        pairMeets s (phaseMsg 2 ph 9) 0x16 = true ∧ msgField (phaseMsg 2 ph 9) 2 1 = ph ∧ pairState s = 6 ∧ natO s Obj.pair.resyncPhase ≤ ph)
    ∧ (pairMeets (paired 0 2 []) (phaseMsg 3 2 0) 0x16 = true ∧ msgField (phaseMsg 3 2 0) 1 1 = 3 ∧ pairState (paired 0 2 []) = 2)
    ∧ (let s := paired 1 7 []
       let f := pairMsg 0x16 (natBE 4 1 ++ versionBytes s)
       pairMeets s f 0x16 = true ∧ msgField f 1 1 = 4 ∧ isActive s = false ∧ ((frameBytes f).drop 2).take 6 = versionBytes s
        ∧ ((frameBytes (phaseMsg 4 9 9)).drop 2).take 6 ≠ versionBytes s)
    ∧ (getO asked Obj.pair.resyncAuto = 1 ∧ asked.pair.autoStopped = false ∧ resyncOk asked = true)
    ∧ (pairState (paired 1 6 []) = 6)
    ∧ (let s := paired 0 2 [(Obj.pair.resyncPhase, 1)]
       natO s Obj.pair.resyncPhase = 1 ∧ pairState s = 2 ∧ pairLink s = some 0)
    ∧ (let s := paired 1 6 [(Obj.pair.resyncPhase, 1)]
       natO s Obj.pair.resyncPhase = 1 ∧ pairState s = 6 ∧ s.pair.imageLen = 0)
    ∧ (∀ st ∈ [2, 6], let s := setPair (paired (if st = 2 then 0 else 1) st [(Obj.pair.resyncPhase, 2)]) (fun p => { p with epochC := 1 })
       pairState s = st ∧ natO s Obj.pair.resyncPhase = 2 ∧ s.pair.epochC ≤ s.frame + 1 ∧ (pairLink s).isSome = true)
    ∧ (∀ ph ∈ [2, 3], let s := paired 0 2 [(Obj.pair.resyncPhase, ph), (Obj.pair.resyncEpoch, 1)]
       natO s Obj.pair.resyncPhase = ph ∧ pairState s = 2 ∧ natO s Obj.pair.resyncEpoch ≠ 0 ∧ natO s Obj.pair.resyncEpoch ≤ s.frame + 1)
    ∧ (let f := pairMsg 0x17 (natBE 0x10 1 ++ natBE 0 8 ++ [0x55])
       pairMeets (paired 1 6 []) f 0x17 = true ∧ msgField f 1 1 = 0x10)
    ∧ (let s := setPair (paired 1 6 [(Obj.pair.resyncPhase, 4)]) (fun p => { p with stored := [(0, []), (1, [])] })
       pairState s = 6 ∧ natO s Obj.pair.resyncPhase = 4 ∧ catchUpDue s = true ∧ s.pair.stored = (0, []) :: [(1, [])])
    ∧ (∀ st ∈ [2, 6], let s := setPair (paired (if st = 2 then 0 else 1) st [(Obj.pair.resyncPhase, 5)]) (fun p => { p with agreeing := 16 })
        natO s Obj.pair.resyncPhase = 5 ∧ 16 ≤ s.pair.agreeing ∧ pairState s = st)
    ∧ stageOf (paired 1 6 [(Obj.stage.stage, 2)]) = 2 := by
  refine ⟨?_, ?_, ?_, ?_, ?_, ?_, ?_, ?_, ?_, ?_, ?_, ?_, ?_, ?_, ?_⟩ <;> decide +kernel

/-! ## Hypotheses met: reset, start, power, service port -/

theorem witness_ResetSources :
    (1600 ≤ 1600 ∧ 1399 < 1400)
    ∧ (∀ cold ∈ [true, false], ({ up [] with rst := { (up []).rst with soft := some cold } } : State).rst.soft = some cold)
    ∧ ((2 : Fin 8).val = 2 ∧ (4 : Fin 8).val = 4) ∧ ((1099 : Int) < 1100 ∧ (1049 : Int) < 1050 ∧ (1100 : Int) ≤ 1100)
    ∧ (1449 < 1450 ∧ 1450 ≤ 1699 ∧ 1699 < 1700 ∧ 2 ≤ stageOf (up [])) ∧ (up []).rst.begun = true := by decide +kernel

/-- The engine after the release of its sources, at a step of Table 14.4. -/
def starting (n : Nat) (f : Reset → Reset) : State :=
  { State.reset with rst := f { Reset.reset with asserted := [], released := n } }

theorem witness_ReleaseSequence :
    (let s := starting 1 id
     s.rst.asserted = [] ∧ s.rst.optionsLoaded = false ∧ bestSlot s = none)
    ∧ (let s := starting 2 (fun r => { r with optionsLoaded := true, begun := false, sources := [0, 5] })
       s.rst.asserted = [] ∧ s.rst.optionsLoaded = true ∧ s.rst.begun = false ∧ s.rst.sources.Nodup ∧ ∀ c ∈ s.rst.sources, c < 6)
    ∧ (∀ n ∈ [2, 3, 7, 9], let s := starting n (fun r => { r with begun := true, pllLocked := true })
        s.rst.begun = true ∧ 2 ≤ s.rst.released ∧ s.rst.released < 10 ∧ s.rst.released = n ∧ s.rst.pllLocked = true)
    ∧ (let s := up [(Obj.stage.stage, 1), (Obj.stage.bootState, 0)]
       stageOf s = 1 ∧ s.rst.released = 10 ∧ getO s Obj.stage.bootState = 0)
    ∧ (let s := up [(Obj.stage.stage, 2), (Obj.sel.selected, 7), (Obj.stage.entered, 0)]
       stageOf s = 2 ∧ s.frame % 16 = 0 ∧ s.pair.watching = 0 ∧ isActive s = true ∧ s.rst.rateNext = none ∧ flowCause s = some 1) :=
  ⟨by decide +kernel, by decide +kernel, by decide +kernel, by decide +kernel, by decide +kernel⟩

/-- Block b is under reset, idling or held until a frame. -/
def resetting (b : Nat) (v : BlockSt) : State :=
  { up [] with rst := { (up []).rst with blocks := [(b, v)] } }

theorem witness_BlockResets :
    4 ≤ (up []).rst.released
    ∧ (∀ b ∈ [0, 15, 25], blockOf (resetting b ⟨9, true, false⟩) b = some ⟨9, true, false⟩)
    ∧ (∀ b ∈ [0, 25], blockOf (resetting b ⟨1, false, false⟩) b = some ⟨1, false, false⟩ ∧ 1 ≤ (resetting b ⟨1, false, false⟩).frame + 1
        ∧ (resetting b ⟨1, false, false⟩).rst.corePulse = false)
    ∧ (let s : State := { owned [] with rst := { (owned []).rst with firmwareDown := true } }
       s.rst.firmwareDown = true ∧ s.ctl.journal = [] ∧ s.ctl.await = [] ∧ s.ctl.forwarded = [] ∧ s.slu = Sluice.reset ∧ sessState s 1 = 1 ∧ (session s 1).held = [])
    ∧ (∀ d ∈ [0, 16, 18], getO (up [(Obj.pwr.state d, 3)]) (Obj.pwr.state d) = 3)
    ∧ (selectedEntry (up [(Obj.sel.selected, 1)]) = some 1 ∧ 2 ≤ stageOf (up [])) := by decide +kernel

/-- A service frame: operation, object, element, sub-object, type, and value, behind them the CRC. -/
def svcBody (op index elem sub typ : Nat) (value : List Byte) : List Byte :=
  natBE op 1 ++ [0x07] ++ natBE value.length 2 ++ natBE index 2 ++ natBE elem 2 ++ natBE sub 1 ++ natBE typ 1 ++ natBE 0 4 ++ value

def svc (b : List Byte) : SvcFrame := ⟨b ++ natBE (crc32 b) 4⟩

/-- What a frame asks for, from the bytes before its CRC. -/
def asks (b : List Byte) : SvcReq :=
  ⟨svcField b 0 1, svcField b 1 1, svcField b 4 2, svcField b 6 2, svcField b 8 1, svcField b 9 1, svcField b 10 4, b.drop 14⟩

theorem svcField_append (b c : List Byte) (off n : Nat) (h : off + n ≤ b.length) : svcField (b ++ c) off n = svcField b off n := by
  rw [svcField, svcField, List.drop_append_of_le_length (by omega), List.take_append_of_le_length (by simp; omega)]

theorem svc_parse (b : List Byte) (h : (decide (14 ≤ b.length) && oneOf (svcField b 0 1) [1, 2, 0x82] && decide (svcField b 2 2 ≤ 4096)
    && decide (b.length = 14 + svcField b 2 2) && !(svcField b 0 1 == 1 && svcField b 2 2 != 0)) = true) :
    svcParse (svc b).bytes = some (asks b) := by
  simp only [Bool.and_eq_true, decide_eq_true_eq, Bool.not_eq_true'] at h
  obtain ⟨⟨⟨⟨h1, h2⟩, h3⟩, h4⟩, h5⟩ := h
  have hl : (b ++ natBE (crc32 b) 4).length = b.length + 4 := by rw [List.length_append, natBE_length]
  have ht : (b ++ natBE (crc32 b) 4).take b.length = b := List.take_left
  have hd : (b ++ natBE (crc32 b) 4).drop b.length = natBE (crc32 b) 4 := List.drop_left
  have hf (off n : Nat) (k : off + n ≤ 14) : svcField (b ++ natBE (crc32 b) 4) off n = svcField b off n :=
    svcField_append _ _ _ _ (by omega)
  simp only [svcParse, svc, hl, Nat.add_sub_cancel, ht, hd, beNat_crc32, hf 0 1 (by omega), hf 1 1 (by omega), hf 2 2 (by omega), hf 4 2 (by omega),
    hf 6 2 (by omega), hf 8 1 (by omega), hf 9 1 (by omega), hf 10 4 (by omega), bne_self_eq_false, h2, h5, asks, Bool.not_true,
    Bool.or_false]
  rw [if_neg]
  simp only [Bool.or_eq_true, decide_eq_true_eq, bne_iff_ne, ne_eq, not_or, Classical.not_not]
  omega

/-- The key of curve P-384's own generator, for a slot. -/
def keyBytes (kind slot : Nat) : List Byte := natBE kind 1 ++ natBE slot 1 ++ natBE p384Gx 48 ++ natBE p384Gy 48

/-- Option bytes that name 96 kHz, with a CRC that fits. -/
def optionBody : List Byte := [0x42, 0x4F, 0x01, 0x01] ++ List.replicate 120 0x00
def options : List Byte := optionBody ++ natLE (crc32 optionBody) 4

theorem options_valid : optionValid options = true := by
  have h : options.drop 124 = natLE (crc32 optionBody) 4 := List.drop_left' (by decide +kernel)
  have k : options.take 124 = optionBody := List.take_left' (by decide +kernel)
  rw [optionValid, h, k, leNat_crc32, beq_self_eq_true]
  decide +kernel

/-- The frame is one the request checks of R354 let through, and its object takes it in the form the clause names. -/
def takesNum (s : State) (b : List Byte) (v : Int) : Bool :=
  let r := asks b
  match declAt s r.index r.elem r.sub with
  | none => false
  | some d => (decide (2 ≤ stageOf s) || trickleServes r) && r.op != 1 && r.offset == 0 && r.typ == d.typ.code && decide (d.access = .svc)
      && d.typ.size != 0 && decide (decodeNum d.typ r.value = some v) && numOk s d (okey r.index r.elem r.sub) v

def takesBlob (s : State) (b : List Byte) (op : Nat) : Bool :=
  let r := asks b
  match declAt s r.index r.elem r.sub with
  | none => false
  | some d => (decide (2 ≤ stageOf s) || trickleServes r) && r.op == op && r.offset == 0 && decide (d.typ = .blob) && r.typ == 15
      && decide (d.access = .svc) && decide (s.rst.svcSeries = [])

def readOwner : List Byte := svcBody 1 0x1100 0 6 4 []
def clearCounters : List Byte := svcBody 2 0x1201 0 12 1 [0x01]
def clearMoraine : List Byte := svcBody 2 0x1500 0 9 1 [0x01]
def setMode : List Byte := svcBody 0x82 0x1100 0 16 2 [0x02]
def setKey : List Byte := svcBody 0x82 0x1100 0 20 15 (List.replicate 32 0x00)
def keySegment : List Byte := svcBody 2 0x1100 0 17 15 (List.replicate 16 0x00)
def setOptions : List Byte := svcBody 0x82 0x1220 0 5 15 options
def setKeySlot : List Byte := svcBody 0x82 0x1600 0 6 15 (keyBytes 1 3)

theorem witness_ServicePort :
    (stageOf (up [(Obj.stage.stage, 1)]) = 1 ∧ 2 ≤ stageOf (up []) ∧ inReset (up []) 25 = false)
    ∧ (svcField ([0x03] : List Byte) 0 1 = 3 ∧ (up []).rst.svcAnswer = none
      ∧ ({ up [] with rst := { (up []).rst with svcAnswer := some [0x01] } } : State).rst.svcAnswer = some [0x01])
    ∧ (svcParse [0x01] = none ∧ svcField ([0x01] : List Byte) 0 1 ≠ 3)
    ∧ (∀ b ∈ [readOwner, clearCounters, clearMoraine, setMode, setKey, keySegment, setOptions, setKeySlot],
        svcParse (svc b).bytes = some (asks b))
    ∧ (trickleServes (asks readOwner) = false ∧ (asks readOwner).op = 1 ∧ (readCheck (up []) ⟨0x1100, 0, 6, 4, 0, 0⟩).isRight = true)
    ∧ (takesNum (up [(Obj.stage.stage, 1)]) clearCounters 1 = true ∧ takesNum (up []) clearMoraine 1 = true ∧ takesNum (up []) setMode 2 = true)
    ∧ (takesBlob (up []) keySegment 2 = true ∧ takesBlob (up []) setKey 0x82 = true ∧ (asks setKey).value.length = 32)
    ∧ (takesBlob (up []) setOptions 0x82 = true ∧ (asks setOptions).value = options ∧ optionOk (up []) options = true
      ∧ blankSlot (up []) = some 0)
    ∧ (takesBlob (up []) setKeySlot 0x82 = true ∧ keyOk (up []) (asks setKeySlot).value = true) := by
  refine ⟨by decide +kernel, by decide +kernel, by decide +kernel, ?_, by decide +kernel, by decide +kernel, by decide +kernel, ?_, by decide +kernel⟩
  · intro b hb
    simp only [List.mem_cons, List.not_mem_nil, or_false] at hb
    rcases hb with rfl | rfl | rfl | rfl | rfl | rfl | rfl | rfl <;> exact svc_parse _ (by decide +kernel)
  · refine ⟨by decide +kernel, List.drop_left' (by decide +kernel), ?_, by decide +kernel⟩
    simp only [optionOk, options_valid, Bool.and_true, Bool.and_eq_true]
    decide +kernel

/-! ## Hypotheses met: events, queues, bus, boundary scan, the whole engine -/

def oneWord : DWord := ⟨[0x01], true, true, 0, false, 1⟩

/-- Queue 15 with words and a word being packed. -/
def queue (words : List DWord) (packing : Option DWord) : State :=
  { up [(Obj.drift.consumer 15, 2)] with ev := { (up []).ev with queues := [(15, ⟨words, packing, true⟩)] } }

theorem witness_InjectionAndQueues :
    (getO (up [(Obj.inj.window, 2)]) Obj.inj.window = 2)
    ∧ (let s := up [(Obj.inj.window, 2), (Obj.inj.arm 255, 1), (Obj.inj.fireFrame 255, 1), (Obj.inj.target 255, 1)]
       getO s (Obj.inj.arm 255) ≠ 0 ∧ natO s (Obj.inj.fireFrame 255) ≤ s.frame + 1 ∧ isTarget s 255 = false)
    ∧ (∀ arm ∈ [1, 2], let s := up [(Obj.inj.window, 2), (Obj.inj.arm 0, arm), (Obj.inj.fireFrame 0, 1)]
        getO s (Obj.inj.arm 0) = arm ∧ isTarget s 0 = true ∧ actEvents.contains 0 = false
          ∧ s.ev.now.find? (fun r => r.event == 0 && r.frame == s.frame + 1) = none)
    ∧ ((driftQ (queue (List.replicate 31 oneWord) (some oneWord)) 15).packing = some oneWord
      ∧ (driftQ (queue (List.replicate 31 oneWord) (some oneWord)) 15).words.length < 32)
    ∧ (∀ n ∈ [4, 5], let o : MapOut := ⟨3, List.replicate n 7, true, false⟩
        let s : State := { up [] with array := { (up []).array with mapOut := some o } }
        s.array.mapOut = some o ∧ (driftQ s 3).packing = none ∧ (driftQ s 3).words.length < 32 ∧ (driftQ s 3).afterLoss = false)
    ∧ (getO (queue [oneWord] none) (Obj.drift.consumer 15) = 2 ∧ (driftQ (queue [oneWord] none) 15).words = oneWord :: [])
    ∧ (up []).ev.ring.length ≤ 8192 := by decide +kernel

/-- A write of one byte by master 0, and a read of 16 bytes by master m, at an address. -/
def busWrite (a : BitVec 48) : BusTx := ⟨0, 0x21, a, none, [0x5A], .clean⟩
def busRead (m : Fin 17) (a : BitVec 48) (ecc : EccHit) : BusTx := ⟨m, 0x21, a, some 16, [], ecc⟩

theorem witness_BusCommands :
    (mapOf (up []) 0xFFFFFFFFFFF0 16 = none ∧ mapOf (up []) 0x4000000 1 = none ∧ mapOf (up []) 0xFFF8 16 = none)
    ∧ (mapOf (up []) 0x10000 16 = some (.sram, 0) ∧ permits (up []) 9 Area.sram.target 0x10000 16 false = false)
    ∧ (∀ k ∈ [(0 : Int), 1], let s := up [(Obj.pwr.state 15, k)]
        mapOf s 0x3FFFFFF 1 = some (.cells, 0xFFFFFF) ∧ permits s 0 Area.cells.target 0x3FFFFFF 1 true = true
          ∧ wrapperShut s .cells 0xFFFFFF = (k == 1) ∧ driftWindow .cells 0xFFFFFF = none)
    ∧ (∀ e ∈ [EccHit.clean, .corrected, .double], (busRead 0 0x10000 e).ecc = e ∧ (busRead 0 0x10000 e).readLen = some 16
        ∧ busyFor (up []) 0 0x10000 16 false = none ∧ (busWrite 0x10000).readLen = none)
    ∧ (let s := withCell 127 { Cell.zero with nextPc := 1 }
       busyFor s 0 0x3FFFFFF 1 true = some 127 ∧ busyFor (up []) 0 0x3FFFFFF 1 true = none)
    ∧ (permits (up []) 0 Area.sram.target 0x10000 16 false = true ∧ wrapperShut (up []) .sram 0 = false ∧ driftWindow .sram 0 = none)
    ∧ (mapOf (up []) 0x1FFFF 1 = some (.sram, 0xFFFF)) := by
  unfold busyFor mapOf mapRows
  cases Config.overlapSram <;> decide +kernel

theorem witness_BusMemory :
    ∀ r ∈ [((0x1000000 : BitVec 48), Area.sram, 0), (0x2800000, .cluster, 0x800000), (0x3000000, .cells, 0), (0xD4FFFFF, .aon, 0x4FFFFF)],
      let x := busWrite r.1
      x.readLen = none ∧ mapOf (up []) x.address.toNat x.data.length = some (r.2.1, r.2.2)
        ∧ permits (up []) x.master r.2.1.target x.address.toNat x.data.length true = true ∧ wrapperShut (up []) r.2.1 r.2.2 = false
        ∧ busyFor (up []) x.master x.address.toNat x.data.length true = none := by
  unfold busyFor mapOf mapRows
  cases Config.overlapSram <;> decide +kernel

/-- A DMA datagram of two bytes for a channel. -/
def datagram (c : Nat) : List Byte :=
  natBE 0x444D 2 ++ natBE 1 1 ++ natBE c 1 ++ natBE 0 4 ++ natBE 0 8 ++ natBE 2 2 ++ natBE 0 2 ++ natBE 0 4 ++ [0x11, 0x22]

/-- Channel c busy, host to memory, with the region its master needs. -/
def moving (c : Nat) : State :=
  let r := regionNo (dmaMaster c) Area.sram.target 0
  up [(Obj.dma.state c, 1), (Obj.dma.direction c, 1), (Obj.dma.length c, 2), (Obj.dma.hostAddress c, 9), (Obj.dma.hostPort c, 9),
    (Obj.dma.address c, 0x1000000), (Obj.reg.base r, 0x1000000), (Obj.reg.size r, 0x10000), (Obj.reg.rights r, 3)]

theorem witness_TransfersAndFirmware :
    (24 ≤ (datagram 9).length ∧ fieldAt (datagram 9) 3 1 = 9 ∧ dmaGood (up []) 9 9 9 (datagram 9) = false)
    ∧ (dmaGood (moving 8) 8 9 9 (datagram 8) = true ∧ fieldAt (datagram 8) 16 2 = 2 ∧ fieldAt (datagram 8) 8 8 = 0
      ∧ ∀ i, i < 2 → mapOf (moving 8) (natO (moving 8) (Obj.dma.address 8) + 0 + i) 1 = some (.sram, 0 + i)
        ∧ permits (moving 8) (dmaMaster 8) Area.sram.target (natO (moving 8) (Obj.dma.address 8) + 0 + i) 1 true = true)
    ∧ (getO (up [(Obj.dma.state 9, 1), (Obj.dma.direction 9, 0)]) (Obj.dma.state 9) = 1)
    ∧ (({ up [] with bus := { (up []).bus with fwVerifying := some 1 } } : State).bus.fwVerifying = some 1)
    ∧ (({ up [] with ctl := { (up []).ctl with handover := true } } : State).ctl.handover = true) := by
  unfold mapOf mapRows
  cases Config.overlapSram <;> decide +kernel

theorem witness_BoundaryScan :
    (∃ j : Jtag, j.tap = .shiftDr ∧ tapNext j.tap true ≠ .updateDr) ∧ tapNext .exit1Dr true = .updateDr ∧ tapNext .exit1Ir true = .updateIr
    ∧ tapNext .selectIr true = .testLogicReset := ⟨⟨{ Jtag.reset with tap := .shiftDr }, by decide⟩, by decide, by decide, by decide⟩

theorem witness_FrameAdvances :
    ((up []).rst.pllLocked = true ∧ 3 ≤ (up []).rst.released ∧ (up []).rst.ticked = true ∧ (up []).frame + 1 < 281474976710656)
    ∧ (State.reset.rst.pllLocked = false ∧ State.reset.rst.released < 3)
    ∧ (∀ st ∈ [2, 6], let s := setLink (link5 st []) 5 { linkOf (link5 st []) 5 with count := some 16383 }
        linkState s 5 = st ∧ (linkOf s 5).count = some 16383 ∧ s.conf.splice = none ∧ s.conf.reframe = none)
    ∧ (wckDriven { up [] with rst := { (up []).rst with options := (up []).rst.options.set 120 0x04 } } = true) := by decide +kernel

theorem witness_StepRunsFront : State.reset.pending = [] ∧ ({ up [] with pending := [.frameTick, .glideEnd] } : State).pending = [.frameTick, .glideEnd] :=
  ⟨rfl, rfl⟩

theorem witness_EvtNDrivenAlways : EvtNDriven State.reset ∧ step { State.reset with pending := [.frameTick] } = .next State.reset := by
  unfold EvtNDriven; exact ⟨by decide +kernel, rfl⟩

/-! ## Worked examples of the manual, and one step of some commands -/

/-- The state a command answers. -/
def after (o : Host.Outcome State Fault Refusal) : State :=
  match o with
  | .next t => t
  | .fault _ => State.reset
  | .refused _ => State.reset

/-- 0.75 in accumulator LSBs (R60): 600000h × 400000h × 2. -/
def p75 : Int := 3 * 2 ^ 44

/-- Table 3.3, steps 2 to 3: 511.5 + 0.75 reads −511.75 with W at +1. -/
theorem test_mac_wraps : (accOf (682 * p75) 0 false).add p75 = accOf (-(2047 * 2 ^ 44)) 1 false := by decide +kernel
/-- Table 3.3, steps 5 to 6: 512.25 − 0.75 comes back to 511.5 with W at 0. -/
theorem test_msu_unwraps : (accOf (-(2047 * 2 ^ 44)) 1 false).add (-p75) = accOf (682 * p75) 0 false := by decide +kernel
/-- Table 3.3, step 8: EXT of 24.0 with SHIFT −5 (field 4) is 600000h, without an event. -/
theorem test_ext_shift : (accOf (24 * 2 ^ 46) 0 false).ext 4 = (0x600000, .none) := by decide +kernel
/-- With 64 stem sources, T = 552.0 reads V = −472.0 and W = +1: EXT gives 7FFFFFh and records event 161. -/
theorem test_ext_wrap : (accOf (-(472 * 2 ^ 46)) 1 false).ext 4 = (0x7FFFFF, .wrap) := by decide +kernel
/-- MAC of 0.75 by 0.5 with SH 1 into lane 3 of cell 9, as the worked example does. -/
theorem test_mac_step :
    let l := { Cell.zero.lanes[3] with x := Cell.zero.lanes[3].x.set 0 0x00600000, c := Cell.zero.lanes[3].c.set 1 0x00400000 }
    let t := after (exec (.mac 9 ⟨false, 0, false⟩ 0 0 1 1 false) (withCell 9 { Cell.zero with lanes := Cell.zero.lanes.set 3 l }))
    (cellOf t 9).lanes[3].a[0] = accOf p75 0 false ∧ (cellOf t 9).lanes[2].a[0] = accOf 0 0 false ∧ (cellOf t 9).nextPc = 1 := by decide +kernel
/-- R79: LOG2 of 600000h is FE5700h. -/
theorem test_log2 : ofQ23 (log2Level 0x600000) = 0xFFFE5700 := by decide +kernel
/-- R117: 0.00 dB is 8,388,608; +24.00 dB is 132,950,477; mute is 0. -/
theorem test_gain : linearGain 0 = 8388608 ∧ linearGain 2400 = 132950477 ∧ linearGain (-32768) = 0 := by decide +kernel
/-- −6.50 dB is sent as FD76h, and a mute as 8000h (R34). -/
theorem test_gain_wire : decodeNum .gain [0xFD, 0x76] = some (-650) ∧ decodeNum .gain [0x80, 0x00] = some (-32768) := by decide +kernel
/-- Table 3.13: P0 walks the ring of 64 words at 0400h, and its ninth row ends at 0408h. -/
theorem test_ring : stepP 0x0438 (BitVec.ofNat 32 (1 * 2 ^ 30 + 0x400 * 2 ^ 15 + 64)) 8 = 0x0400
    ∧ stepP 0x0400 (BitVec.ofNat 32 (1 * 2 ^ 30 + 0x400 * 2 ^ 15 + 64)) 8 = 0x0408 := by decide +kernel
/-- The check value of CRC-32 over the digits 1 to 9 (log entry 6). -/
theorem test_crc32 : crc32 [0x31, 0x32, 0x33, 0x34, 0x35, 0x36, 0x37, 0x38, 0x39] = 0xCBF43926 := by decide +kernel
/-- R22: a frame tick makes frame 1 of frame 0. -/
theorem test_frameTick : (after (exec .frameTick (up []))).frame = 1 := by decide +kernel
/-- R46, Table 2.15: a CLAIM with no owner opens an election; the close of its window makes session 1 owner with epoch 1. -/
theorem test_claim : ownerState (after (exec (.claim (env (.claim ⟨6, 0⟩)) ⟨6, 0⟩) (owned noOwner))) = 1 := by decide +kernel
theorem test_claimWindowClose :
    let t := after (exec .claimWindowClose (electing [candidate 1 5]))
    ownerState t = 2 ∧ natO t Obj.own.ownerSession = 1 ∧ natO t Obj.own.ownerPriority = 5 ∧ natO t Obj.own.ownerEpoch = 1 := by decide +kernel
/-- Table 2.14: a WRITE whose type code is wrong is answered NAK TYPE with the code of the object, and does nothing. -/
theorem test_write_type :
    let t := after (exec (.write (wenv 0x1100 5 0 2 [0x01]) 0x1100 5 (body 0 2 [0x01])) (owned []))
    getO t Obj.own.preemptible = 0 ∧ (match t.out with
      | .gultin _ _ 1 1 12 _ pay _ :: _ => pay == [0x00, 0x06, 0x00, 0x00, 0x00, 0x00, 0x00, 0x00, 0x00, 0x00, 0x00, 0x01]
      | _ => false) = true := by decide +kernel
/-- Table 2.12: the same WRITE with type BOOL sets PREEMPTIBLE. -/
theorem test_write : getO (after (exec (.write (wenv 0x1100 5 0 1 [0x01]) 0x1100 5 (body 0 1 [0x01])) (owned []))) Obj.own.preemptible = 1 := by
  decide +kernel
/-- R335, Table 14.1: THERM asserts source 5 and leaves the engine in Off. -/
theorem test_thermalReset : let t := after (exec .thermalReset (up []))
    t.rst.asserted = [5] ∧ stageOf t = 0 ∧ t.rst.released = 0 := by decide +kernel
/-- R389, R386: an address outside Table 16.4 is answered BUS_ERROR, counted, with event 227. -/
theorem test_bus_error :
    let t := (busAccess (up []) 5 0x4000000 16 none .clean).2.2
    natO t Obj.bus.busErrors = 1 ∧ natO t (Obj.evt.sticky 227) = 1 ∧ natO t (Obj.evt.detail 227) = 5
      ∧ (busAccess (up []) 5 0x4000000 16 none .clean).1 = .busError := by
  have h : mapOf (up []) 0x4000000 16 = none := by
    unfold mapOf mapRows
    cases Config.overlapSram <;> decide +kernel
  simp only [busAccess, h]
  decide +kernel
/-- R377: a pop of a window takes the oldest word, 32 bytes wide. -/
theorem test_driftPop : let t := after (exec (.driftPop 15 32) (queue [oneWord] none))
    (driftQ t 15).words = [] ∧ natO t (Obj.drift.words 15) = 1 := by decide +kernel
/-- R425: TMS at 1 for five edges reaches Test-Logic-Reset from Shift-DR; the fifth loads IDCODE. -/
theorem test_tap : tapNext (tapNext (tapNext (tapNext (tapNext .shiftDr true) true) true) true) true = .testLogicReset := by decide
/-- A word that spells nothing leaves the queue as it is (log entry 2). -/
theorem test_no_words : decodeTableWord 0 0 = none ∧ State.reset.withFetchWord 0 0 = State.reset := ⟨rfl, rfl⟩

end Sys2Proof.Tests
end

section
/-! The family of the DSP cells: the compute commands that a statement asks to complete, accumulators and their extraction, and the
levels of LOG2 and EXP2. -/

namespace Sys2Proof.Machine

/-! ## Compute commands that complete -/

/-- A command that computes an operation which records nothing has that operation's effect on the lanes. -/
theorem completes_laneEffect {s : State} {i : Instr} {n acc : Nat} {p : Pred} {op : LaneOp} {f : Vector Lane 8 → Fin 8 → Lane → Lane}
    (h : cellExec s n = true) (hx : exec i s = .next (compute s n p acc op)) (hf : ∀ v k l, op v k l = (f v k l, .none)) :
    Completes i s (fun t => LaneEffect s t n p f) := by
  obtain rfl : op = quiet f := funext fun v => funext fun k => funext fun l => hf v k l
  exact ⟨_, hx, compute_laneEffect s h p acc f⟩

/-- A command that computes an operation which looks at its own lane alone records what that operation records. -/
theorem completes_laneRecord {s : State} {i : Instr} {n acc : Nat} {p : Pred} {op : LaneOp} {f : Lane → Lane × Seen}
    (h : cellExec s n = true) (hx : exec i s = .next (compute s n p acc op)) (hf : ∀ v k l, op v k l = f l) :
    Completes i s (fun t => LaneRecord s t n p acc f) := by
  obtain rfl : op = fun _ _ l => f l := funext fun v => funext fun k => funext fun l => hf v k l
  exact ⟨_, hx, compute_laneRecord s h p acc f⟩

/-! ## Additions to an accumulator (R61, R62) -/

/-- The value V of an accumulator lies in its 56 bits. -/
theorem Acc.v_bounds (a : Acc) : -(2 ^ 55) ≤ a.v.toInt ∧ a.v.toInt < 2 ^ 55 :=
  ⟨BitVec.le_toInt a.v, BitVec.toInt_lt⟩

theorem Acc.add_inside {a : Acc} {p : Int} (hu : ¬ 2 ^ 55 - 1 < a.v.toInt + p) (hd : ¬ a.v.toInt + p < -(2 ^ 55)) :
    a.add p = { a with v := BitVec.ofInt 56 (a.v.toInt + p) } := by
  have hu' : ¬ 36028797018963967 < a.v.toInt + p := by omega
  have hd' : ¬ a.v.toInt + p < -36028797018963968 := by omega
  simp only [Acc.add, if_neg hu', if_neg hd']

theorem Acc.add_above {a : Acc} {p : Int} (hl : a.lost = false) (hu : 2 ^ 55 - 1 < a.v.toInt + p) (hw : a.w ≠ 7) :
    a.add p = { a with v := BitVec.ofInt 56 (a.v.toInt + p), w := a.w + 1 } := by
  have hu' : 36028797018963967 < a.v.toInt + p := by omega
  simp only [Acc.add, if_pos hu', hl, Bool.false_eq_true, if_false, if_neg hw]

theorem Acc.add_below {a : Acc} {p : Int} (hl : a.lost = false) (hd : a.v.toInt + p < -(2 ^ 55)) (hw : a.w ≠ -8) :
    a.add p = { a with v := BitVec.ofInt 56 (a.v.toInt + p), w := a.w - 1 } := by
  have hu' : ¬ 36028797018963967 < a.v.toInt + p := by omega
  have hd' : a.v.toInt + p < -36028797018963968 := by omega
  simp only [Acc.add, if_neg hu', if_pos hd', hl, Bool.false_eq_true, if_false, if_neg hw]

theorem Acc.add_of_lost {a : Acc} (hl : a.lost = true) (p : Int) :
    a.add p = { a with v := BitVec.ofInt 56 (a.v.toInt + p) } := by
  simp only [Acc.add, hl, if_true, ite_self]

/-- A wrap at an end of W's range is not counted (R62). -/
theorem Acc.add_uncounted {a : Acc} {p : Int}
    (h : (2 ^ 55 - 1 < a.v.toInt + p ∧ a.w = 7) ∨ (a.v.toInt + p < -(2 ^ 55) ∧ a.w = -8)) :
    a.add p = { a with v := BitVec.ofInt 56 (a.v.toInt + p), lost := true } := by
  cases hl : a.lost with
  | true => rw [Acc.add_of_lost hl, hl]
  | false =>
    obtain ⟨hu, hw⟩ | ⟨hd, hw⟩ := h
    · have hu' : 36028797018963967 < a.v.toInt + p := by omega
      simp only [Acc.add, if_pos hu', hl, Bool.false_eq_true, if_false, if_pos hw]
    · have hu' : ¬ 36028797018963967 < a.v.toInt + p := by omega
      have hd' : a.v.toInt + p < -36028797018963968 := by omega
      simp only [Acc.add, if_neg hu', if_pos hd', hl, Bool.false_eq_true, if_false, if_pos hw]

theorem Acc.add_v (a : Acc) (p : Int) : (a.add p).v = BitVec.ofInt 56 (a.v.toInt + p) := by
  simp only [Acc.add, apply_ite Acc.v, ite_self]

/-- V after an addition is the sum modulo 2^56 (R61). -/
theorem Acc.add_v_mod (a : Acc) (p : Int) : ((a.add p).v.toInt - (a.v.toInt + p)) % 2 ^ 56 = 0 := by
  rw [Acc.add_v, BitVec.toInt_ofInt, Int.bmod_def]
  split <;> omega

/-- W follows each wrap that it can count, and WRAP_LOST stays clear (R61). -/
theorem Acc.add_counted {a : Acc} {p : Int} (hl : a.lost = false) (hu : 2 ^ 55 - 1 < a.v.toInt + p → a.w < 7)
    (hd : a.v.toInt + p < -(2 ^ 55) → -8 < a.w) :
    (a.add p).lost = false ∧ (a.add p).w
      = if 2 ^ 55 - 1 < a.v.toInt + p then a.w + 1 else if a.v.toInt + p < -(2 ^ 55) then a.w - 1 else a.w := by
  by_cases up : 2 ^ 55 - 1 < a.v.toInt + p
  · rw [Acc.add_above hl up (Int.ne_of_lt (hu up)), if_pos up]; exact ⟨hl, rfl⟩
  · by_cases down : a.v.toInt + p < -(2 ^ 55)
    · rw [Acc.add_below hl down (Int.ne_of_gt (hd down)), if_neg up, if_pos down]; exact ⟨hl, rfl⟩
    · rw [Acc.add_inside up down, if_neg up, if_neg down]; exact ⟨hl, rfl⟩

/-- An addition whose wrap, if any, W counts keeps the true sum exact (R61). -/
theorem Acc.add_sum {a : Acc} {p : Int} (hlo : -(2 ^ 55) ≤ p) (hhi : p ≤ 2 ^ 55) (hl : a.lost = false)
    (hu : 2 ^ 55 - 1 < a.v.toInt + p → a.w < 7) (hd : a.v.toInt + p < -(2 ^ 55) → -8 < a.w) :
    (a.add p).lost = false ∧ (a.add p).sum = a.sum + p := by
  obtain ⟨hlost, hw⟩ := Acc.add_counted hl hu hd
  have hv := a.v_bounds
  have hv' := (a.add p).v_bounds
  have hmod := Acc.add_v_mod a p
  refine ⟨hlost, ?_⟩
  rw [Acc.sum, Acc.sum, hw]
  omega

/-! ## Extraction and saturation (R63, R64, R66, Table 3.2) -/

theorem roundShift_pos (v : Int) {n : Nat} (h : 0 < n) : roundShift v n = (v + 2 ^ (n - 1)).fdiv (2 ^ n) := by
  cases n with
  | zero => exact absurd h (Nat.lt_irrefl 0)
  | succ k => rw [roundShift, Int.natCast_pow, Int.natCast_pow]; rfl

theorem roundShift_eq (v : Int) (n : Nat) : roundShift v n = if n = 0 then v else (v + 2 ^ (n - 1)).fdiv (2 ^ n) := by
  by_cases h : n = 0
  · rw [if_pos h, h, roundShift]
  · rw [if_neg h, roundShift_pos v (Nat.pos_of_ne_zero h)]

theorem sat_eq_max_min {lo hi : Int} (h : lo ≤ hi) (v : Int) : sat lo hi v = max lo (min hi v) := by
  unfold sat
  omega

theorem Acc.extract_of_lost {a : Acc} (h : a.lost = true) (f : Int → Int) (lo hi : Int) :
    a.extract f lo hi = (if a.w < 0 then lo else hi, .lost) := by
  rw [Acc.extract, if_pos h]

theorem Acc.extract_of_wrapped {a : Acc} (h : a.lost = false) (hw : a.w ≠ 0) (f : Int → Int) (lo hi : Int) :
    a.extract f lo hi = (if a.w < 0 then lo else hi, .wrap) := by
  rw [Acc.extract, if_neg (Bool.eq_false_iff.mp h), if_pos hw]

/-- With neither a wrap nor a lost count the rounded value is saturated, and only a saturation is recorded. -/
theorem Acc.extract_of_exact {a : Acc} (h : a.lost = false) (hw : a.w = 0) (f : Int → Int) {lo hi : Int} (hlh : lo ≤ hi) :
    (a.extract f lo hi).1 = max lo (min hi (f a.v.toInt))
    ∧ ((a.extract f lo hi).2 = .sat ↔ f a.v.toInt < lo ∨ hi < f a.v.toInt)
    ∧ (a.extract f lo hi).2 ≠ .wrap ∧ (a.extract f lo hi).2 ≠ .lost := by
  rw [Acc.extract, if_neg (Bool.eq_false_iff.mp h), if_neg (not_not_intro hw)]
  refine ⟨sat_eq_max_min hlh _, ?_⟩
  dsimp only
  by_cases ho : f a.v.toInt < lo ∨ hi < f a.v.toInt
  · rw [if_pos ho]; exact ⟨iff_of_true rfl ho, nofun, nofun⟩
  · rw [if_neg ho]; exact ⟨iff_of_false nofun ho, nofun, nofun⟩

/-- Saturation to Q1.23 by its three ranges, with what it records. -/
theorem sat24_recorded (v : Int) :
    (if v < -8388608 then (ofQ23 (-8388608), Seen.sat) else if 8388607 < v then (ofQ23 8388607, Seen.sat) else (ofQ23 v, Seen.none))
      = (ofQ23 (sat24 v), if over24 v then Seen.sat else Seen.none) := by
  simp only [sat24, sat, over24, decide_eq_true_eq]
  by_cases hlo : v < -8388608
  · rw [if_pos hlo, if_pos hlo, if_pos (.inl hlo)]
  · by_cases hhi : 8388607 < v
    · rw [if_neg hlo, if_neg hlo, if_pos hhi, if_pos hhi, if_pos (.inr hhi)]
    · rw [if_neg hlo, if_neg hlo, if_neg hhi, if_neg hhi, if_neg (not_or.mpr ⟨hlo, hhi⟩)]

/-! ## Levels (R79, R80) -/

/-- Interpolation between two entries of a table, rounded, stays between them. -/
theorem interpolate_bounds {a b r d half : Int} (hab : a ≤ b) (hr : 0 ≤ r) (hrd : r ≤ d) (hh : 0 ≤ half) (hhd : half < d) :
    a ≤ a + ((b - a) * r + half).fdiv d ∧ a + ((b - a) * r + half).fdiv d ≤ b := by
  have hd : 0 < d := by omega
  have hlo : 0 ≤ (b - a) * r := Int.mul_nonneg (by omega) hr
  have hhi : (b - a) * r ≤ (b - a) * d := Int.mul_le_mul_of_nonneg_left hrd (by omega)
  have h0 : 0 ≤ ((b - a) * r + half).fdiv d := Int.fdiv_nonneg (by omega) (Int.le_of_lt hd)
  have h1 : ((b - a) * r + half).fdiv d < b - a + 1 := by
    rw [Int.fdiv_eq_ediv_of_nonneg _ (Int.le_of_lt hd)]
    apply Int.ediv_lt_of_lt_mul hd
    calc (b - a) * r + half < (b - a) * d + d := by omega
      _ = (b - a + 1) * d := by rw [Int.add_mul, Int.one_mul]
  omega

theorem log2Table_monotone : ∀ k < 64, 0 ≤ log2Table.getD k 0 ∧ log2Table.getD k 0 ≤ log2Table.getD (k + 1) 0
    ∧ log2Table.getD (k + 1) 0 ≤ 262144 := by decide

theorem exp2Table_monotone : ∀ k < 64, 4194304 ≤ exp2Table.getD k 0 ∧ exp2Table.getD k 0 ≤ exp2Table.getD (k + 1) 0
    ∧ exp2Table.getD (k + 1) 0 ≤ 8388608 := by decide

theorem log2Level_neg (x : Int) : log2Level (-x) = log2Level x := by
  simp only [log2Level, Int.natAbs_neg]

/-- A level is the exponent's octave and a mantissa of at most one octave (R79). -/
theorem log2Level_bounds {x : Int} (hlo : -8388608 ≤ x) (hhi : x ≤ 8388607) : -8388608 ≤ log2Level x ∧ log2Level x ≤ 0 := by
  by_cases hzero : x.natAbs = 0
  · simp only [log2Level, if_pos hzero]
    decide
  by_cases hone : x.natAbs = 8388608
  · simp only [log2Level, if_neg hzero, if_pos hone]
    decide
  simp only [log2Level, if_neg hzero, if_neg hone]
  have he : Nat.log2 x.natAbs < 23 := (Nat.log2_lt hzero).mpr (by omega)
  have hf : x.natAbs * 2 ^ (22 - Nat.log2 x.natAbs) % 4194304 < 4194304 := Nat.mod_lt _ (by decide)
  generalize x.natAbs * 2 ^ (22 - Nat.log2 x.natAbs) % 4194304 = f at hf ⊢
  obtain ⟨h0, hmono, h1⟩ := log2Table_monotone (f / 65536) (by omega)
  have hm := interpolate_bounds (r := (f % 65536 : Nat)) (d := 65536) (half := 32768) hmono (by omega) (by omega)
    (by decide) (by decide)
  omega

/-- The mantissa of EXP2 lies in its octave, from 2^22 to 2^23. -/
theorem exp2Mantissa_bounds {g : Nat} (hg : g < 262144) :
    let k := g / 4096
    let m := exp2Table.getD k 0 + ((exp2Table.getD (k + 1) 0 - exp2Table.getD k 0) * (g % 4096 : Nat) + 2048).fdiv 4096
    4194304 ≤ m ∧ m ≤ 8388608 := by
  obtain ⟨h0, hmono, h1⟩ := exp2Table_monotone (g / 4096) (by omega)
  have hm := interpolate_bounds (r := (g % 4096 : Nat)) (d := 4096) (half := 2048) hmono (by omega) (by omega)
    (by decide) (by decide)
  exact ⟨Int.le_trans h0 hm.1, Int.le_trans hm.2 h1⟩

/-- From n = −1 up the value is capped at the largest value; below it the rounded shift halves the mantissa at least once (R80). -/
theorem exp2Level_bounds (u : Int) : 0 ≤ exp2Level u ∧ exp2Level u ≤ 8388607 := by
  obtain ⟨hlo, hhi⟩ := exp2Mantissa_bounds (g := (u % 262144).toNat) (by omega)
  simp only [exp2Level]
  generalize exp2Table.getD ((u % 262144).toNat / 4096) 0 + _ = m at hlo hhi ⊢
  by_cases hn : -1 ≤ u.fdiv 262144
  · rw [if_pos hn]
    have hpos : (0 : Int) ≤ m * (2 ^ (u.fdiv 262144 + 1).toNat : Nat) := Int.mul_nonneg (by omega) (Int.natCast_nonneg _)
    omega
  · rw [if_neg hn]
    obtain ⟨j, hj⟩ : ∃ j : Nat, -u.fdiv 262144 - 2 = j := Int.eq_ofNat_of_zero_le (by omega)
    have hj' : (-u.fdiv 262144 - 1).toNat = j + 1 := by omega
    have hp : 1 ≤ 2 ^ j := Nat.one_le_two_pow
    rw [hj', hj, Int.toNat_natCast, Nat.pow_succ]
    generalize 2 ^ j = w at hp ⊢
    rw [Int.fdiv_eq_ediv_of_nonneg _ (by omega)]
    exact ⟨Int.ediv_nonneg (by omega) (by omega), Int.ediv_le_of_le_mul (by omega) (by omega)⟩

/-! ## Gain steps (R81) -/

theorem crossing_iff (prev sample : Int) : crossing prev sample = true ↔ sample = 0 ∨ (sample < 0 ↔ ¬ prev < 0) := by
  rw [crossing, Bool.or_eq_true, beq_iff_eq, bne_iff_ne, ne_eq, decide_eq_decide]
  omega

theorem ite_setC (b : Bool) (l : Lane) (i : Fin 4) (w : Word) :
    (if b then setC l i w else l) = { l with c := if b then l.c.set i w else l.c } := by
  cases b <;> rfl

/-- A gain steps at a crossing when current and target differ. -/
theorem steps_eq_decide (prev sample cur tgt : Int) :
    (crossing prev sample && cur != tgt) = decide ((sample = 0 ∨ (sample < 0 ↔ ¬ prev < 0)) ∧ cur ≠ tgt) := by
  rw [Bool.eq_iff_iff, Bool.and_eq_true, crossing_iff, bne_iff_ne, decide_eq_true_iff]

end Sys2Proof.Machine

open Sys2Proof Sys2Proof.Machine

/-- Settles O1: each command is its operation over the lanes, and an addition is taken apart by where the sum lies and whether W can
count. -/
theorem accumulatorCommands : Obligations.AccumulatorCommands := by
  unfold Obligations.AccumulatorCommands
  constructor
  · intro s cell p acc x c sh cx neg w ld z h
    refine ⟨?_, ?_, ?_, ?_, ?_, ?_⟩ <;> exact completes_laneEffect h rfl fun _ _ _ => rfl
  · intro a p hlo hhi
    refine ⟨Acc.add_v_mod a p, fun hl up hw => ?_, fun hl down hw => ?_, fun up down => ?_,
      fun hl hu hd => Acc.add_sum hlo hhi hl hu hd, fun h => ?_, fun hl => ?_⟩
    · rw [Acc.add_above hl up (Int.ne_of_lt hw)]
    · rw [Acc.add_below hl down (Int.ne_of_gt hw)]
    · rw [Acc.add_inside up down]; exact ⟨rfl, rfl⟩
    · rw [Acc.add_uncounted h]; exact ⟨rfl, rfl⟩
    · rw [Acc.add_of_lost hl]; exact ⟨hl, rfl⟩

/-- Settles O3: each command is its operation over the lanes with what it records, and an extraction is taken apart by WRAP_LOST and
W as in Table 3.2. -/
theorem recordingCommands : Obligations.RecordingCommands := by
  unfold Obligations.RecordingCommands
  constructor
  · intro s cell p acc d xa sc shift pair amount h
    refine ⟨completes_laneRecord h rfl fun _ _ _ => rfl, completes_laneRecord h rfl fun _ _ l => ?_,
      completes_laneRecord h rfl fun _ _ l => ?_, completes_laneRecord h rfl fun _ _ l => ?_⟩
    · match pair with
      | 0 => rfl
      | 1 => rfl
    · simp only [sat24_recorded]; rfl
    · simp only [sat24_recorded]; rfl
  · intro a field sc hfield hsc
    refine ⟨fun hl => ?_, fun hl hw => ?_, fun hl hw => ?_⟩
    · rw [Acc.ext, Acc.exw, Acc.extract_of_lost hl, Acc.extract_of_lost hl]; exact ⟨rfl, rfl, rfl, rfl⟩
    · rw [Acc.ext, Acc.exw, Acc.extract_of_wrapped hl hw, Acc.extract_of_wrapped hl hw]; exact ⟨rfl, rfl, rfl, rfl⟩
    · have hshift : roundShift a.v.toInt (32 - field) = (a.v.toInt + 2 ^ (31 - field)).fdiv (2 ^ (32 - field)) := by
        rw [roundShift_pos _ (by omega), show 32 - field - 1 = 31 - field by omega]
      obtain ⟨hext, hsat, hnw, hnl⟩ := Acc.extract_of_exact hl hw (fun t => roundShift t (32 - field))
        (show (-8388608 : Int) ≤ 8388607 by decide)
      obtain ⟨hexw, hwsat, hwnw, hwnl⟩ := Acc.extract_of_exact hl hw (fun t => roundShift t sc)
        (show (-140737488355328 : Int) ≤ 140737488355327 by decide)
      rw [hshift] at hext hsat
      rw [roundShift_eq] at hexw hwsat
      exact ⟨hext, hsat, hnw, hnl, hexw, hwsat, hwnw, hwnl⟩

/-- Settles O5: each command is its operation over the lanes, and both tables are monotone, so what is read between two of their
entries stays between them. -/
theorem levelCommands : Obligations.LevelCommands := by
  unfold Obligations.LevelCommands
  constructor
  · intro s cell p acc d xa x xp sh k fsel h
    refine ⟨completes_laneEffect h rfl fun _ _ _ => rfl, completes_laneEffect h rfl fun _ _ _ => rfl,
      completes_laneEffect h rfl fun _ _ l => ?_⟩
    simp only [laneZxg, quiet, ite_setC, steps_eq_decide]
    rfl
  · exact ⟨by decide, by decide, by decide, by decide, fun _ => log2Level_bounds, fun u _ _ => exp2Level_bounds u, log2Level_neg⟩

end

section
/-! What operations on the Braid write: keys of objects, the frame of a step over numeric objects, and raising an event. -/

namespace Sys2Proof.Machine

/-! ## Keys of objects -/

theorem okey_ne_of_sub {i e b i' e' b' : Nat} (h : b % 256 ≠ b' % 256) : okey i e b ≠ okey i' e' b' := by
  unfold okey; omega

theorem okey_elem_inj {i e b e' : Nat} : okey i e b = okey i e' b ↔ e = e' := by
  unfold okey; omega

theorem okey_lane_ne_link {n b l b' : Nat} (hl : l < 65536) (hb : b' < 256) : okey 0x3010 n b ≠ okey 0x3000 l b' := by
  unfold okey; omega

theorem laneNo_inj {l i j : Nat} : laneNo l i = laneNo l j ↔ i = j := by
  unfold laneNo; omega

/-- The objects of some events, of some sub-indices of a link, and of some sub-indices of a lane. Lanes are numbered without bound, so
that a sparing in an arbitrary state needs no bound on its logical lane. -/
def Among (events links lanes : List Nat) (j : Nat) : Prop :=
  (keyIndex j = 0x1300 ∧ keyElem j ∈ events) ∨ (keyIndex j = 0x3000 ∧ keySub j ∈ links)
    ∨ (0x3010 ≤ keyIndex j ∧ keySub j ∈ lanes)

theorem Among.mono {events links lanes events' links' lanes' : List Nat} (he : events ⊆ events') (hl : links ⊆ links')
    (hn : lanes ⊆ lanes') (j : Nat) (h : Among events links lanes j) : Among events' links' lanes' j :=
  h.imp (And.imp_right (@he _)) (Or.imp (And.imp_right (@hl _)) (And.imp_right (@hn _)))

section among

variable {events links lanes : List Nat} {n b : Nat}

theorem Among.event (hn : n < 65536) (hb : b < 256) (h : n ∈ events) : Among events links lanes (okey 0x1300 n b) :=
  .inl ⟨keyIndex_okey _ _ _ hn hb, by rwa [keyElem_okey _ _ _ hn hb]⟩

theorem Among.link (hn : n < 65536) (hb : b < 256) (h : b ∈ links) : Among events links lanes (okey 0x3000 n b) :=
  .inr (.inl ⟨keyIndex_okey _ _ _ hn hb, by rwa [keySub_okey _ _ _ hb]⟩)

theorem Among.lane (hb : b < 256) (h : b ∈ lanes) : Among events links lanes (okey 0x3010 n b) :=
  .inr (.inr ⟨by unfold keyIndex okey; omega, by rwa [keySub_okey _ _ _ hb]⟩)

theorem not_among_event (hn : n < 65536) (hb : b < 256) (h : n ∉ events) : ¬ Among events links lanes (okey 0x1300 n b) := by
  simp only [Among, keyIndex_okey _ _ _ hn hb, keyElem_okey _ _ _ hn hb]
  rintro (⟨-, hk⟩ | ⟨hk, -⟩ | ⟨hk, -⟩)
  · exact h hk
  · exact absurd hk (by decide)
  · exact absurd hk (by decide)

theorem not_among_link (hn : n < 65536) (hb : b < 256) (h : b ∉ links) : ¬ Among events links lanes (okey 0x3000 n b) := by
  simp only [Among, keyIndex_okey _ _ _ hn hb, keySub_okey _ _ _ hb]
  rintro (⟨hk, -⟩ | ⟨-, hk⟩ | ⟨hk, -⟩)
  · exact absurd hk (by decide)
  · exact h hk
  · exact absurd hk (by decide)

theorem not_among_lane (hn : n < 65536) (hb : b < 256) (h : b ∉ lanes) : ¬ Among events links lanes (okey 0x3010 n b) := by
  simp only [Among, keyIndex_okey _ _ _ hn hb, keySub_okey _ _ _ hb]
  rintro (⟨hk, -⟩ | ⟨hk, -⟩ | ⟨-, hk⟩)
  · exact absurd hk (by decide)
  · exact absurd hk (by decide)
  · exact h hk

end among

/-! ## What an operation writes -/

/-- Every numeric object outside K reads as before: `ObjectsKept` with a predicate in place of a list. -/
structure WritesOnly (K : Nat → Prop) (s t : State) : Prop where
  kept : ∀ j, ¬ K j → getO t j = getO s j

namespace WritesOnly

variable {K K' : Nat → Prop} {s t u : State}

theorem refl (K : Nat → Prop) (s : State) : WritesOnly K s s := ⟨fun _ _ => rfl⟩

theorem of_obj (h : t.obj = s.obj) : WritesOnly K s t := ⟨fun j _ => by unfold getO; rw [h]⟩

theorem trans (h : WritesOnly K s t) (h' : WritesOnly K t u) : WritesOnly K s u :=
  ⟨fun j hj => (h'.kept j hj).trans (h.kept j hj)⟩

theorem mono (h : WritesOnly K s t) (hK : ∀ j, K j → K' j) : WritesOnly K' s t := ⟨fun j hj => h.kept j (fun hk => hj (hK j hk))⟩

theorem natO_eq (h : WritesOnly K s t) {j : Nat} (hj : ¬ K j) : natO t j = natO s j := by unfold natO; rw [h.kept j hj]

theorem of_setO {k : Nat} {v : Int} (hk : K k) : WritesOnly K s (setO s k v) :=
  ⟨fun _ hj => getO_setO_ne _ _ (fun e => hj (e ▸ hk))⟩

theorem of_addO {k n : Nat} (hk : K k) : WritesOnly K s (addO s k n) :=
  ⟨fun _ hj => getO_addO_ne _ _ (fun e => hj (e ▸ hk))⟩

theorem of_bumpO {k : Nat} (hk : K k) : WritesOnly K s (bumpO s k) := of_addO hk

theorem of_setMany {l : List (Nat × Int)} (h : ∀ e ∈ l, K e.1) : WritesOnly K s (setMany s l) :=
  ⟨fun _ hj => getO_setMany_ne _ _ _ (fun e he hje => hj (hje ▸ h e he))⟩

theorem of_setLink {l : Nat} {v : LinkSt} : WritesOnly K s (setLink s l v) := of_obj rfl

theorem of_setLane {l i : Nat} {v : LaneSt} : WritesOnly K s (setLane s l i v) := of_obj rfl

theorem foldl {α : Type} {f : State → α → State} {l : List α} (h : ∀ s, ∀ i ∈ l, WritesOnly K s (f s i)) (s : State) :
    WritesOnly K s (l.foldl f s) := by
  induction l generalizing s with
  | nil => exact refl K s
  | cons i l ih => exact (h s i List.mem_cons_self).trans (ih (fun s k hk => h s k (List.mem_cons_of_mem _ hk)) _)

theorem ite {c : Prop} [Decidable c] (ht : WritesOnly K s t) (hu : WritesOnly K s u) : WritesOnly K s (if c then t else u) := by
  split
  · exact ht
  · exact hu

theorem trans_ite {c : Prop} [Decidable c] (h : WritesOnly K s t) (hu : WritesOnly K t u) : WritesOnly K s (if c then u else t) :=
  ite (h.trans hu) h

variable {events links lanes : List Nat} {n d : Nat}

theorem of_raiseFull {f : Nat} {inj lasting : Bool} (h : n ∈ events) (hn : n < 65536) :
    WritesOnly (Among events links lanes) s (raiseFull s f n d inj lasting) :=
  ⟨fun _ hj => getO_raiseFull_ne _ _ _ _ _ _ (fun _ hb e => hj (e ▸ Among.event hn hb h))⟩

theorem of_raise (h : n ∈ events) (hn : n < 65536) : WritesOnly (Among events links lanes) s (raise s n d) := of_raiseFull h hn

theorem of_raiseLasting (h : n ∈ events) (hn : n < 65536) : WritesOnly (Among events links lanes) s (raiseLasting s n d) :=
  of_raiseFull h hn

theorem of_settle {p : Bool} (h : n ∈ events) (hn : n < 65536) : WritesOnly (Among events links lanes) s (settle s n p) := by
  unfold settle clearCondition
  refine ite (refl _ _) (ite (of_obj rfl) ?_)
  exact ⟨fun _ hj => getO_setO_ne _ _ (fun e => hj (e ▸ Among.event hn (by decide) h))⟩

theorem widen {events' links' lanes' : List Nat} (h : WritesOnly (Among events links lanes) s t) (he : events ⊆ events')
    (hl : links ⊆ links') (hn : lanes ⊆ lanes') : WritesOnly (Among events' links' lanes') s t := h.mono (Among.mono he hl hn)

/-- Writing ROLE and LOGICAL of a lane. -/
theorem of_setRole {k : Nat} {v w : Int} (h1 : 1 ∈ lanes) (h2 : 2 ∈ lanes) :
    WritesOnly (Among events links lanes) s (setMany s [(Obj.lane.role k, v), (Obj.lane.logical k, w)]) :=
  trans (of_setO (.lane (by decide) h1)) (of_setO (.lane (by decide) h2))

end WritesOnly

/-! ## Raising an event (R361) -/

theorem okey_sub_inj {i e b b' : Nat} : okey i e b = okey i e b' ↔ b = b' := by
  unfold okey; omega

/-- Raising an event that has not been raised in the running frame sets its objects. -/
theorem raises_raiseFull (s : State) (n d : Nat) (inj lasting : Bool) : Raises s (raiseFull s s.frame n d inj lasting) n d := by
  intro h
  have e (x : State) (y : Events) (j : Nat) : getO { x with ev := y } j = getO x j := rfl
  unfold NotYetRaised at h
  unfold raiseFull
  dsimp only
  split
  case h_1 r hr =>
    exfalso
    split at hr <;> exact absurd hr (by simp [h])
  case h_2 =>
    simp only [EventRaised, natO, e, setMany_cons, setMany_nil, getO_setO, okey_sub_inj, Nat.reduceEqDiff, if_true, if_false,
      Int.toNat_natCast, and_self]

theorem raises_raise (s : State) (n d : Nat) : Raises s (raise s n d) n d := raises_raiseFull _ _ _ _ _

theorem raises_raiseLasting (s : State) (n d : Nat) : Raises s (raiseLasting s n d) n d := raises_raiseFull _ _ _ _ _

/-- A raising of this frame was there before, or is one of the event raised. -/
theorem mem_now_raiseFull {s : State} {m f d : Nat} {inj lasting : Bool} {r : Raised}
    (h : r ∈ (raiseFull s f m d inj lasting).ev.now) : r ∈ s.ev.now ∨ r.event = m := by
  have e (c : Prop) [Decidable c] (l l' : List Nat) (g g' : List (Nat × Nat)) (o : Sparse Int) : (if c then
      { s with obj := o, ev := { s.ev with lasting := l, handling := g } } else
      { s with obj := o, ev := { s.ev with lasting := l', handling := g' } }).ev.now = s.ev.now := by split <;> rfl
  unfold raiseFull at h
  dsimp only at h
  split at h
  case h_1 x hx =>
    have hxm : x.event = m := by have := List.find?_some hx; simp_all
    simp only [setMany_ev, e, List.mem_map] at h
    obtain ⟨y, hy, rfl⟩ := h
    split
    · exact .inr hxm
    · exact .inl hy
  case h_2 =>
    simp only [setMany_ev, bumpSat, setO_ev, e, List.mem_append, List.mem_singleton] at h
    exact h.imp id (fun hr => by rw [hr])

/-- Raising one event leaves it open whether another has been raised in the frame. -/
theorem notYetRaised_raiseFull {s : State} {n m : Nat} (hm : n ≠ m) (f d : Nat) (inj lasting : Bool) (h : NotYetRaised s n) :
    NotYetRaised (raiseFull s f m d inj lasting) n := by
  unfold NotYetRaised at h ⊢
  rw [raiseFull_frame]
  rw [List.find?_eq_none] at h ⊢
  intro r hr
  rcases mem_now_raiseFull hr with hs | he
  · exact h r hs
  · simp [he, Ne.symm hm]

/-- What has been raised stays raised, with its detail and frame, where the event's objects are left alone. -/
theorem Raises.later {s t u : State} {n d : Nat} {K : Nat → Prop} (h : Raises s t n d) (hw : WritesOnly K t u)
    (hK : ∀ b, b < 256 → ¬ K (okey 0x1300 n b)) : Raises s u n d := by
  intro hs
  obtain ⟨⟨hstatus, hsticky⟩, hdetail, hframe⟩ := h hs
  exact ⟨⟨(hw.kept _ (hK 1 (by decide))).trans hstatus, (hw.kept _ (hK 2 (by decide))).trans hsticky⟩,
    (hw.natO_eq (hK 7 (by decide))).trans hdetail, (hw.natO_eq (hK 6 (by decide))).trans hframe⟩

/-- An event raised after a step that does not raise it is raised from before that step on. -/
theorem Raises.earlier {s s' t : State} {n d : Nat} (h : Raises s' t n d) (hf : s'.frame = s.frame)
    (hn : NotYetRaised s n → NotYetRaised s' n) : Raises s t n d := by
  intro hs
  obtain ⟨hr, hdetail, hframe⟩ := h (hn hs)
  exact ⟨hr, hdetail, hframe.trans hf⟩

end Sys2Proof.Machine
end

section
/-! The family of the Braid lanes: links and lanes read back, retraining, sparing at the receiver, leaving a state, and lost block lock. -/

namespace Sys2Proof.Machine

theorem natO_addO_self {s : State} {k n : Nat} (h : natO s k + n < counterSpan k) : natO (addO s k n) k = natO s k + n := by
  rw [addO_eq s h, natO_setO_self, Int.toNat_natCast]

/-! ## Reading links and lanes -/

section reading

variable (s : State) (l k i j : Nat)

theorem linkOf_congr {s t : State} (h : t.braid = s.braid) : linkOf t l = linkOf s l := by unfold linkOf; rw [h]
theorem laneOf_congr {s t : State} (h : t.braid = s.braid) : laneOf t l i = laneOf s l i := by unfold laneOf; rw [h]

@[simp] theorem linkOf_setO (x : Nat) (v : Int) : linkOf (setO s x v) l = linkOf s l := rfl
@[simp] theorem linkOf_addO (x n : Nat) : linkOf (addO s x n) l = linkOf s l := linkOf_congr l (addO_braid s x n)
@[simp] theorem linkOf_bumpO (x : Nat) : linkOf (bumpO s x) l = linkOf s l := linkOf_addO s l x 1
@[simp] theorem linkOf_raise (n d : Nat) : linkOf (raise s n d) l = linkOf s l := linkOf_congr l (raise_braid s n d)
@[simp] theorem linkOf_raiseLasting (n d : Nat) : linkOf (raiseLasting s n d) l = linkOf s l := linkOf_congr l (raiseLasting_braid s n d)
@[simp] theorem linkOf_emit (o : Out) : linkOf (emit s o) l = linkOf s l := rfl
@[simp] theorem linkOf_driveEvtN : linkOf (driveEvtN s) l = linkOf s l := rfl
@[simp] theorem linkOf_setLane (v : LaneSt) : linkOf (setLane s k i v) l = linkOf s l := rfl
@[simp] theorem linkOf_setLink (v : LinkSt) : linkOf (setLink s k v) l = if l = k then v else linkOf s l := Sparse.get_put

@[simp] theorem laneOf_setO (x : Nat) (v : Int) : laneOf (setO s x v) l i = laneOf s l i := rfl
@[simp] theorem laneOf_setMany (w : List (Nat × Int)) : laneOf (setMany s w) l i = laneOf s l i := laneOf_congr l i (setMany_braid s w)
@[simp] theorem laneOf_addO (x n : Nat) : laneOf (addO s x n) l i = laneOf s l i := laneOf_congr l i (addO_braid s x n)
@[simp] theorem laneOf_bumpO (x : Nat) : laneOf (bumpO s x) l i = laneOf s l i := laneOf_addO s l i x 1
@[simp] theorem laneOf_raise (n d : Nat) : laneOf (raise s n d) l i = laneOf s l i := laneOf_congr l i (raise_braid s n d)
@[simp] theorem laneOf_raiseLasting (n d : Nat) : laneOf (raiseLasting s n d) l i = laneOf s l i :=
  laneOf_congr l i (raiseLasting_braid s n d)
@[simp] theorem laneOf_driveEvtN : laneOf (driveEvtN s) l i = laneOf s l i := rfl
@[simp] theorem laneOf_setLink (v : LinkSt) : laneOf (setLink s k v) l i = laneOf s l i := rfl
@[simp] theorem laneOf_setLane (v : LaneSt) : laneOf (setLane s k j v) l i = if laneNo l i = laneNo k j then v else laneOf s l i :=
  Sparse.get_put

@[simp] theorem settle_braid (n : Nat) (p : Bool) : (settle s n p).braid = s.braid := by
  unfold settle clearCondition
  split
  · rfl
  · dsimp only; split <;> rfl
@[simp] theorem linkOf_settle (n : Nat) (p : Bool) : linkOf (settle s n p) l = linkOf s l := linkOf_congr l (settle_braid s n p)
@[simp] theorem laneOf_settle (n : Nat) (p : Bool) : laneOf (settle s n p) l i = laneOf s l i := laneOf_congr l i (settle_braid s n p)

end reading

theorem laneNo_lt {l i : Nat} (hl : l < 6) (hi : i < 9) : laneNo l i < 65536 := by unfold laneNo; omega

section through

variable {K : Nat → Prop} {s t : State} {l i : Nat}

theorem WritesOnly.linkState_eq (h : WritesOnly K s t) (hK : ¬ K (Obj.link.state l)) : linkState t l = linkState s l := h.natO_eq hK

theorem WritesOnly.linkActive_eq (h : WritesOnly K s t) (hK : ¬ K (Obj.link.state l)) : linkActive t l = linkActive s l := by
  unfold linkActive; rw [h.linkState_eq hK]

theorem WritesOnly.laneRole_eq (h : WritesOnly K s t) (hK : ¬ K (Obj.lane.role (laneNo l i))) : laneRole t l i = laneRole s l i :=
  h.natO_eq hK

theorem WritesOnly.laneLocked_eq (h : WritesOnly K s t) (hK : ¬ K (Obj.lane.locked (laneNo l i))) :
    laneLocked t l i = laneLocked s l i := by
  unfold laneLocked; rw [h.kept _ hK]

end through

theorem linkActive_iff {s : State} {l : Nat} : linkActive s l = true ↔ linkState s l = 6 := by simp [linkActive]

/-! A command's last act, driving EVT_N, shows in none of this. -/

section driven

variable (s t : State) (l i n d k : Nat)

@[simp] theorem linkState_driveEvtN : linkState (driveEvtN s) l = linkState s l := rfl
@[simp] theorem laneRole_driveEvtN : laneRole (driveEvtN s) l i = laneRole s l i := rfl
@[simp] theorem countsOne_driveEvtN : CountsOne s (driveEvtN t) k ↔ CountsOne s t k := Iff.rfl
@[simp] theorem raises_driveEvtN : Raises s (driveEvtN t) n d ↔ Raises s t n d := Iff.rfl

end driven

/-! ## Sending on a link (R223, R224) -/

section sending

variable (s : State) (l cls kind : Nat) (bytes : List Byte)

@[simp] theorem sendBraid_obj : (sendBraid s l cls kind bytes).obj = s.obj := by
  unfold sendBraid; split <;> rfl

@[simp] theorem laneOf_sendBraid (k i : Nat) : laneOf (sendBraid s l cls kind bytes) k i = laneOf s k i := by
  unfold sendBraid; split <;> rfl

@[simp] theorem rxSpare_sendBraid (k : Nat) : (linkOf (sendBraid s l cls kind bytes) k).rxSpare = (linkOf s k).rxSpare := by
  unfold sendBraid
  split
  · rfl
  · simp only [linkOf_emit, linkOf_setLink]; split <;> simp_all

@[simp] theorem deskewed_sendBraid (k : Nat) : (linkOf (sendBraid s l cls kind bytes) k).deskewed = (linkOf s k).deskewed := by
  unfold sendBraid
  split
  · rfl
  · simp only [linkOf_emit, linkOf_setLink]; split <;> simp_all

theorem WritesOnly.of_sendBraid {K : Nat → Prop} : WritesOnly K s (sendBraid s l cls kind bytes) := .of_obj (sendBraid_obj ..)

/-- A message handed to an ACTIVE link is sent under some MSG_SEQ. -/
theorem sendBraid_out (h : linkActive s l = true) : ∃ seq, (sendBraid s l cls kind bytes).out = .braid l cls seq kind bytes :: s.out := by
  unfold sendBraid
  rw [h]
  exact ⟨_, rfl⟩

end sending

/-! ## A lane retrains in the background (R235) -/

section retrain

variable (s : State) (l i : Nat)

theorem retrainLane_writes : WritesOnly (Among [] [] [1, 2, 6]) s (retrainLane s l i) :=
  .trans .of_setLane (.trans (.of_setRole (by decide) (by decide)) (.of_setO (.lane (by decide) (by decide))))

@[simp] theorem linkOf_retrainLane (k : Nat) : linkOf (retrainLane s l i) k = linkOf s k := by simp [retrainLane]

@[simp] theorem retrainLane_out : (retrainLane s l i).out = s.out := by simp [retrainLane]

@[simp] theorem retrainLane_frame : (retrainLane s l i).frame = s.frame := by simp [retrainLane]

@[simp] theorem retrainLane_ev : (retrainLane s l i).ev = s.ev := by simp [retrainLane]

@[simp] theorem eq_retrainLane (k j : Nat) : (laneOf (retrainLane s l i) k j).eq = (laneOf s k j).eq := by
  simp only [retrainLane, laneOf_setMany, laneOf_setLane]
  split
  · next h => simp [laneOf, h]
  · rfl

@[simp] theorem laneRole_retrainLane_self : laneRole (retrainLane s l i) l i = 3 := by
  simp [retrainLane, laneRole, natO, getO_setO, okey_sub_inj]

theorem laneRole_retrainLane_ne {j : Nat} (h : j ≠ i) : laneRole (retrainLane s l i) l j = laneRole s l j := by
  simp [retrainLane, laneRole, natO, getO_setO, okey_elem_inj, laneNo_inj, h, okey_ne_of_sub]

/-- A lane that is not locked does not become so when some lane retrains. -/
theorem laneLocked_retrainLane {j : Nat} (h : laneLocked s l j = false) : laneLocked (retrainLane s l i) l j = false := by
  unfold laneLocked at h ⊢
  have hrole : okey 0x3010 (laneNo l j) 6 ≠ okey 0x3010 (laneNo l i) 1 := okey_ne_of_sub (by decide)
  have hlogical : okey 0x3010 (laneNo l j) 6 ≠ okey 0x3010 (laneNo l i) 2 := okey_ne_of_sub (by decide)
  simp only [retrainLane, setMany_cons, setMany_nil, getO_setO, hrole, hlogical, if_false, getO_setLane]
  split
  · rfl
  · exact h

end retrain

/-! ## Sparing at the receiver (R233, R234) -/

section sparing

variable (s : State) (l k : Nat)

theorem cancelSpare_writes : WritesOnly (Among [104] [] [1, 2, 6]) s (cancelSpare s l k) := by
  unfold cancelSpare
  refine .trans (.trans (.trans .of_setLink (.widen (retrainLane_writes ..) ?_ ?_ ?_)) (.of_raise ?_ ?_)) (.of_sendBraid ..)
    <;> decide

theorem linkState_cancelSpare (hl : l < 6) : linkState (cancelSpare s l k) l = linkState s l :=
  (cancelSpare_writes s l k).linkState_eq (not_among_link (by omega) (by decide) (by decide))

@[simp] theorem rxSpare_cancelSpare : (linkOf (cancelSpare s l k) l).rxSpare = none := by simp [cancelSpare]

@[simp] theorem deskewed_cancelSpare : (linkOf (cancelSpare s l k) l).deskewed = (linkOf s l).deskewed := by simp [cancelSpare]

@[simp] theorem eq_cancelSpare (i : Nat) : (laneOf (cancelSpare s l k) l i).eq = (laneOf s l i).eq := by simp [cancelSpare]

/-- Behind the retraining of SP only event 104 and a message follow. -/
theorem cancelSpare_after_retrain : WritesOnly (Among [104] [] [])
    (retrainLane (setLink s l { linkOf s l with rxSpare := none }) l 8) (cancelSpare s l k) :=
  .trans (.of_raise (by decide) (by decide)) (.of_sendBraid ..)

theorem laneLocked_cancelSpare {i : Nat} (hl : l < 6) (hi : i < 9) (h : laneLocked s l i = false) :
    laneLocked (cancelSpare s l k) l i = false := by
  rw [(cancelSpare_after_retrain s l k).laneLocked_eq (not_among_lane (laneNo_lt hl hi) (by decide) (by decide))]
  exact laneLocked_retrainLane _ _ _ h

theorem laneRole_cancelSpare (hl : l < 6) : laneRole (cancelSpare s l k) l 8 = 3 := by
  rw [(cancelSpare_after_retrain s l k).laneRole_eq (not_among_lane (laneNo_lt hl (by decide)) (by decide) (by decide))]
  exact laneRole_retrainLane_self ..

theorem cancelSpare_raises : Raises s (cancelSpare s l k) 104 (laneNo l k) :=
  ((raises_raise _ _ _).later (.of_sendBraid (K := fun _ => False) ..) (fun _ _ => id)).earlier (by simp)
    (fun h => by simpa [NotYetRaised] using h)

theorem cancelSpare_out (hl : l < 6) (h : linkActive s l = true) :
    ∃ seq, (cancelSpare s l k).out = .braid l 1 seq 0xF2 (spareBytes k) :: s.out := by
  have hw : WritesOnly (Among [104] [] [1, 2, 6]) s
      (raise (retrainLane (setLink s l { linkOf s l with rxSpare := none }) l 8) 104 (laneNo l k)) :=
    .trans (.trans .of_setLink ((retrainLane_writes ..).widen (by decide) (by decide) (by decide))) (.of_raise (by decide) (by decide))
  obtain ⟨seq, hseq⟩ := sendBraid_out _ l 1 0xF2 (spareBytes k)
    ((hw.linkActive_eq (not_among_link (by omega) (by decide) (by decide))).trans h)
  exact ⟨seq, by rw [cancelSpare, hseq]; simp⟩

@[simp] theorem requestSpare_obj (checks : Bool) : (requestSpare s l k checks).obj = s.obj := by
  unfold requestSpare
  split
  · rw [sendBraid_obj]; rfl
  · rfl

@[simp] theorem laneOf_requestSpare (checks : Bool) (j i : Nat) : laneOf (requestSpare s l k checks) j i = laneOf s j i := by
  unfold requestSpare; split <;> simp

@[simp] theorem deskewed_requestSpare (checks : Bool) : (linkOf (requestSpare s l k checks) l).deskewed = (linkOf s l).deskewed := by
  unfold requestSpare; split <;> simp

/-- Where SP is free on an ACTIVE link, the request is noted and sent. -/
theorem requestSpare_rxSpare (checks : Bool) (h : linkActive s l = true) (hf : spareFree s l = true) :
    (linkOf (requestSpare s l k checks) l).rxSpare = some ⟨k, false, checks, true⟩ := by
  simp [requestSpare, h, hf]

theorem requestSpare_out (checks : Bool) (h : linkActive s l = true) (hf : spareFree s l = true) :
    ∃ seq, (requestSpare s l k checks).out = .braid l 1 seq 0xF0 (spareBytes k) :: s.out := by
  simp only [requestSpare, h, hf, Bool.and_self, if_true]
  exact sendBraid_out _ _ _ _ _ h

end sparing

/-! ## A link leaves its state (R226, R229, R232) -/

section leaving

variable {s : State} {l : Nat}

theorem dropLink_writes (hl : l < 6) (st : Nat) : WritesOnly (Among [96] [4, 5, 6, 7, 8] [1, 2]) s (dropLink s l st) := by
  unfold dropLink
  dsimp only
  refine .trans_ite (.trans (.trans .of_setLink (.of_setMany ?_)) (.foldl (fun u i _ => .of_setRole (by decide) (by decide)) _))
    (.of_raiseLasting (by decide) (by decide))
  simp only [List.forall_mem_cons]
  refine ⟨?_, ?_, ?_, ?_, ?_, fun _ h => nomatch h⟩ <;> exact .link (by omega) (by decide) (by decide)

theorem linkState_dropLink (hl : l < 6) (st : Nat) : linkState (dropLink s l st) l = st := by
  have hlanes (u : State) : WritesOnly (Among [96] [] [1, 2]) u (dataLanes.foldl
      (fun s i => setMany s [(Obj.lane.role (laneNo l i), 5), (Obj.lane.logical (laneNo l i), 255)]) u) := by
    exact .foldl (fun u i _ => .of_setRole (by decide) (by decide)) u
  have hstate : ¬ Among [96] [] [1, 2] (Obj.link.state l) := not_among_link (by omega) (by decide) (by decide)
  unfold dropLink
  dsimp only
  refine (((hlanes _).trans_ite (.of_raiseLasting (by decide) (by decide))).linkState_eq hstate).trans ?_
  simp [linkState, natO, getO_setO, okey_sub_inj]

theorem enterDetect_writes (hl : l < 6) : WritesOnly (Among [96] [4, 5, 6, 7, 8] [1, 2]) s (enterDetect s l) :=
  .ite (dropLink_writes hl 1) (dropLink_writes hl 0)

theorem linkState_enterDetect (hl : l < 6) : linkState (enterDetect s l) l ≤ 1 := by
  unfold enterDetect
  split
  · exact Nat.le_of_eq (linkState_dropLink hl 1)
  · exact Nat.le_trans (Nat.le_of_eq (linkState_dropLink hl 0)) (Nat.zero_le 1)

theorem startAttempt_writes (hl : l < 6) : WritesOnly (Among [] [4, 10, 13] [6]) s (startAttempt s l) := by
  unfold startAttempt
  dsimp only
  refine .trans (.trans (.trans .of_setLink (.foldl (fun u i _ => .trans .of_setLane (.of_setO ?_)) _)) (.of_bumpO ?_)) (.of_setMany ?_)
  · exact .lane (by decide) (by decide)
  · exact .link (by omega) (by decide) (by decide)
  · simp only [List.forall_mem_cons]
    exact ⟨.link (by omega) (by decide) (by decide), .link (by omega) (by decide) (by decide), fun _ h => nomatch h⟩

theorem failAttempt_writes (hl : l < 6) (code : Nat) :
    WritesOnly (Among [96, 97] [4, 5, 6, 7, 8, 10, 11, 12, 13] [1, 2, 6]) s (failAttempt s l code) := by
  unfold failAttempt
  dsimp only
  refine .trans (.trans (.trans (.trans (.of_bumpO ?_) (.of_setO ?_))
    ((dropLink_writes hl 1).widen (by decide) (by decide) (by decide))) .of_setLink)
    (.ite ((startAttempt_writes hl).widen (by decide) (by decide) (by decide))
      (.trans (.of_setMany ?_) (.of_raiseLasting (by decide) (by decide))))
  · exact .link (by omega) (by decide) (by decide)
  · exact .link (by omega) (by decide) (by decide)
  · simp only [List.forall_mem_cons]
    exact ⟨.link (by omega) (by decide) (by decide), .link (by omega) (by decide) (by decide), fun _ h => nomatch h⟩
end leaving

/-! ## Lost block lock (R233 to R235) -/

/-- The state in which a lost block lock is answered: counted, shown, raised as event 101 (R219, R221). -/
def lockMissed (s : State) (l lane invalid : Nat) : State :=
  let n := laneNo l lane
  let s := setO (addO (bumpO s (Obj.lane.lockLosses n)) (Obj.lane.headerErrors n) invalid) (Obj.lane.locked n) 0
  raiseLasting (setLane s l lane { laneOf s l lane with lockLost := true }) 101 n

theorem loseBlockLock_eq {s : State} {l lane : Nat} (h : laneLocked s l lane = true) (invalid : Nat) :
    loseBlockLock s l lane invalid = if linkActive (lockMissed s l lane invalid) l then lockLostActive (lockMissed s l lane invalid) l lane
      else lockMissed s l lane invalid := by
  simp [loseBlockLock, h, lockMissed]

theorem loseBlockLock_unlocked {s : State} {l lane : Nat} (h : laneLocked s l lane = false) (invalid : Nat) :
    loseBlockLock s l lane invalid = s := by
  simp [loseBlockLock, h]

section missed

variable (s : State) (l lane invalid : Nat)

theorem lockMissed_writes : WritesOnly (Among [101] [] [6, 8, 9]) s (lockMissed s l lane invalid) :=
  .trans (.trans (.trans (.trans (.of_bumpO (.lane (by decide) (by decide))) (.of_addO (.lane (by decide) (by decide))))
    (.of_setO (.lane (by decide) (by decide)))) .of_setLane) (.of_raiseLasting (by decide) (by decide))

@[simp] theorem linkOf_lockMissed (k : Nat) : linkOf (lockMissed s l lane invalid) k = linkOf s k := by simp [lockMissed]

@[simp] theorem lockMissed_out : (lockMissed s l lane invalid).out = s.out := by simp [lockMissed]

@[simp] theorem lockMissed_frame : (lockMissed s l lane invalid).frame = s.frame := by simp [lockMissed]

theorem linkActive_lockMissed (hl : l < 6) : linkActive (lockMissed s l lane invalid) l = linkActive s l :=
  (lockMissed_writes ..).linkActive_eq (not_among_link (by omega) (by decide) (by decide))

theorem linkState_lockMissed (hl : l < 6) : linkState (lockMissed s l lane invalid) l = linkState s l :=
  (lockMissed_writes ..).linkState_eq (not_among_link (by omega) (by decide) (by decide))

theorem laneRole_lockMissed {i : Nat} (hl : l < 6) (hi : i < 9) : laneRole (lockMissed s l lane invalid) l i = laneRole s l i :=
  (lockMissed_writes ..).laneRole_eq (not_among_lane (laneNo_lt hl hi) (by decide) (by decide))

/-- The objects of the lane are written before the event is raised. -/
theorem lockMissed_after_objects : WritesOnly (Among [101] [] [])
    (setO (addO (bumpO s (Obj.lane.lockLosses (laneNo l lane))) (Obj.lane.headerErrors (laneNo l lane)) invalid)
      (Obj.lane.locked (laneNo l lane)) 0) (lockMissed s l lane invalid) :=
  .trans .of_setLane (.of_raiseLasting (by decide) (by decide))

theorem laneLocked_lockMissed (hl : l < 6) (hi : lane < 9) : laneLocked (lockMissed s l lane invalid) l lane = false := by
  rw [(lockMissed_after_objects ..).laneLocked_eq (not_among_lane (laneNo_lt hl hi) (by decide) (by decide)), laneLocked, getO_setO_self]
  rfl

/-- The locks of the other lanes stand. -/
theorem laneLocked_lockMissed_ne {i : Nat} (hl : l < 6) (hi : i < 9) (h : i ≠ lane) :
    laneLocked (lockMissed s l lane invalid) l i = laneLocked s l i := by
  rw [(lockMissed_after_objects ..).laneLocked_eq (not_among_lane (laneNo_lt hl hi) (by decide) (by decide)), laneLocked, laneLocked,
    getO_setO_ne _ _ (by rwa [ne_eq, okey_elem_inj, laneNo_inj]), getO_addO_ne _ _ (okey_ne_of_sub (by decide)),
    getO_bumpO_ne _ (okey_ne_of_sub (by decide))]

theorem spareFree_lockMissed (hl : l < 6) (h : lane ≠ 8) : spareFree (lockMissed s l lane invalid) l = spareFree s l := by
  unfold spareFree
  rw [laneLocked_lockMissed_ne _ _ _ _ hl (by decide) (Ne.symm h), laneRole_lockMissed _ _ _ _ hl (by decide), linkOf_lockMissed,
    (lockMissed_writes ..).natO_eq (not_among_link (by omega) (by decide) (by decide))]

theorem lockMissed_counts (hl : l < 6) (hi : lane < 9) :
    CountsOne s (lockMissed s l lane invalid) (Obj.lane.lockLosses (laneNo l lane)) := by
  intro h
  rw [(lockMissed_after_objects ..).natO_eq (not_among_lane (laneNo_lt hl hi) (by decide) (by decide)),
    natO_setO_ne _ _ (okey_ne_of_sub (by decide)), natO_addO_ne _ _ (okey_ne_of_sub (by decide))]
  exact natO_addO_self h

theorem lockMissed_headerErrors (hl : l < 6) (hi : lane < 9)
    (h : natO s (Obj.lane.headerErrors (laneNo l lane)) + invalid < counterSpan (Obj.lane.headerErrors (laneNo l lane))) :
    natO (lockMissed s l lane invalid) (Obj.lane.headerErrors (laneNo l lane))
      = natO s (Obj.lane.headerErrors (laneNo l lane)) + invalid := by
  have hbump : natO (bumpO s (Obj.lane.lockLosses (laneNo l lane))) (Obj.lane.headerErrors (laneNo l lane))
      = natO s (Obj.lane.headerErrors (laneNo l lane)) := natO_bumpO_ne _ (okey_ne_of_sub (by decide))
  rw [(lockMissed_after_objects ..).natO_eq (not_among_lane (laneNo_lt hl hi) (by decide) (by decide)),
    natO_setO_ne _ _ (okey_ne_of_sub (by decide)), natO_addO_self (by rwa [hbump]), hbump]

theorem lockMissed_raises : Raises s (lockMissed s l lane invalid) 101 (laneNo l lane) :=
  (raises_raiseLasting _ _ _).earlier (by simp) (fun h => by simpa [NotYetRaised] using h)

theorem notYetRaised_lockMissed {n : Nat} (hn : n ≠ 101) (h : NotYetRaised s n) : NotYetRaised (lockMissed s l lane invalid) n :=
  notYetRaised_raiseFull hn _ _ _ _ (by simpa [NotYetRaised] using h)

end missed

section lost

variable {s : State} {l lane : Nat}

theorem lockLostActive_spare {p : Sparing} (h : (linkOf s l).rxSpare = some p) :
    lockLostActive s l 8 = if p.checks then cancelSpare s l p.logical else enterDetect s l := by
  simp [lockLostActive, h]

theorem lockLostActive_idle (hr : laneRole s l lane = 1) (h : lane = 8 → (linkOf s l).rxSpare = none) :
    lockLostActive s l lane = retrainLane s l lane := by
  by_cases h8 : lane = 8 <;> simp_all [lockLostActive]

theorem lockLostActive_data (hr : laneRole s l lane = 0) (hi : lane < 8) :
    lockLostActive s l lane = if spareFree s l then requestSpare s l lane false else enterDetect s l := by
  simp [lockLostActive, carriedBy, hr, hi, Nat.ne_of_lt hi]

/-- What is done about a lane in use that has lost lock. -/
theorem lockLostActive_cases (s : State) (l lane : Nat) :
    (lane = 8 ∧ ∃ k, lockLostActive s l lane = cancelSpare s l k) ∨ lockLostActive s l lane = enterDetect s l
      ∨ (∃ k, lockLostActive s l lane = requestSpare s l k false) ∨ lockLostActive s l lane = retrainLane s l lane
      ∨ lockLostActive s l lane = s := by
  unfold lockLostActive
  split
  case h_1 p hp =>
    have h8 : lane = 8 := Decidable.byContradiction fun h => by rw [if_neg h] at hp; exact nomatch hp
    split
    · exact .inl ⟨h8, p.logical, rfl⟩
    · exact .inr (.inl rfl)
  case h_2 =>
    split
    · split
      · split
        · exact .inr (.inr (.inl ⟨_, rfl⟩))
        · exact .inr (.inl rfl)
      · exact .inr (.inl rfl)
    · exact .inr (.inr (.inr (.inl rfl)))
    · exact .inr (.inr (.inr (.inr rfl)))

theorem lockLostActive_writes (hl : l < 6) : WritesOnly (Among [96, 104] [4, 5, 6, 7, 8] [1, 2, 6]) s (lockLostActive s l lane) := by
  rcases lockLostActive_cases s l lane with ⟨-, k, h⟩ | h | ⟨k, h⟩ | h | h <;> rw [h]
  · exact (cancelSpare_writes ..).widen (by decide) (by decide) (by decide)
  · exact (enterDetect_writes hl).widen (by decide) (by decide) (by decide)
  · exact .of_obj (requestSpare_obj ..)
  · exact (retrainLane_writes ..).widen (by decide) (by decide) (by decide)
  · exact .refl _ _

/-- No lane is locked by the answer to a lost lock. -/
theorem laneLocked_lockLostActive (hl : l < 6) (hi : lane < 9) (h : laneLocked s l lane = false) :
    laneLocked (lockLostActive s l lane) l lane = false := by
  rcases lockLostActive_cases s l lane with ⟨-, k, e⟩ | e | ⟨k, e⟩ | e | e <;> rw [e]
  · exact laneLocked_cancelSpare _ _ _ hl hi h
  · rw [(enterDetect_writes hl).laneLocked_eq (not_among_lane (laneNo_lt hl hi) (by decide) (by decide))]
    exact h
  · rw [(WritesOnly.of_obj (K := fun _ => False) (requestSpare_obj ..)).laneLocked_eq id]
    exact h
  · exact laneLocked_retrainLane _ _ _ h
  · exact h

theorem loseBlockLock_inactive (h : laneLocked s l lane = true) (hl : l < 6) (ha : linkActive s l = false) (invalid : Nat) :
    loseBlockLock s l lane invalid = lockMissed s l lane invalid := by
  rw [loseBlockLock_eq h, linkActive_lockMissed _ _ _ _ hl, ha]
  rfl

theorem loseBlockLock_active (h : laneLocked s l lane = true) (hl : l < 6) (ha : linkActive s l = true) (invalid : Nat) :
    loseBlockLock s l lane invalid = lockLostActive (lockMissed s l lane invalid) l lane := by
  rw [loseBlockLock_eq h, linkActive_lockMissed _ _ _ _ hl, ha]
  rfl

theorem loseBlockLock_after_missed (h : laneLocked s l lane = true) (hl : l < 6) (invalid : Nat) :
    WritesOnly (Among [96, 104] [4, 5, 6, 7, 8] [1, 2, 6]) (lockMissed s l lane invalid) (loseBlockLock s l lane invalid) := by
  rw [loseBlockLock_eq h]
  exact .ite (lockLostActive_writes hl) (.refl _ _)

theorem loseBlockLock_counts (h : laneLocked s l lane = true) (hl : l < 6) (hi : lane < 9) (invalid : Nat) :
    CountsOne s (loseBlockLock s l lane invalid) (Obj.lane.lockLosses (laneNo l lane)) := fun hc =>
  ((loseBlockLock_after_missed h hl invalid).natO_eq (not_among_lane (laneNo_lt hl hi) (by decide) (by decide))).trans
    (lockMissed_counts s l lane invalid hl hi hc)

theorem loseBlockLock_headerErrors (h : laneLocked s l lane = true) (hl : l < 6) (hi : lane < 9) {invalid : Nat}
    (hc : natO s (Obj.lane.headerErrors (laneNo l lane)) + invalid < counterSpan (Obj.lane.headerErrors (laneNo l lane))) :
    natO (loseBlockLock s l lane invalid) (Obj.lane.headerErrors (laneNo l lane))
      = natO s (Obj.lane.headerErrors (laneNo l lane)) + invalid :=
  ((loseBlockLock_after_missed h hl invalid).natO_eq (not_among_lane (laneNo_lt hl hi) (by decide) (by decide))).trans
    (lockMissed_headerErrors s l lane invalid hl hi hc)

theorem loseBlockLock_raises (h : laneLocked s l lane = true) (hl : l < 6) (invalid : Nat) :
    Raises s (loseBlockLock s l lane invalid) 101 (laneNo l lane) :=
  (lockMissed_raises s l lane invalid).later (loseBlockLock_after_missed h hl invalid)
    (fun _ hb => not_among_event (by decide) hb (by decide))

theorem laneLocked_loseBlockLock (h : laneLocked s l lane = true) (hl : l < 6) (hi : lane < 9) (invalid : Nat) :
    laneLocked (loseBlockLock s l lane invalid) l lane = false := by
  rw [loseBlockLock_eq h]
  split
  · exact laneLocked_lockLostActive hl hi (laneLocked_lockMissed _ _ _ _ hl hi)
  · exact laneLocked_lockMissed _ _ _ _ hl hi

/-- Lock lost by an idle spare, or by SP where it carries nothing: the lane retrains and the link stays ACTIVE. -/
theorem loseBlockLock_idle (h : laneLocked s l lane = true) (hl : l < 6) (hi : lane < 9) (ha : linkActive s l = true)
    (hr : laneRole s l lane = 1) (hs : lane = 8 → (linkOf s l).rxSpare = none) (invalid : Nat) :
    laneRole (loseBlockLock s l lane invalid) l lane = 3 ∧ linkState (loseBlockLock s l lane invalid) l = 6 := by
  rw [loseBlockLock_active h hl ha, lockLostActive_idle (by rwa [laneRole_lockMissed _ _ _ _ hl hi]) (by simpa using hs)]
  refine ⟨laneRole_retrainLane_self .., ?_⟩
  rw [(retrainLane_writes ..).linkState_eq (not_among_link (by omega) (by decide) (by decide)), ← linkActive_iff,
    linkActive_lockMissed _ _ _ _ hl, ha]

/-- Lock lost by SP during a sparing that checks the copy: the sparing is given up with event 104 and SPARE_CANCEL. -/
theorem loseBlockLock_cancels {p : Sparing} (h : laneLocked s l 8 = true) (hl : l < 6) (ha : linkActive s l = true)
    (hp : (linkOf s l).rxSpare = some p) (hc : p.checks = true) (invalid : Nat) :
    let t := loseBlockLock s l 8 invalid
    (linkOf t l).rxSpare = none ∧ laneRole t l 8 = 3 ∧ linkState t l = 6 ∧ Raises s t 104 (laneNo l p.logical)
      ∧ ∃ seq, t.out = .braid l 1 seq 0xF2 (spareBytes p.logical) :: s.out := by
  have hm : linkActive (lockMissed s l 8 invalid) l = true := by rw [linkActive_lockMissed _ _ _ _ hl, ha]
  dsimp only
  rw [loseBlockLock_active h hl ha, lockLostActive_spare (p := p) (by simpa using hp), hc, if_pos rfl]
  refine ⟨rxSpare_cancelSpare .., laneRole_cancelSpare _ _ _ hl, ?_, ?_, ?_⟩
  · rw [linkState_cancelSpare _ _ _ hl, ← linkActive_iff, hm]
  · exact (cancelSpare_raises _ _ _).earlier (lockMissed_frame ..) (notYetRaised_lockMissed _ _ _ _ (by decide))
  · simpa using cancelSpare_out _ l p.logical hl hm

/-- Lock lost by SP during a sparing without the check: the link drops. -/
theorem loseBlockLock_drops_spare {p : Sparing} (h : laneLocked s l 8 = true) (hl : l < 6) (ha : linkActive s l = true)
    (hp : (linkOf s l).rxSpare = some p) (hc : p.checks = false) (invalid : Nat) : linkState (loseBlockLock s l 8 invalid) l ≤ 1 := by
  rw [loseBlockLock_active h hl ha, lockLostActive_spare (p := p) (by simpa using hp), hc]
  exact linkState_enterDetect hl

/-- Lock lost by a data lane in use where SP is free: the lane is spared without the check. -/
theorem loseBlockLock_spares (h : laneLocked s l lane = true) (hl : l < 6) (hi : lane < 8) (ha : linkActive s l = true)
    (hr : laneRole s l lane = 0) (hf : spareFree s l = true) (invalid : Nat) :
    let t := loseBlockLock s l lane invalid
    (linkOf t l).rxSpare = some ⟨lane, false, false, true⟩ ∧ ∃ seq, t.out = .braid l 1 seq 0xF0 (spareBytes lane) :: s.out := by
  have hm : linkActive (lockMissed s l lane invalid) l = true := by rw [linkActive_lockMissed _ _ _ _ hl, ha]
  have hmf : spareFree (lockMissed s l lane invalid) l = true := by rw [spareFree_lockMissed _ _ _ _ hl (by omega), hf]
  dsimp only
  rw [loseBlockLock_active h hl ha, lockLostActive_data (by rwa [laneRole_lockMissed _ _ _ _ hl (by omega)]) hi, hmf, if_pos rfl]
  exact ⟨requestSpare_rxSpare _ _ _ _ hm hmf, by simpa using requestSpare_out _ l lane false hm hmf⟩

/-- Lock lost by a data lane in use where SP is not free: the link drops. -/
theorem loseBlockLock_drops_data (h : laneLocked s l lane = true) (hl : l < 6) (hi : lane < 8) (ha : linkActive s l = true)
    (hr : laneRole s l lane = 0) (hf : spareFree s l = false) (invalid : Nat) : linkState (loseBlockLock s l lane invalid) l ≤ 1 := by
  rw [loseBlockLock_active h hl ha, lockLostActive_data (by rwa [laneRole_lockMissed _ _ _ _ hl (by omega)]) hi,
    spareFree_lockMissed _ _ _ _ hl (by omega), hf]
  exact linkState_enterDetect hl

end lost

end Sys2Proof.Machine
end

section
/-! Markers of a Braid lane: deskew, adaptation, and the sparing that markers of SP move on. -/

namespace Sys2Proof.Machine

/-! ## ACTIVE is entered (R222, R231) -/

section entering

variable {s : State} {l : Nat}

theorem linkOf_foldl {α : Type} {f : State → α → State} (h : ∀ s i, linkOf (f s i) l = linkOf s l) (w : List α) (s : State) :
    linkOf (w.foldl f s) l = linkOf s l := by
  induction w generalizing s with
  | nil => rfl
  | cons i w ih => rw [List.foldl_cons, ih, h]

theorem enterActive_writes (hl : l < 6) : WritesOnly (Among [96, 97, 98] [4, 5, 6, 7, 8, 13] [1, 2]) s (enterActive s l) := by
  unfold enterActive
  dsimp only
  refine .trans (.trans (.trans (.trans (.trans .of_setLink (.of_setMany ?_)) (.foldl (fun u i _ => .trans .of_setLane (.of_setRole (by decide) (by decide))) _))
    (.of_settle (by decide) (by decide))) (.of_settle (by decide) (by decide))) (.of_settle (by decide) (by decide))
  simp only [List.forall_mem_cons]
  refine ⟨?_, ?_, ?_, ?_, ?_, ?_, fun _ h => nomatch h⟩ <;> exact .link (by omega) (by decide) (by decide)

@[simp] theorem deskewed_enterActive : (linkOf (enterActive s l) l).deskewed = (linkOf s l).deskewed := by
  unfold enterActive
  dsimp only
  rw [linkOf_settle, linkOf_settle, linkOf_settle, linkOf_foldl (fun u i => by simp)]
  simp

theorem deskewStep_writes (hl : l < 6) : WritesOnly (Among [96, 97, 98] [4, 5, 6, 7, 8, 13] [1, 2]) s (deskewStep s l) :=
  .ite (enterActive_writes hl) (.refl _ _)

@[simp] theorem deskewed_deskewStep : (linkOf (deskewStep s l) l).deskewed = (linkOf s l).deskewed := by
  unfold deskewStep; dsimp only; split <;> simp

end entering

/-! ## Deskew at a marker (R222) -/

section deskew

variable {s : State} {l lane : Nat}

theorem deskewMarker_of_state (h : linkState s l ≠ 5) : deskewMarker s l lane = s := by
  simp [deskewMarker, h]

theorem deskewMarker_writes (hl : l < 6) :
    WritesOnly (Among [96, 97, 98, 102] [4, 5, 6, 7, 8, 10, 11, 12, 13, 16] [1, 2, 6, 7]) s (deskewMarker s l lane) := by
  have hfail (u : State) : WritesOnly (Among [96, 97, 98, 102] [4, 5, 6, 7, 8, 10, 11, 12, 13, 16] [1, 2, 6, 7]) u
      (failAttempt (raise u 102 l) l 5) :=
    .trans (.of_raise (by decide) (by decide)) ((failAttempt_writes hl 5).widen (by decide) (by decide) (by decide))
  unfold deskewMarker
  dsimp only
  refine .ite (.refl _ _) (.ite (hfail s) (.ite (.ite (hfail s) (.trans (.trans (.trans (.foldl (fun u i _ => .of_setO ?_) _)
    (.of_setO ?_)) .of_setLink) ((deskewStep_writes hl).widen (by decide) (by decide) (by decide)))) (.refl _ _)))
  · exact .lane (by decide) (by decide)
  · exact .link (by omega) (by decide) (by decide)

/-- A link whose only used lane shows two consecutive markers passes deskew without skew. -/
theorem deskewMarker_single (h5 : linkState s l = 5) (hd : (linkOf s l).deskewed = false)
    (hu : usedLanes (linkOf s l).width (linkOf s l).spareLane = [lane]) (ha : (laneOf s l lane).agreed = true) :
    deskewMarker s l lane = deskewStep (setLink (setO (setO s (Obj.lane.skew (laneNo l lane)) 0) (Obj.link.maxSkew l) 0) l
      { linkOf s l with deskewed := true }) l := by
  simp [deskewMarker, h5, hd, hu, ha]

end deskew

/-! ## Adaptation (R228) -/

section adapt

variable {s : State} {l lane : Nat} {m : MarkerBlock}

theorem adaptLane_short (h : qualifying m.since < 4096) : adaptLane s l lane m = s := by simp [adaptLane, h]

theorem adaptLane_writes : WritesOnly (Among [98] [] [13]) s (adaptLane s l lane m) := by
  unfold adaptLane
  dsimp only
  refine .ite (.refl _ _) (.ite ?_ .of_setLane)
  split
  · exact .trans (.trans (.trans .of_setLane (.of_bumpO (.lane (by decide) (by decide)))) (.of_raiseLasting (by decide) (by decide)))
      (.of_obj (requestSpare_obj ..))
  · exact .trans (.trans .of_setLane (.of_bumpO (.lane (by decide) (by decide)))) (.of_raiseLasting (by decide) (by decide))

@[simp] theorem deskewed_adaptLane : (linkOf (adaptLane s l lane m) l).deskewed = (linkOf s l).deskewed := by
  unfold adaptLane
  dsimp only
  split
  · rfl
  · split
    · split <;> simp
    · simp

theorem eq_adaptLane (ha : linkActive s l = true) (hq : 4096 ≤ qualifying m.since) (h3 : laneRole s l lane ≠ 3)
    (h4 : laneRole s l lane ≠ 4) :
    (laneOf (adaptLane s l lane m) l lane).eq = adaptAll 0 (laneOf s l lane).eq (laneOf s l lane).trained m.wish := by
  unfold adaptLane
  rw [if_neg (by simp [ha, hq, h3, h4])]
  dsimp only
  split
  · split <;> simp
  · simp

end adapt

/-! ## Markers of SP during a sparing (R233) -/

section spareMarker

variable {s : State} {l : Nat} {b : LinkBlock} {clean : Bool} {p : Sparing}

theorem spareMarker_copies (hp : (linkOf s l).rxSpare = some p) (hc : p.copying = false) (hb : copiesLane b p.logical = true) :
    spareMarker s l b clean = setO (setLink s l { linkOf s l with rxSpare := some { p with copying := true, clean := true } })
      (Obj.lane.role (laneNo l 8)) 2 := by
  simp [spareMarker, hp, hc, hb]

/-- The state in which a copied lane is taken over by SP, before the old lane retrains. -/
def spareTaken (s : State) (l k : Nat) : State :=
  setMany (setLink s l { linkOf s l with rxSpare := none, spareLane := some k })
    [(Obj.link.rxSpareFor l, k), (Obj.lane.role (laneNo l 8), 0), (Obj.lane.logical (laneNo l 8), k)]

/-- SP carries a lane from here on, the old lane retrains, event 99 and SPARE_DONE tell of it. -/
def takeSpare (s : State) (l k : Nat) : State :=
  sendBraid (raise (retrainLane (spareTaken s l k) l k) 99 (laneNo l k)) l 1 0xF1 (spareBytes k)

theorem spareMarker_takes (hp : (linkOf s l).rxSpare = some p) (hc : p.copying = true) (hk : p.checks = false) :
    spareMarker s l b clean = takeSpare s l p.logical := by
  simp [spareMarker, hp, hc, hk, takeSpare, spareTaken]

theorem spareMarker_cancels (hp : (linkOf s l).rxSpare = some p) (hc : p.copying = true) (hk : p.checks = true) :
    spareMarker s l b false = cancelSpare s l p.logical := by
  simp [spareMarker, hp, hc, hk]

/-- What a marker of SP does about the sparing under way. -/
theorem spareMarker_cases (s : State) (l : Nat) (b : LinkBlock) (clean : Bool) :
    spareMarker s l b clean = s
      ∨ (∃ p, spareMarker s l b clean = setO (setLink s l { linkOf s l with rxSpare := p }) (Obj.lane.role (laneNo l 8)) 2)
      ∨ (∃ k, spareMarker s l b clean = sendBraid s l 1 0xF0 (spareBytes k)) ∨ (∃ k, spareMarker s l b clean = takeSpare s l k)
      ∨ ∃ k, spareMarker s l b clean = cancelSpare s l k := by
  unfold spareMarker
  split
  · exact .inl rfl
  · split
    · split
      · exact .inr (.inl ⟨_, rfl⟩)
      · exact .inr (.inr (.inl ⟨_, rfl⟩))
    · split
      · exact .inr (.inr (.inr (.inl ⟨_, rfl⟩)))
      · exact .inr (.inr (.inr (.inr ⟨_, rfl⟩)))

theorem spareTaken_writes (hl : l < 6) (k : Nat) : WritesOnly (Among [] [8] [1, 2]) s (spareTaken s l k) := by
  refine .trans .of_setLink (.of_setMany ?_)
  simp only [List.forall_mem_cons]
  exact ⟨.link (by omega) (by decide) (by decide), .lane (by decide) (by decide), .lane (by decide) (by decide), fun _ h => nomatch h⟩

theorem takeSpare_after_retrain (s : State) (l k : Nat) :
    WritesOnly (Among [99] [] []) (retrainLane (spareTaken s l k) l k) (takeSpare s l k) :=
  .trans (.of_raise (by decide) (by decide)) (.of_sendBraid ..)

theorem takeSpare_writes (hl : l < 6) (k : Nat) : WritesOnly (Among [99] [8] [1, 2, 6]) s (takeSpare s l k) :=
  .trans (.trans ((spareTaken_writes hl k).widen (by decide) (by decide) (by decide))
    ((retrainLane_writes ..).widen (by decide) (by decide) (by decide)))
    ((takeSpare_after_retrain ..).widen (by decide) (by decide) (by decide))

@[simp] theorem rxSpare_takeSpare (k : Nat) : (linkOf (takeSpare s l k) l).rxSpare = none := by simp [takeSpare, spareTaken]

@[simp] theorem deskewed_takeSpare (k : Nat) : (linkOf (takeSpare s l k) l).deskewed = (linkOf s l).deskewed := by
  simp [takeSpare, spareTaken]

@[simp] theorem eq_takeSpare (k i : Nat) : (laneOf (takeSpare s l k) l i).eq = (laneOf s l i).eq := by simp [takeSpare, spareTaken]

theorem takeSpare_rxSpareFor (hl : l < 6) (k : Nat) : natO (takeSpare s l k) (Obj.link.rxSpareFor l) = k := by
  have hk : ¬ Among [99] [] [1, 2, 6] (Obj.link.rxSpareFor l) := not_among_link (by omega) (by decide) (by decide)
  have hafter : WritesOnly (Among [99] [] [1, 2, 6]) (spareTaken s l k) (takeSpare s l k) :=
    .trans ((retrainLane_writes ..).widen (by decide) (by decide) (by decide))
      ((takeSpare_after_retrain ..).widen (by decide) (by decide) (by decide))
  have hmine : okey 0x3000 l 8 ≠ okey 0x3010 (laneNo l 8) 1 := okey_ne_of_sub (by decide)
  have hlogical : okey 0x3000 l 8 ≠ okey 0x3010 (laneNo l 8) 2 := okey_ne_of_sub (by decide)
  rw [hafter.natO_eq hk]
  simp [spareTaken, natO, getO_setO, hmine, hlogical]

theorem takeSpare_role (hl : l < 6) {k : Nat} (hk : k < 8) : laneRole (takeSpare s l k) l 8 = 0 := by
  rw [(takeSpare_after_retrain ..).laneRole_eq (not_among_lane (laneNo_lt hl (by decide)) (by decide) (by decide)),
    laneRole_retrainLane_ne _ _ _ (by omega)]
  simp [spareTaken, laneRole, natO, getO_setO, okey_sub_inj]

theorem takeSpare_old_role (hl : l < 6) {k : Nat} (hk : k < 9) : laneRole (takeSpare s l k) l k = 3 := by
  rw [(takeSpare_after_retrain ..).laneRole_eq (not_among_lane (laneNo_lt hl hk) (by decide) (by decide)),
    laneRole_retrainLane_self]

theorem takeSpare_raises (s : State) (l k : Nat) : Raises s (takeSpare s l k) 99 (laneNo l k) :=
  ((raises_raise _ _ _).later (.of_sendBraid (K := fun _ => False) ..) (fun _ _ => id)).earlier (by simp [spareTaken])
    (fun h => by simpa [NotYetRaised, spareTaken] using h)

theorem takeSpare_out (hl : l < 6) (h : linkActive s l = true) (k : Nat) :
    ∃ seq, (takeSpare s l k).out = .braid l 1 seq 0xF1 (spareBytes k) :: s.out := by
  have hw : WritesOnly (Among [99] [8] [1, 2, 6]) s (raise (retrainLane (spareTaken s l k) l k) 99 (laneNo l k)) :=
    .trans (.trans ((spareTaken_writes hl k).widen (by decide) (by decide) (by decide))
      ((retrainLane_writes ..).widen (by decide) (by decide) (by decide))) (.of_raise (by decide) (by decide))
  obtain ⟨seq, hseq⟩ := sendBraid_out _ l 1 0xF1 (spareBytes k)
    ((hw.linkActive_eq (not_among_link (by omega) (by decide) (by decide))).trans h)
  exact ⟨seq, by rw [takeSpare, hseq]; simp [spareTaken]⟩

theorem spareMarker_writes (hl : l < 6) : WritesOnly (Among [99, 104] [8] [1, 2, 6]) s (spareMarker s l b clean) := by
  rcases spareMarker_cases s l b clean with h | ⟨p, h⟩ | ⟨k, h⟩ | ⟨k, h⟩ | ⟨k, h⟩ <;> rw [h]
  · exact .refl _ _
  · exact .trans .of_setLink (.of_setO (.lane (by decide) (by decide)))
  · exact .of_sendBraid ..
  · exact (takeSpare_writes hl k).widen (by decide) (by decide) (by decide)
  · exact (cancelSpare_writes ..).widen (by decide) (by decide) (by decide)

@[simp] theorem deskewed_spareMarker : (linkOf (spareMarker s l b clean) l).deskewed = (linkOf s l).deskewed := by
  rcases spareMarker_cases s l b clean with h | ⟨p, h⟩ | ⟨k, h⟩ | ⟨k, h⟩ | ⟨k, h⟩ <;> simp [h]

@[simp] theorem eq_spareMarker (i : Nat) : (laneOf (spareMarker s l b clean) l i).eq = (laneOf s l i).eq := by
  rcases spareMarker_cases s l b clean with h | ⟨p, h⟩ | ⟨k, h⟩ | ⟨k, h⟩ | ⟨k, h⟩ <;> simp [h]

end spareMarker

/-! ## Markers (R219, R221, R222) -/

/-- The state after the headers of a marker's interval are counted (R221). -/
def headersCounted (s : State) (l lane : Nat) (m : MarkerBlock) : State :=
  if badHeaders m.since = 0 then s else addO s (Obj.lane.headerErrors (laneNo l lane)) (badHeaders m.since)

/-- The BIP of a marker is compared, and does not match its interval (R219). -/
def bipBad (s : State) (l lane : Nat) (m : MarkerBlock) : Bool := (laneOf s l lane).bipArmed && m.block.byte 3 != bip8 m.since

/-- What a lane holds after a marker. -/
def markedLane (a : LaneSt) (m : MarkerBlock) : LaneSt :=
  { a with
    bipArmed := true
    agreed := a.lastCount.any (fun k => (k + 1) % 4294967296 == m.block.field 4 4)
    lastCount := some (m.block.field 4 4)
    arrival := m.arrival }

/-- The state after a marker is noted: its interval, BIP, link and count, before deskew, adaptation and sparing. -/
def markerNoted (s : State) (l lane : Nat) (m : MarkerBlock) : State :=
  let u := headersCounted s l lane m
  let u := if bipBad s l lane m then bumpO u (Obj.lane.bipErrors (laneNo l lane)) else u
  setLane (setO u (Obj.link.partnerLink l) (m.block.byte 1 / 16 : Nat)) l lane (markedLane (laneOf s l lane) m)

section marker

variable {s : State} {l lane : Nat} {m : MarkerBlock}

theorem takeMarker_none (h : markerOk m.block = false) : takeMarker s l lane m
    = setLane (headersCounted s l lane m) l lane { laneOf s l lane with bipArmed := false, agreed := false, lastCount := none } := by
  simp [takeMarker, h, headersCounted]

theorem takeMarker_ok (h : markerOk m.block = true) : takeMarker s l lane m
    = (let u := adaptLane (deskewMarker (markerNoted s l lane m) l lane) l lane m
       if lane = 8 then spareMarker u l m.block (!bipBad s l lane m && badHeaders m.since == 0) else u) := by
  have hstep : takeMarker s l lane m = if !markerOk m.block then _ else _ := rfl
  rw [hstep, if_neg (by simp [h])]
  unfold markerNoted markedLane
  cases (laneOf s l lane).lastCount <;> rfl

/-! What is noted -/

theorem headersCounted_writes (s : State) (l lane : Nat) (m : MarkerBlock) :
    WritesOnly (Among [] [] [9]) s (headersCounted s l lane m) :=
  .ite (.refl _ _) (.of_addO (.lane (by decide) (by decide)))

theorem headersCounted_adds (h : natO s (Obj.lane.headerErrors (laneNo l lane)) + badHeaders m.since
      < counterSpan (Obj.lane.headerErrors (laneNo l lane))) :
    natO (headersCounted s l lane m) (Obj.lane.headerErrors (laneNo l lane))
      = natO s (Obj.lane.headerErrors (laneNo l lane)) + badHeaders m.since := by
  unfold headersCounted
  split
  · next h0 => rw [h0]; rfl
  · exact natO_addO_self h

@[simp] theorem headersCounted_braid : (headersCounted s l lane m).braid = s.braid := by
  unfold headersCounted; split <;> simp

@[simp] theorem headersCounted_out : (headersCounted s l lane m).out = s.out := by
  unfold headersCounted; split <;> simp

@[simp] theorem headersCounted_frame : (headersCounted s l lane m).frame = s.frame := by
  unfold headersCounted; split <;> simp

@[simp] theorem headersCounted_ev : (headersCounted s l lane m).ev = s.ev := by
  unfold headersCounted; split <;> simp

theorem markerNoted_after_headers (hl : l < 6) :
    WritesOnly (Among [] [15] [10]) (headersCounted s l lane m) (markerNoted s l lane m) :=
  .trans (.trans (.ite (.of_bumpO (.lane (by decide) (by decide))) (.refl _ _)) (.of_setO (.link (by omega) (by decide) (by decide))))
    .of_setLane

theorem markerNoted_writes (hl : l < 6) : WritesOnly (Among [] [15] [9, 10]) s (markerNoted s l lane m) :=
  .trans ((headersCounted_writes ..).widen (by decide) (by decide) (by decide))
    ((markerNoted_after_headers hl).widen (by decide) (by decide) (by decide))

theorem linkState_markerNoted (hl : l < 6) : linkState (markerNoted s l lane m) l = linkState s l :=
  (markerNoted_writes hl).linkState_eq (not_among_link (by omega) (by decide) (by decide))

theorem linkActive_markerNoted (hl : l < 6) : linkActive (markerNoted s l lane m) l = linkActive s l :=
  (markerNoted_writes hl).linkActive_eq (not_among_link (by omega) (by decide) (by decide))

theorem laneRole_markerNoted (hl : l < 6) (hi : lane < 9) : laneRole (markerNoted s l lane m) l lane = laneRole s l lane :=
  (markerNoted_writes hl).laneRole_eq (not_among_lane (laneNo_lt hl hi) (by decide) (by decide))

@[simp] theorem laneOf_markerNoted : laneOf (markerNoted s l lane m) l lane = markedLane (laneOf s l lane) m := by
  simp [markerNoted]

@[simp] theorem linkOf_markerNoted (k : Nat) : linkOf (markerNoted s l lane m) k = linkOf s k := by
  have h : linkOf (headersCounted s l lane m) k = linkOf s k := linkOf_congr k headersCounted_braid
  unfold markerNoted
  dsimp only
  split <;> simp [h]

@[simp] theorem markerNoted_out : (markerNoted s l lane m).out = s.out := by
  unfold markerNoted
  dsimp only
  split <;> simp

@[simp] theorem markerNoted_frame : (markerNoted s l lane m).frame = s.frame := by
  unfold markerNoted
  dsimp only
  split <;> simp

@[simp] theorem markerNoted_ev : (markerNoted s l lane m).ev = s.ev := by
  unfold markerNoted
  dsimp only
  split <;> simp

theorem markerNoted_partnerLink : natO (markerNoted s l lane m) (Obj.link.partnerLink l) = m.block.byte 1 / 16 := by
  rw [markerNoted, natO_setLane, natO_setO_self, Int.toNat_natCast]

theorem markerNoted_bipErrors (hl : l < 6) : natO (markerNoted s l lane m) (Obj.lane.bipErrors (laneNo l lane))
    = natO (if bipBad s l lane m then bumpO (headersCounted s l lane m) (Obj.lane.bipErrors (laneNo l lane)) else headersCounted s l lane m)
        (Obj.lane.bipErrors (laneNo l lane)) := by
  rw [markerNoted, natO_setLane, natO_setO_ne _ _ (okey_lane_ne_link (by omega) (by decide))]

/-- A BIP that does not match is counted. -/
theorem markerNoted_counts (hl : l < 6) (hi : lane < 9) (ha : (laneOf s l lane).bipArmed = true) (hb : m.block.byte 3 ≠ bip8 m.since) :
    CountsOne s (markerNoted s l lane m) (Obj.lane.bipErrors (laneNo l lane)) := by
  intro h
  have hk := (headersCounted_writes s l lane m).natO_eq (not_among_lane (laneNo_lt hl hi) (show 10 < 256 by decide) (by decide))
  rw [markerNoted_bipErrors hl, if_pos (by simp [bipBad, ha, hb]), bumpO, natO_addO_self (by rwa [hk]), hk]

theorem markerNoted_bipErrors_kept (hl : l < 6) (hi : lane < 9)
    (h : (laneOf s l lane).bipArmed = false ∨ m.block.byte 3 = bip8 m.since) :
    natO (markerNoted s l lane m) (Obj.lane.bipErrors (laneNo l lane)) = natO s (Obj.lane.bipErrors (laneNo l lane)) := by
  rw [markerNoted_bipErrors hl, if_neg (by rcases h with h | h <;> simp [bipBad, h])]
  exact (headersCounted_writes s l lane m).natO_eq (not_among_lane (laneNo_lt hl hi) (by decide) (by decide))

/-! What the marker leads to -/

/-- Behind the noting of a marker, no count of errors and not the partner's link changes. -/
theorem takeMarker_after_noted (hl : l < 6) (h : markerOk m.block = true) :
    WritesOnly (Among [96, 97, 98, 99, 102, 104] [4, 5, 6, 7, 8, 10, 11, 12, 13, 16] [1, 2, 6, 7, 13])
      (markerNoted s l lane m) (takeMarker s l lane m) := by
  rw [takeMarker_ok h]
  exact .trans_ite (.trans ((deskewMarker_writes hl).widen (by decide) (by decide) (by decide))
    (adaptLane_writes.widen (by decide) (by decide) (by decide))) ((spareMarker_writes hl).widen (by decide) (by decide) (by decide))

theorem takeMarker_none_state (hl : l < 6) (h : markerOk m.block = false) : let t := takeMarker s l lane m
    laneOf t l lane = { laneOf s l lane with bipArmed := false, agreed := false, lastCount := none }
      ∧ linkState t l = linkState s l ∧ t.out = s.out := by
  dsimp only
  rw [takeMarker_none h]
  refine ⟨by simp, ?_, by simp⟩
  exact (headersCounted_writes s l lane m).linkState_eq (not_among_link (by omega) (by decide) (by decide))

theorem takeMarker_partnerLink (hl : l < 6) (h : markerOk m.block = true) :
    natO (takeMarker s l lane m) (Obj.link.partnerLink l) = m.block.byte 1 / 16 :=
  ((takeMarker_after_noted hl h).natO_eq (not_among_link (by omega) (by decide) (by decide))).trans markerNoted_partnerLink

theorem takeMarker_counts (hl : l < 6) (hi : lane < 9) (h : markerOk m.block = true) (ha : (laneOf s l lane).bipArmed = true)
    (hb : m.block.byte 3 ≠ bip8 m.since) : CountsOne s (takeMarker s l lane m) (Obj.lane.bipErrors (laneNo l lane)) := fun hc =>
  ((takeMarker_after_noted hl h).natO_eq (not_among_lane (laneNo_lt hl hi) (by decide) (by decide))).trans
    (markerNoted_counts hl hi ha hb hc)

theorem takeMarker_bipErrors_kept (hl : l < 6) (hi : lane < 9) (h : markerOk m.block = true)
    (hb : (laneOf s l lane).bipArmed = false ∨ m.block.byte 3 = bip8 m.since) :
    natO (takeMarker s l lane m) (Obj.lane.bipErrors (laneNo l lane)) = natO s (Obj.lane.bipErrors (laneNo l lane)) :=
  ((takeMarker_after_noted hl h).natO_eq (not_among_lane (laneNo_lt hl hi) (by decide) (by decide))).trans
    (markerNoted_bipErrors_kept hl hi hb)

theorem takeMarker_headerErrors (hl : l < 6) (hi : lane < 9) (h : natO s (Obj.lane.headerErrors (laneNo l lane)) + badHeaders m.since
      < counterSpan (Obj.lane.headerErrors (laneNo l lane))) :
    natO (takeMarker s l lane m) (Obj.lane.headerErrors (laneNo l lane))
      = natO s (Obj.lane.headerErrors (laneNo l lane)) + badHeaders m.since := by
  cases hm : markerOk m.block
  · rw [takeMarker_none hm, natO_setLane, headersCounted_adds h]
  · rw [(takeMarker_after_noted hl hm).natO_eq (not_among_lane (laneNo_lt hl hi) (by decide) (by decide)),
      (markerNoted_after_headers hl).natO_eq (not_among_lane (laneNo_lt hl hi) (by decide) (by decide)), headersCounted_adds h]

/-- Outside DESKEW, and in an interval too short for adaptation, a marker of a data lane is only noted. -/
theorem takeMarker_data (hl : l < 6) (hi : lane < 8) (h : markerOk m.block = true) (h5 : linkState s l ≠ 5)
    (hq : qualifying m.since < 4096) : takeMarker s l lane m = markerNoted s l lane m := by
  rw [takeMarker_ok h, deskewMarker_of_state (by rwa [linkState_markerNoted hl]), adaptLane_short hq]
  exact if_neg (Nat.ne_of_lt hi)

/-- In such an interval a marker of SP moves the sparing on. -/
theorem takeMarker_spare (hl : l < 6) (h : markerOk m.block = true) (h5 : linkState s l ≠ 5) (hq : qualifying m.since < 4096) :
    takeMarker s l 8 m
      = spareMarker (markerNoted s l 8 m) l m.block (!bipBad s l 8 m && badHeaders m.since == 0) := by
  rw [takeMarker_ok h, deskewMarker_of_state (by rwa [linkState_markerNoted hl]), adaptLane_short hq]
  rfl

theorem takeMarker_eq (hl : l < 6) (hi : lane < 9) (h : markerOk m.block = true) (ha : linkActive s l = true)
    (hq : 4096 ≤ qualifying m.since) (h3 : laneRole s l lane ≠ 3) (h4 : laneRole s l lane ≠ 4) :
    (laneOf (takeMarker s l lane m) l lane).eq = adaptAll 0 (laneOf s l lane).eq (laneOf s l lane).trained m.wish := by
  have h5 : linkState (markerNoted s l lane m) l ≠ 5 := by rw [linkState_markerNoted hl, linkActive_iff.mp ha]; decide
  have heq := eq_adaptLane (s := markerNoted s l lane m) (l := l) (lane := lane) (m := m) (by rwa [linkActive_markerNoted hl]) hq
    (by rwa [laneRole_markerNoted hl hi]) (by rwa [laneRole_markerNoted hl hi])
  rw [laneOf_markerNoted] at heq
  rw [takeMarker_ok h, deskewMarker_of_state h5]
  dsimp only
  split
  · rw [eq_spareMarker]; exact heq
  · exact heq

/-- The second of two consecutive markers on the only used lane ends DESKEW's own part, with no skew. -/
theorem takeMarker_deskews (hl : l < 6) (h : markerOk m.block = true) (h5 : linkState s l = 5) (hd : (linkOf s l).deskewed = false)
    (hu : usedLanes (linkOf s l).width (linkOf s l).spareLane = [lane])
    (hc : (laneOf s l lane).lastCount.any (fun k => (k + 1) % 4294967296 == m.block.field 4 4) = true) :
    (linkOf (takeMarker s l lane m) l).deskewed = true ∧ natO (takeMarker s l lane m) (Obj.link.maxSkew l) = 0 := by
  have hone := deskewMarker_single (s := markerNoted s l lane m) (l := l) (lane := lane) (by rwa [linkState_markerNoted hl])
    (by rwa [linkOf_markerNoted]) (by rwa [linkOf_markerNoted]) (by rw [laneOf_markerNoted]; exact hc)
  rw [takeMarker_ok h, hone]
  constructor
  · dsimp only
    split <;> simp
  · have hK : ¬ Among [96, 97, 98, 99, 104] [4, 5, 6, 7, 8, 13] [1, 2, 6, 13] (Obj.link.maxSkew l) :=
      not_among_link (by omega) (by decide) (by decide)
    have hw (u : State) (c : Bool) : WritesOnly (Among [96, 97, 98, 99, 104] [4, 5, 6, 7, 8, 13] [1, 2, 6, 13]) u
        (let t := adaptLane (deskewStep u l) l lane m
         if lane = 8 then spareMarker t l m.block c else t) :=
      .trans_ite (.trans ((deskewStep_writes hl).widen (by decide) (by decide) (by decide))
        (adaptLane_writes.widen (by decide) (by decide) (by decide))) ((spareMarker_writes hl).widen (by decide) (by decide) (by decide))
    rw [(hw _ _).natO_eq hK, natO_setLink, natO_setO_self]
    rfl

/-- A copy of the lane seen on SP: the sparing waits for a clean interval. -/
theorem takeMarker_spare_copies {p : Sparing} (hl : l < 6) (h : markerOk m.block = true) (ha : linkActive s l = true)
    (hp : (linkOf s l).rxSpare = some p) (hq : qualifying m.since < 4096) (hc : p.copying = false)
    (hb : copiesLane m.block p.logical = true) :
    (linkOf (takeMarker s l 8 m) l).rxSpare = some { p with copying := true, clean := true } ∧ laneRole (takeMarker s l 8 m) l 8 = 2 := by
  rw [takeMarker_spare hl h (by rw [linkActive_iff.mp ha]; decide) hq, spareMarker_copies (p := p) (by rwa [linkOf_markerNoted]) hc hb]
  exact ⟨by simp, by simp [laneRole]⟩

theorem takeMarker_spare_takes {p : Sparing} (hl : l < 6) (h : markerOk m.block = true) (ha : linkActive s l = true)
    (hp : (linkOf s l).rxSpare = some p) (hq : qualifying m.since < 4096) (hk : p.logical < 8) (hc : p.copying = true)
    (hch : p.checks = false) :
    let t := takeMarker s l 8 m
    (linkOf t l).rxSpare = none ∧ natO t (Obj.link.rxSpareFor l) = p.logical ∧ laneRole t l 8 = 0
      ∧ laneRole t l p.logical = 3 ∧ Raises s t 99 (laneNo l p.logical)
      ∧ ∃ seq, t.out = .braid l 1 seq 0xF1 (spareBytes p.logical) :: s.out := by
  dsimp only
  rw [takeMarker_spare hl h (by rw [linkActive_iff.mp ha]; decide) hq, spareMarker_takes (p := p) (by rwa [linkOf_markerNoted]) hc hch]
  refine ⟨rxSpare_takeSpare _, takeSpare_rxSpareFor hl _, takeSpare_role hl hk, takeSpare_old_role hl (by omega), ?_, ?_⟩
  · exact (takeSpare_raises _ _ _).earlier markerNoted_frame (fun hn => by simpa [NotYetRaised] using hn)
  · simpa using takeSpare_out (s := markerNoted s l 8 m) hl (by rwa [linkActive_markerNoted hl]) p.logical

theorem takeMarker_spare_cancels {p : Sparing} (hl : l < 6) (h : markerOk m.block = true) (ha : linkActive s l = true)
    (hp : (linkOf s l).rxSpare = some p) (hq : qualifying m.since < 4096) (hc : p.copying = true)
    (hch : p.checks = true) (hbad : badHeaders m.since ≠ 0) :
    let t := takeMarker s l 8 m
    (linkOf t l).rxSpare = none ∧ laneRole t l 8 = 3 ∧ Raises s t 104 (laneNo l p.logical)
      ∧ ∃ seq, t.out = .braid l 1 seq 0xF2 (spareBytes p.logical) :: s.out := by
  dsimp only
  rw [takeMarker_spare hl h (by rw [linkActive_iff.mp ha]; decide) hq,
    show (badHeaders m.since == 0) = false by simp [hbad], Bool.and_false, spareMarker_cancels (p := p) (by rwa [linkOf_markerNoted]) hc hch]
  refine ⟨rxSpare_cancelSpare .., laneRole_cancelSpare _ _ _ hl, ?_, ?_⟩
  · exact (cancelSpare_raises _ _ _).earlier markerNoted_frame (fun hn => by simpa [NotYetRaised] using hn)
  · simpa using cancelSpare_out (markerNoted s l 8 m) l p.logical hl (by rwa [linkActive_markerNoted hl])

end marker

end Sys2Proof.Machine
end

section
/-! Pilots, the messages of sparing and tuning, and background retrain. -/

namespace Sys2Proof.Machine

/-! ## Pilots (R220, R236) -/

section pilots

variable {s : State} {link : Fin 6} {lane : Fin 9}

theorem execPilot_locked {pos : Fin 16} {bits : PilotBits} (h : laneLocked s link lane = true) (hp : pos.val ≠ 0) :
    execPilot link lane pos bits s = done (addO (addO s (Obj.lane.pilotBits (laneNo link lane)) 64)
      (Obj.lane.pilotErrors (laneNo link lane)) (popCount (descrambled bits.before bits.payload ^^^ pilotBits pos))) := by
  simp [execPilot, h, hp]

theorem objectsKept_addO_addO (s : State) (k j n m : Nat) : ObjectsKept s (driveEvtN (addO (addO s k n) j m)) [k, j] := by
  intro i hi
  simp only [List.mem_cons, List.not_mem_nil, or_false, not_or] at hi
  rw [getO_driveEvtN, getO_addO_ne _ _ hi.2, getO_addO_ne _ _ hi.1]

theorem objectsOnly_addO_addO (s : State) (k j n m : Nat) : ObjectsOnly s (driveEvtN (addO (addO s k n) j m)) := by
  rw [addO_fields (addO s k n), addO_fields s]
  rfl

theorem pilotBits_counted {s : State} {n m : Nat} {k : Nat}
    (h : natO s (Obj.lane.pilotBits k) + n < counterSpan (Obj.lane.pilotBits k)) :
    natO (driveEvtN (addO (addO s (Obj.lane.pilotBits k) n) (Obj.lane.pilotErrors k) m)) (Obj.lane.pilotBits k)
      = natO s (Obj.lane.pilotBits k) + n := by
  rw [natO_driveEvtN, natO_addO_ne _ _ (okey_ne_of_sub (by decide)), natO_addO_self h]

theorem pilotErrors_counted {s : State} {n m : Nat} {k : Nat}
    (h : natO s (Obj.lane.pilotErrors k) + m < counterSpan (Obj.lane.pilotErrors k)) :
    natO (driveEvtN (addO (addO s (Obj.lane.pilotBits k) n) (Obj.lane.pilotErrors k) m)) (Obj.lane.pilotErrors k)
      = natO s (Obj.lane.pilotErrors k) + m := by
  have hbits : natO (addO s (Obj.lane.pilotBits k) n) (Obj.lane.pilotErrors k) = natO s (Obj.lane.pilotErrors k) :=
    natO_addO_ne _ _ (okey_ne_of_sub (by decide))
  rw [natO_driveEvtN, natO_addO_self (by rwa [hbits]), hbits]

/-- The state after a second's pilot errors are taken over as the base of the next. -/
def secondTaken (s : State) (l lane : Nat) : State :=
  setLane s l lane { laneOf s l lane with pilotBase := natO s (Obj.lane.pilotErrors (laneNo l lane)) }

/-- The second in which too many pilot errors came is told by event 100. -/
def berRaised (s : State) (l lane : Nat) : State := raise (secondTaken s l lane) 100 (laneNo l lane)

theorem laneOf_secondTaken (s : State) (l lane : Nat) : laneOf (secondTaken s l lane) l lane
    = { laneOf s l lane with pilotBase := natO s (Obj.lane.pilotErrors (laneNo l lane)) } := by
  simp [secondTaken]

theorem berRaised_writes (s : State) (l lane : Nat) : WritesOnly (Among [100] [] []) s (berRaised s l lane) :=
  .trans .of_setLane (.of_raise (by decide) (by decide))

theorem berRaised_raises (s : State) (l lane : Nat) : Raises s (berRaised s l lane) 100 (laneNo l lane) :=
  (raises_raise (secondTaken s l lane) _ _).earlier rfl id

theorem laneRole_berRaised {l i : Nat} (hl : l < 6) (hi : i < 9) (k : Nat) : laneRole (berRaised s l k) l i = laneRole s l i :=
  (berRaised_writes ..).laneRole_eq (not_among_lane (laneNo_lt hl hi) (by decide) (by decide))

theorem linkActive_berRaised {l : Nat} (hl : l < 6) (k : Nat) : linkActive (berRaised s l k) l = linkActive s l :=
  (berRaised_writes ..).linkActive_eq (not_among_link (by omega) (by decide) (by decide))

theorem spareFree_berRaised {l : Nat} (hl : l < 6) (k : Nat) : spareFree (berRaised s l k) l = spareFree s l := by
  have hlink : linkOf (berRaised s l k) l = linkOf s l := by simp [berRaised, secondTaken]
  unfold spareFree
  rw [laneRole_berRaised hl (by decide), hlink, (berRaised_writes ..).natO_eq (not_among_link (by omega) (by decide) (by decide)),
    (berRaised_writes ..).laneLocked_eq (not_among_lane (laneNo_lt hl (by decide)) (by decide) (by decide))]

theorem execBerSecond_within (h : ¬ natO s (Obj.link.berThreshold link)
      < natO s (Obj.lane.pilotErrors (laneNo link lane)) - (laneOf s link lane).pilotBase) :
    execBerSecond link lane s = done (secondTaken s link lane) := by
  simp [execBerSecond, secondTaken, h]

theorem laneOf_berRaised (s : State) (l lane : Nat) : laneOf (berRaised s l lane) l lane
    = { laneOf s l lane with pilotBase := natO s (Obj.lane.pilotErrors (laneNo l lane)) } := by
  rw [berRaised, laneOf_raise, laneOf_secondTaken]

/-- Too many pilot errors in a second: event 100, and a data lane that carries its own logical lane asks for the spare. -/
theorem execBerSecond_exceeded (h : natO s (Obj.link.berThreshold link)
      < natO s (Obj.lane.pilotErrors (laneNo link lane)) - (laneOf s link lane).pilotBase) :
    execBerSecond link lane s = done (if laneRole s link lane = 0 ∧ lane.val < 8 then requestSpare (berRaised s link lane) link lane true
      else berRaised s link lane) := by
  have hcarried : carriedBy (berRaised s link lane) link lane
      = if laneRole s link lane = 0 ∧ lane.val < 8 then some lane.val else none := by
    rw [carriedBy, laneRole_berRaised link.isLt lane.isLt]
  unfold execBerSecond
  dsimp only
  rw [natO_setLane, if_pos h]
  unfold berRaised secondTaken at hcarried ⊢
  rw [hcarried]
  by_cases hc : laneRole s link lane = 0 ∧ lane.val < 8
  · rw [if_pos hc, if_pos hc]
  · rw [if_neg hc, if_neg hc]

theorem completes_berSecond_exceeded (h : natO s (Obj.link.berThreshold link)
      < natO s (Obj.lane.pilotErrors (laneNo link lane)) - (laneOf s link lane).pilotBase) :
    Completes (.berSecond link lane) s (fun t =>
      laneOf t link lane = { laneOf s link lane with pilotBase := natO s (Obj.lane.pilotErrors (laneNo link lane)) }
        ∧ Raises s t 100 (laneNo link lane)
        ∧ (laneRole s link lane = 0 → lane.val < 8 → linkActive s link = true → spareFree s link = true →
            (linkOf t link).rxSpare = some ⟨lane.val, false, true, true⟩)) := by
  refine ⟨_, execBerSecond_exceeded h, ?_⟩
  dsimp only
  rw [raises_driveEvtN, laneOf_driveEvtN, linkOf_driveEvtN]
  split
  · refine ⟨?_, ?_, fun _ _ ha hf => ?_⟩
    · rw [laneOf_requestSpare, laneOf_berRaised]
    · exact (berRaised_raises s link lane).later (K := fun _ => False) (.of_obj (requestSpare_obj ..)) (fun _ _ => id)
    · exact requestSpare_rxSpare _ _ _ _ (by rwa [linkActive_berRaised link.isLt]) (by rwa [spareFree_berRaised link.isLt])
  · next hc => exact ⟨laneOf_berRaised s link lane, berRaised_raises s link lane, fun hr hi => absurd ⟨hr, hi⟩ hc⟩

theorem completes_berSecond_within (h : ¬ natO s (Obj.link.berThreshold link)
      < natO s (Obj.lane.pilotErrors (laneNo link lane)) - (laneOf s link lane).pilotBase) :
    Completes (.berSecond link lane) s (fun t =>
      laneOf t link lane = { laneOf s link lane with pilotBase := natO s (Obj.lane.pilotErrors (laneNo link lane)) }
        ∧ t.obj = s.obj ∧ t.out = s.out) :=
  ⟨_, execBerSecond_within h, laneOf_secondTaken s link lane, rfl, rfl⟩

end pilots

/-! ## Messages of sparing and tuning (R225, R233, R235) -/

theorem frameKind_eq (f : BraidFrame) : frameKind f = msgField f 0 1 := by
  unfold frameKind msgField bytesField
  cases frameBytes f with
  | nil => rfl
  | cons b r => simp [beNat]

section messages

variable {s : State} {f : BraidFrame} {kind : Nat}

theorem onMessage_taken (h : takenAs s f kind) (act : State → State) : onMessage s f kind act = act (receive s f).1 := by
  simp [onMessage, h.1, frameKind_eq, h.2]

theorem linkActive_of_takenAs (h : takenAs s f kind) : linkActive s f.link = true := by
  cases ha : linkActive s f.link
  · have hr := h.1
    rw [receive, if_pos (by rw [ha]; rfl)] at hr
    exact absurd hr Bool.false_ne_true
  · rfl

/-- What noting a MSG_SEQ and counting on a link keep is kept when a message is received. -/
theorem receive_keeps {P : State → Prop} (s : State) (f : BraidFrame) (h : P s)
    (hlink : ∀ u q, P u → P (setLink u f.link { linkOf u f.link with rxSeq := q }))
    (hcount : ∀ u n b, b ∈ [17, 18] → P u → P (addO u (okey 0x3000 f.link b) n)) : P (receive s f).1 := by
  unfold receive
  dsimp only
  split
  · exact h
  · split
    · exact hcount _ _ 17 (by decide) h
    · generalize hu : (if _ = 0 then _ else addO _ _ _ : State) = u
      have hp : P u := by
        subst hu
        exact iteInduction (motive := P) (fun _ => hlink _ _ h) (fun _ => hcount _ _ 18 (by decide) (hlink _ _ h))
      split
      · exact hp
      · exact hcount _ _ 17 (by decide) hp

theorem receive_writes (s : State) (f : BraidFrame) : WritesOnly (Among [] [17, 18] []) s (receive s f).1 := by
  refine receive_keeps s f (.refl _ _) (fun u q h => h.trans .of_setLink) (fun u n b hb h => h.trans (.of_addO (.link (by omega) ?_ hb)))
  exact (show ∀ b ∈ [17, 18], b < 256 by decide) b hb

@[simp] theorem receive_out : (receive s f).1.out = s.out :=
  receive_keeps (P := fun u => u.out = s.out) s f rfl (fun _ _ h => h) (fun u n _ _ h => (addO_out u _ n).trans h)

@[simp] theorem laneOf_receive (l i : Nat) : laneOf (receive s f).1 l i = laneOf s l i :=
  receive_keeps (P := fun u => laneOf u l i = laneOf s l i) s f rfl (fun _ _ h => h) (fun u n _ _ h => (laneOf_addO u l i _ n).trans h)

@[simp] theorem txSpare_receive (l : Nat) : (linkOf (receive s f).1 l).txSpare = (linkOf s l).txSpare := by
  refine receive_keeps (P := fun u => (linkOf u l).txSpare = (linkOf s l).txSpare) s f rfl (fun u q h => ?_) (fun u n _ _ h => ?_)
  · rw [← h, linkOf_setLink]
    split
    · next e => rw [e]
    · rfl
  · rw [linkOf_addO, h]

/-! The sparing at the transmitter -/

theorem execSpareReq_taken (h : takenAs s f 0xF0) (hn : (linkOf s f.link).txSpare = none) (hfor : natO s (Obj.link.txSpareFor f.link) = 255)
    (hk : msgField f 1 1 < natO s (Obj.link.txWidth f.link)) : execSpareReq f s = done (setLink (receive s f).1 f.link
      { linkOf (receive s f).1 f.link with txSpare := some ⟨msgField f 1 1, false, true, true⟩ }) := by
  rw [execSpareReq, onMessage_taken h]
  dsimp only
  rw [if_pos]
  rw [txSpare_receive, hn, (receive_writes s f).natO_eq (not_among_link (by omega) (by decide) (by decide)), hfor,
    (receive_writes s f).natO_eq (not_among_link (by omega) (by decide) (by decide))]
  simpa using hk

theorem execSpareDone_taken {p : Sparing} (h : takenAs s f 0xF1) (hp : (linkOf s f.link).txSpare = some p) (hc : p.copying = true)
    (hk : p.logical = msgField f 1 1) : execSpareDone f s = done (setO (setLink (setLane (receive s f).1 f.link (msgField f 1 1)
      { laneOf s f.link (msgField f 1 1) with training := true }) f.link { linkOf (receive s f).1 f.link with txSpare := none })
      (Obj.link.txSpareFor f.link) (msgField f 1 1)) := by
  rw [execSpareDone, onMessage_taken h]
  simp [hp, hc, hk]

theorem execSpareCancel_taken {p : Sparing} (h : takenAs s f 0xF2) (hp : (linkOf s f.link).txSpare = some p)
    (hk : p.logical = msgField f 1 1) : execSpareCancel f s = done (setLane (setLink (receive s f).1 f.link
      { linkOf (receive s f).1 f.link with txSpare := none }) f.link 8 { laneOf s f.link 8 with training := true }) := by
  rw [execSpareCancel, onMessage_taken h]
  simp [hp, hk]

/-! Requests for the transmit taps -/

/-- The taps and statuses a request leads to (R230). -/
def tapsFor (s : State) (n req : Nat) : Nat × Nat × Nat × Nat :=
  tuneTaps (req / 64) (req / 16 % 4) (natO s (Obj.lane.txPre n)) (natO s (Obj.lane.txPost n))

theorem applyRequest_known {l lane req : Nat} (h : (laneOf s l lane).lastReq = some (req % 16)) : applyRequest s l lane req = s := by
  simp [applyRequest, h]

/-- The state in which a new request is answered: the taps set, REQ_ID and status noted. -/
def requestTaken (s : State) (l lane req : Nat) : State :=
  let r := tapsFor s (laneNo l lane) req
  setMany (setLane s l lane { laneOf s l lane with lastReq := some (req % 16), status := r.2.2.1 * 64 + r.2.2.2 * 16 + req % 16 })
    [(Obj.lane.txPre (laneNo l lane), r.1), (Obj.lane.txPost (laneNo l lane), r.2.1)]

theorem applyRequest_new {l lane req : Nat} (h : (laneOf s l lane).lastReq ≠ some (req % 16)) :
    applyRequest s l lane req = tellLane (requestTaken s l lane req) l lane := by
  unfold applyRequest
  rw [if_neg h]
  rfl

theorem takeEcho_obj (l lane status : Nat) : (takeEcho s l lane status).obj = s.obj := by
  unfold takeEcho; dsimp only; split <;> rfl

@[simp] theorem takeEcho_out (l lane status : Nat) : (takeEcho s l lane status).out = s.out := by
  unfold takeEcho; dsimp only; split <;> rfl

theorem takeEcho_ends {l lane status : Nat} (hw : (laneOf s l lane).waiting = true) (he : status % 16 = (laneOf s l lane).reqId) :
    (laneOf (takeEcho s l lane status) l lane).waiting = false := by
  simp [takeEcho, hw, he]

/-- In ACTIVE a lane is told of in a TUNE message (R235). -/
theorem tellLane_active {l lane : Nat} (h : linkActive s l = true) :
    tellLane s l lane = sendBraid s l 1 0xF3 (tuneBytes s l lane) := by
  rw [tellLane, if_pos h]

theorem requestTaken_writes (l lane req : Nat) : WritesOnly (Among [] [] [3, 4]) s (requestTaken s l lane req) := by
  refine .trans .of_setLane (.of_setMany ?_)
  simp only [List.forall_mem_cons]
  exact ⟨.lane (by decide) (by decide), .lane (by decide) (by decide), fun _ h => nomatch h⟩

theorem requestTaken_taps (l lane req : Nat) :
    natO (requestTaken s l lane req) (Obj.lane.txPre (laneNo l lane)) = (tapsFor s (laneNo l lane) req).1
    ∧ natO (requestTaken s l lane req) (Obj.lane.txPost (laneNo l lane)) = (tapsFor s (laneNo l lane) req).2.1 := by
  simp [requestTaken, natO, getO_setO, okey_sub_inj]

theorem tuneBytes_requestTaken (l lane req : Nat) : tuneBytes (requestTaken s l lane req) l lane
    = natBE lane 1 ++ natBE (requestByte (laneOf s l lane)) 1
      ++ natBE ((tapsFor s (laneNo l lane) req).2.2.1 * 64 + (tapsFor s (laneNo l lane) req).2.2.2 * 16 + req % 16) 1 := by
  simp [tuneBytes, requestTaken, requestByte]

theorem execTune_taken (h : takenAs s f 0xF3) (hi : msgField f 1 1 ≤ 8) : execTune f s
    = done (takeEcho (applyRequest (receive s f).1 f.link (msgField f 1 1) (msgField f 2 1)) f.link (msgField f 1 1) (msgField f 3 1)) := by
  rw [execTune, onMessage_taken h]
  dsimp only
  rw [if_neg (by omega)]

/-- A request under a new REQ_ID sets the taps and is answered in a TUNE message. -/
theorem applyRequest_tunes {l lane req : Nat} (hl : l < 6) (ha : linkActive s l = true)
    (h : (laneOf s l lane).lastReq ≠ some (req % 16)) :
    let t := applyRequest s l lane req
    let r := tapsFor s (laneNo l lane) req
    natO t (Obj.lane.txPre (laneNo l lane)) = r.1 ∧ natO t (Obj.lane.txPost (laneNo l lane)) = r.2.1
      ∧ ∃ seq, t.out = .braid l 1 seq 0xF3 (natBE lane 1 ++ natBE (requestByte (laneOf s l lane)) 1
          ++ natBE (r.2.2.1 * 64 + r.2.2.2 * 16 + req % 16) 1) :: s.out := by
  have hactive : linkActive (requestTaken s l lane req) l = true :=
    ((requestTaken_writes ..).linkActive_eq (not_among_link (by omega) (by decide) (by decide))).trans ha
  have hobj {u : State} {b : List Byte} : WritesOnly (fun _ => False) u (sendBraid u l 1 0xF3 b) := .of_sendBraid ..
  obtain ⟨hpre, hpost⟩ := requestTaken_taps (s := s) l lane req
  obtain ⟨seq, hseq⟩ := sendBraid_out _ l 1 0xF3 (tuneBytes (requestTaken s l lane req) l lane) hactive
  dsimp only
  rw [applyRequest_new h, tellLane_active hactive, hobj.natO_eq id, hobj.natO_eq id]
  refine ⟨hpre, hpost, seq, ?_⟩
  rw [hseq, tuneBytes_requestTaken]
  simp [requestTaken]

/-- A TUNE message under a new REQ_ID sets the taps and is answered. -/
theorem completes_tune_new (h : takenAs s f 0xF3) {lane : Fin 9} (hk : msgField f 1 1 = lane.val)
    (hr : (laneOf s f.link lane).lastReq ≠ some (msgField f 2 1 % 16)) :
    let r := tapsFor s (laneNo f.link lane) (msgField f 2 1)
    Completes (.tune f) s (fun t => natO t (Obj.lane.txPre (laneNo f.link lane)) = r.1
      ∧ natO t (Obj.lane.txPost (laneNo f.link lane)) = r.2.1
      ∧ ∃ seq, t.out = .braid f.link 1 seq 0xF3 (natBE lane.val 1 ++ natBE (requestByte (laneOf s f.link lane)) 1
          ++ natBE (r.2.2.1 * 64 + r.2.2.2 * 16 + msgField f 2 1 % 16) 1) :: s.out) := by
  have hlane := lane.isLt
  have hw := receive_writes s f
  have hactive : linkActive (receive s f).1 f.link = true :=
    (hw.linkActive_eq (not_among_link (by omega) (by decide) (by decide))).trans (linkActive_of_takenAs h)
  have htaps : tapsFor (receive s f).1 (laneNo f.link lane) (msgField f 2 1) = tapsFor s (laneNo f.link lane) (msgField f 2 1) := by
    rw [tapsFor, tapsFor, hw.natO_eq (not_among_lane (laneNo_lt f.link.isLt hlane) (by decide) (by decide)),
      hw.natO_eq (not_among_lane (laneNo_lt f.link.isLt hlane) (by decide) (by decide))]
  obtain ⟨hpre, hpost, seq, hout⟩ := applyRequest_tunes (l := f.link) (lane := lane) (req := msgField f 2 1)
    f.link.isLt hactive (by simpa using hr)
  have hecho {u : State} {a : Nat} : WritesOnly (fun _ => False) u (takeEcho u f.link lane a) := .of_obj (takeEcho_obj ..)
  refine ⟨_, execTune_taken h (by omega), ?_⟩
  rw [hk]
  simp only [natO_driveEvtN, driveEvtN_out, takeEcho_out, hecho.natO_eq id]
  rw [htaps] at hpre hpost hout
  exact ⟨hpre, hpost, seq, by simpa using hout⟩

/-- A TUNE message under the REQ_ID last seen sends nothing, and ends the wait for its echo. -/
theorem completes_tune_known (h : takenAs s f 0xF3) {lane : Fin 9} (hk : msgField f 1 1 = lane.val)
    (hr : (laneOf s f.link lane).lastReq = some (msgField f 2 1 % 16)) :
    Completes (.tune f) s (fun t => t.out = s.out ∧ ((laneOf s f.link lane).waiting = true →
      msgField f 3 1 % 16 = (laneOf s f.link lane).reqId → (laneOf t f.link lane).waiting = false)) := by
  have hlane := lane.isLt
  refine ⟨_, execTune_taken h (by omega), ?_⟩
  rw [hk, applyRequest_known (by simpa using hr)]
  exact ⟨by simp, fun hw he => takeEcho_ends (by simpa using hw) (by simpa using he)⟩

end messages

/-! ## Background retrain (R235) -/

theorem execLaneRetrainDone_retrained {s : State} {link : Fin 6} {lane : Fin 9} (ha : linkActive s link = true)
    (hr : laneRole s link lane = 3) (hd : retrained s link lane = true) : ∃ p, execLaneRetrainDone link lane s
      = done (settle (setO (setLane s link lane { laneOf s link lane with trained := (laneOf s link lane).eq, atBound := false })
          (Obj.lane.role (laneNo link lane)) 1) 98 p) := by
  unfold execLaneRetrainDone
  dsimp only
  rw [if_pos ⟨ha, hr, hd⟩]
  exact ⟨_, rfl⟩

theorem completes_laneRetrainDone {s : State} {link : Fin 6} {lane : Fin 9} (ha : linkActive s link = true)
    (hr : laneRole s link lane = 3) (hd : retrained s link lane = true) : Completes (.laneRetrainDone link lane) s (fun t =>
      laneRole t link lane = 1
        ∧ laneOf t link lane = { laneOf s link lane with trained := (laneOf s link lane).eq, atBound := false }) := by
  obtain ⟨present, hx⟩ := execLaneRetrainDone_retrained ha hr hd
  have hsettle {u : State} : WritesOnly (Among [98] [] []) u (settle u 98 present) := .of_settle (by decide) (by decide)
  refine ⟨_, hx, ?_, by simp⟩
  rw [laneRole, natO_driveEvtN, hsettle.natO_eq (not_among_lane (laneNo_lt link.isLt lane.isLt) (by decide) (by decide)), natO_setO_self]
  rfl

theorem objectsKept_setO (s : State) (k : Nat) (v : Int) : ObjectsKept s (driveEvtN (setO s k v)) [k] :=
  fun _ hi => getO_setO_ne s v (List.ne_of_not_mem_cons hi)

end Sys2Proof.Machine
end

section
open Sys2Proof Sys2Proof.Machine

/-- Settles O39: each command is its operation on the link and the lane, taken apart by what the lane serves for and by the sparing under
way; what an operation writes leaves the counts and event 101 alone. -/
theorem laneCommands : Obligations.LaneCommands := by
  unfold Obligations.LaneCommands
  intro s l lane
  have hl := l.isLt
  have hi := lane.isLt
  refine ⟨fun bad h => ?_, fun h bad => ?_, fun m h => ?_, fun pos before payload h hpos => ?_, ?_,
    fun ha hr hd => completes_laneRetrainDone ha hr hd, fun hr => ?_, fun p hp => ?_, fun f hf => ?_⟩
  · refine ⟨_, rfl, laneLocked_loseBlockLock h hl hi bad, loseBlockLock_counts h hl hi bad, loseBlockLock_raises h hl bad,
      loseBlockLock_headerErrors h hl hi, fun ha => ?_, fun ha hr hs => loseBlockLock_idle h hl hi ha hr hs bad,
      fun p ha h8 hp => ?_, fun ha hr h8 hf => loseBlockLock_spares h hl h8 ha hr hf bad,
      fun ha hr h8 hf => loseBlockLock_drops_data h hl h8 ha hr hf bad⟩
    · rw [linkState_driveEvtN, driveEvtN_out, loseBlockLock_inactive h hl ha]
      exact ⟨linkState_lockMissed s l lane bad hl, lockMissed_out s l lane bad⟩
    · rw [h8] at h ⊢
      exact ⟨fun hc => loseBlockLock_cancels h hl ha hp hc bad, fun hc => loseBlockLock_drops_spare h hl ha hp hc bad⟩
  · exact congrArg done (loseBlockLock_unlocked h bad)
  · refine ⟨driveEvtN (takeMarker s l lane m), congrArg done (if_pos h), takeMarker_headerErrors hl hi, takeMarker_none_state hl,
      fun hm => ⟨takeMarker_partnerLink hl hm, takeMarker_counts hl hi hm, takeMarker_bipErrors_kept hl hi hm, fun h5 hq h8 => ?_,
        fun ha hq h3 h4 => takeMarker_eq hl hi hm ha hq h3 h4, fun h5 hd hu hc => takeMarker_deskews hl hm h5 hd hu hc,
        fun p ha h8 hp hq hk => ?_⟩⟩
    · rw [laneOf_driveEvtN, takeMarker_data hl h8 hm h5 hq]
      exact laneOf_markerNoted
    · rw [h8]
      exact ⟨fun hc hb => takeMarker_spare_copies hl hm ha hp hq hc hb, fun hc hch => takeMarker_spare_takes hl hm ha hp hq hk hc hch,
        fun hc hch hbad => takeMarker_spare_cancels hl hm ha hp hq hc hch hbad⟩
  · exact ⟨_, execPilot_locked h hpos, pilotBits_counted, pilotErrors_counted, objectsKept_addO_addO _ _ _ _ _,
      objectsOnly_addO_addO _ _ _ _ _⟩
  · intro errors exceeds
    by_cases hx : exceeds
    · obtain ⟨t, ht, hlane, hraised, hspare⟩ := completes_berSecond_exceeded hx
      exact ⟨t, ht, hlane, fun _ => hraised, fun _ => hspare, fun hn => absurd hx hn⟩
    · obtain ⟨t, ht, hlane, hobj, hout⟩ := completes_berSecond_within hx
      exact ⟨t, ht, hlane, fun h => absurd h hx, fun h => absurd h hx, fun _ => ⟨hobj, hout⟩⟩
  · exact ⟨_, congrArg done (if_pos hr), natO_setO_self .., objectsKept_setO _ _ _, rfl⟩
  · have hx : execSpareCopyStart l s = done (setLink (setLane s l 8 { laneOf s l 8 with training := false }) l
        { linkOf s l with txSpare := some { p with copying := true } }) := by simp [execSpareCopyStart, hp]
    exact ⟨_, hx, by simp, fun k hk => by simp [hk], by simp, by simp, by simp⟩
  · subst hf
    refine ⟨fun ht hn hfor hk => ⟨_, execSpareReq_taken ht hn hfor hk, by simp⟩,
      fun p ht hp hc hk => ⟨_, execSpareDone_taken ht hp hc hk, by simp, by simp, by simp⟩,
      fun p ht hp hk => ⟨_, execSpareCancel_taken ht hp hk, by simp, ?_, by simp⟩,
      fun ht hk => ⟨fun hr => completes_tune_new ht hk hr, fun hr => completes_tune_known ht hk hr⟩⟩
    rw [natO_driveEvtN, natO_setLane, natO_setLink]
    exact (receive_writes s f).natO_eq (not_among_link (by omega) (by decide) (by decide))
end

section
/-! The family of reset, start and power: what a reset leaves of the engine and what it keeps. -/

namespace Sys2Proof.Machine

/-! ## Stores from which keys are dropped -/

/-- A key whose entries a filter drops reads its default. -/
theorem get_filter_dropped {α : Type} (d : Nat → α) (p : Nat × α → Bool) {k : Nat} (h : ∀ v, p (k, v) = false) :
    ∀ m : List (Nat × α), Sparse.get d (m.filter p) k = d k
  | [] => rfl
  | (j, v) :: r => by
    have ih := get_filter_dropped d p h r
    cases hp : p (j, v) with
    | false => rw [List.filter_cons_of_neg (by rw [hp]; decide), ih]
    | true =>
      have hj : j ≠ k := by rintro rfl; rw [h] at hp; cases hp
      rw [List.filter_cons_of_pos hp, Sparse.get, if_neg hj, ih]

/-! ## Operations followed by a write -/

theorem WritesOnly.then_setO {K : Nat → Prop} {s t : State} {k : Nat} {v : Int} (h : WritesOnly K s t) (hk : K k) :
    WritesOnly K s (setO t k v) := h.trans (.of_setO hk)

theorem WritesOnly.then_bumpO {K : Nat → Prop} {s t : State} {k : Nat} (h : WritesOnly K s t) (hk : K k) :
    WritesOnly K s (bumpO t k) := h.trans (.of_bumpO hk)

section

variable (s : State)

/-! ## Moraine -/

/-- Counting one object and setting another, in a state whose event records have changed, changes nothing further. -/
theorem setO_bumpO_fields (e : Events) (k j : Nat) (v : Int) : setO (bumpO { s with ev := e } k) j v
    = { s with obj := (setO (bumpO { s with ev := e } k) j v).obj, ev := e } := by
  rw [bumpO, addO_fields]
  rfl

theorem writeMoraine_fields (kind : Nat) (inj : Bool) (f e sev : Nat) : writeMoraine s kind inj f e sev
    = { s with obj := (writeMoraine s kind inj f e sev).obj, ev := (writeMoraine s kind inj f e sev).ev } := by
  unfold writeMoraine
  dsimp only
  rw [setO_bumpO_fields]

theorem writeMoraine_writes (kind : Nat) (inj : Bool) (f e sev : Nat) :
    WritesOnly (keyIndex · = 0x1500) s (writeMoraine s kind inj f e sev) := by
  unfold writeMoraine
  exact .then_setO (.then_bumpO (.of_obj rfl) (keyIndex_okey _ _ _ (by decide) (by decide)))
    (keyIndex_okey _ _ _ (by decide) (by decide))

theorem mirrorMoraine_fields : mirrorMoraine s = { s with obj := (mirrorMoraine s).obj, ev := (mirrorMoraine s).ev } := by
  unfold mirrorMoraine
  dsimp only
  split <;> rfl

theorem mirrorMoraine_writes : WritesOnly (keyIndex · = 0x1500) s (mirrorMoraine s) := by
  unfold mirrorMoraine
  dsimp only
  split
  · exact .refl _ _
  · exact .then_setO (.of_obj rfl) (keyIndex_okey _ _ _ (by decide) (by decide))

/-! ## Sessions that a reset leaves dormant -/

theorem dormantSession_writes {n : Nat} (hn : n ≤ 65536) : WritesOnly (keyIndex · = 0x1110) s (dormantSession s n) := by
  have hk (b : Nat) (hb : b < 256) : keyIndex (okey 0x1110 (n - 1) b) = 0x1110 := keyIndex_okey _ _ _ (by omega) hb
  exact .trans (t := setSession s n _) (.of_obj rfl) (.trans (.then_setO (.then_setO (.of_setO (hk _ (by decide))) (hk _ (by decide)))
    (hk _ (by decide))) (.of_obj rfl))

theorem dormantAll_writes : WritesOnly (keyIndex · = 0x1110) s (dormantAll s) := by
  refine .foldl (fun t n hn => .ite (dormantSession_writes t ?_) (.refl _ _)) s
  obtain ⟨i, hi, rfl⟩ := List.mem_map.mp hn
  have := List.mem_range.mp hi
  omega

theorem dormantSession_fields (n : Nat) :
    dormantSession s n = { s with obj := (dormantSession s n).obj, ctl := (dormantSession s n).ctl } := rfl

/-- Leaving sessions dormant changes numeric objects and the control complex, nothing further. -/
theorem dormantAll_fields : dormantAll s = { s with obj := (dormantAll s).obj, ctl := (dormantAll s).ctl } := by
  unfold dormantAll
  refine List.foldlRecOn (motive := fun t : State => t = { s with obj := t.obj, ctl := t.ctl }) sessionNumbers _ rfl
    fun t ht n _ => ?_
  split
  · rw [dormantSession_fields]
    exact congrArg (fun u : State => { u with obj := (dormantSession t n).obj, ctl := (dormantSession t n).ctl }) ht
  · exact ht

@[simp] theorem dormantAll_rst : (dormantAll s).rst = s.rst := by rw [dormantAll_fields]
@[simp] theorem dormantAll_bus : (dormantAll s).bus = s.bus := by rw [dormantAll_fields]
@[simp] theorem dormantAll_array : (dormantAll s).array = s.array := by rw [dormantAll_fields]
@[simp] theorem dormantAll_sel : (dormantAll s).sel = s.sel := by rw [dormantAll_fields]
@[simp] theorem dormantAll_pins : (dormantAll s).pins = s.pins := by rw [dormantAll_fields]

/-! ## The state in which a reset leaves the engine (R336, R338) -/

/-- Frame count, cells, programs, routes, links, network, time and federation are as at power-on. -/
theorem wipe_units (cold : Bool) : (wipe s cold).frame = 0 ∧ (wipe s cold).cells = [] ∧ (wipe s cold).eddy = []
    ∧ (wipe s cold).prog = Program.reset ∧ (wipe s cold).conf = Conf.reset ∧ (wipe s cold).braid = Braid.reset
    ∧ (wipe s cold).net = Net.reset ∧ (wipe s cold).time = Time.reset ∧ (wipe s cold).fed = Fed.reset := by
  unfold wipe
  cases cold with
  | true => exact ⟨rfl, rfl, rfl, rfl, rfl, rfl, rfl, rfl, rfl⟩
  | false =>
    rw [if_neg Bool.false_ne_true]
    dsimp only
    rw [setMany_fields]
    exact ⟨rfl, rfl, rfl, rfl, rfl, rfl, rfl, rfl, rfl⟩

/-- HBM is lost in a cold reset only; backup SRAM, flash and OTP, the sources asserted, and the pins outlast both. -/
theorem wipe_keeps (cold : Bool) : (wipe s cold).bus = { Bus.reset with
      hbm := if cold then [] else s.bus.hbm, aon := s.bus.aon, flash := s.bus.flash, otp := s.bus.otp }
    ∧ (wipe s cold).rst = { Reset.reset with
      asserted := s.rst.asserted, sources := s.rst.sources, tell := s.rst.tell, cold := s.rst.cold, vbatLost := s.rst.vbatLost
      rtc := s.rst.rtc, thermLow := s.rst.thermLow }
    ∧ (wipe s cold).pins = s.pins := by
  unfold wipe
  rw [← dormantAll_bus s, ← dormantAll_rst s, ← dormantAll_pins s]
  cases cold with
  | true => exact ⟨rfl, rfl, by rw [if_pos rfl, setO_pins]⟩
  | false =>
    rw [if_neg Bool.false_ne_true]
    dsimp only
    rw [setMany_bus, setMany_rst, setMany_pins, setO_pins]
    exact ⟨rfl, rfl, by dsimp only⟩

theorem wipe_cold : (wipe s true).array = Catch.reset ∧ (wipe s true).sel = Selector.reset := ⟨rfl, rfl⟩

theorem wipe_warm : (wipe s false).array = { Catch.reset with corr := { Corr.reset with nextNo := s.array.corr.nextNo } }
    ∧ (wipe s false).sel = { Selector.reset with
      entries := s.sel.entries.map (fun e => { RefEntry.idle with requal := e.requal || e.qualified }) } := by
  unfold wipe
  rw [← dormantAll_array s, ← dormantAll_sel s, if_neg Bool.false_ne_true]
  exact ⟨rfl, rfl⟩

/-- Of the array and the references a reset leaves no more than the next snapshot's number and the entries. -/
theorem wipe_array_sel (cold : Bool) : (wipe s cold).array
      = { Catch.reset with corr := { Corr.reset with nextNo := (wipe s cold).array.corr.nextNo } }
    ∧ (wipe s cold).sel = { Selector.reset with entries := (wipe s cold).sel.entries } := by
  cases cold with
  | true => rw [(wipe_cold s).1, (wipe_cold s).2]; exact ⟨rfl, rfl⟩
  | false => rw [(wipe_warm s).1, (wipe_warm s).2]; exact ⟨rfl, rfl⟩

/-- An object that no reset writes reads as what is left of the store says. -/
theorem getO_wipe {k : Nat} (cold : Bool) (hj : k ≠ Obj.jrn.highWater) (hc : k ∉ coldCounters) : getO (wipe s cold) k
    = Sparse.get dfltOf ((dormantAll s).obj.filter fun e => backupKey e.1 || flashKey e.1) k := by
  have units (t : State) (a : Catch) (e : Selector) : getO { t with array := a, sel := e } k = getO t k := rfl
  unfold wipe
  cases cold with
  | true => rw [if_pos rfl, getO_setO_ne _ _ hj, getO]
  | false =>
    rw [if_neg Bool.false_ne_true]
    dsimp only
    rw [units, getO_setMany_ne, getO_setO_ne _ _ hj, getO]
    intro e he
    obtain ⟨c, hm, rfl⟩ := List.mem_map.mp he
    exact fun h => hc (h ▸ hm)

theorem stageOf_wipe (cold : Bool) : stageOf (wipe s cold) = 0 := by
  have hd : dfltOf Obj.stage.stage = 0 := by decide
  rw [stageOf, natO, getO_wipe s cold (by decide) (by decide), get_filter_dropped _ _ (fun _ => by dsimp only; decide), hd]
  rfl

theorem total_wipe (cold : Bool) : natO (wipe s cold) Obj.rcnt.total = natO s Obj.rcnt.total := by
  rw [natO, getO_wipe s cold (by decide) (by decide), get_filter _ _ _ (fun _ => by dsimp only; decide),
    ← (dormantAll_writes s).natO_eq (j := Obj.rcnt.total) (by decide), natO, getO]

/-! ## A source is asserted (R338) -/

/-- What is noted of a source as it is asserted, before the engine returns to reset. -/
def sourceNoted (code : Nat) (cold : Bool) : State :=
  { s with rst := { s.rst with
      asserted := if s.rst.asserted.contains code then s.rst.asserted else code :: s.rst.asserted
      sources := if !s.rst.begun then (if s.rst.sources.contains code then s.rst.sources else code :: s.rst.sources) else [code]
      cold := cold || (!s.rst.begun && s.rst.cold) } }

theorem assertSource_eq (code : Nat) (cold : Bool) : assertSource s code cold
    = if stageOf s = 0 then wipe (sourceNoted s code cold) (sourceNoted s code cold).rst.cold
      else writeMoraine (wipe (sourceNoted s code cold) (sourceNoted s code cold).rst.cold) 1 false s.frame 65535 0 := rfl

/-- The engine returns to reset; a record of Moraine may tell of it. -/
theorem assertSource_fields (code : Nat) (cold : Bool) : assertSource s code cold
    = { wipe (sourceNoted s code cold) (sourceNoted s code cold).rst.cold with
        obj := (assertSource s code cold).obj, ev := (assertSource s code cold).ev } := by
  rw [assertSource_eq]
  split
  · rfl
  · exact writeMoraine_fields _ _ _ _ _ _

theorem assertSource_writes (code : Nat) (cold : Bool) :
    WritesOnly (keyIndex · = 0x1500) (wipe (sourceNoted s code cold) (sourceNoted s code cold).rst.cold) (assertSource s code cold) := by
  rw [assertSource_eq]
  exact .ite (.refl _ _) (writeMoraine_writes _ _ _ _ _ _)

theorem assertSource_rst (code : Nat) (cold : Bool) :
    (assertSource s code cold).rst = (wipe (sourceNoted s code cold) (sourceNoted s code cold).rst.cold).rst := by
  rw [assertSource_fields]

theorem assertSource_pins (code : Nat) (cold : Bool) : (assertSource s code cold).pins = s.pins := by
  rw [assertSource_fields]
  exact (wipe_keeps _ _).2.2

theorem mem_sourceNoted_asserted (code : Nat) (cold : Bool) : code ∈ (sourceNoted s code cold).rst.asserted := List.mem_insert_self

theorem mem_sourceNoted_sources (code : Nat) (cold : Bool) : code ∈ (sourceNoted s code cold).rst.sources := by
  unfold sourceNoted
  dsimp only
  split
  · exact List.mem_insert_self
  · exact List.mem_singleton_self code

theorem mem_asserted_assertSource (code : Nat) (cold : Bool) : code ∈ (assertSource s code cold).rst.asserted := by
  rw [assertSource_rst, (wipe_keeps _ _).2.1]
  exact mem_sourceNoted_asserted s code cold

/-- A warm source that begins a sequence of its own resets warm. -/
theorem sourceNoted_warm {s : State} (code : Nat) (h : s.rst.begun = true) : (sourceNoted s code false).rst.cold = false := by
  simp [sourceNoted, h]

theorem resetTaken_wipe (code : Nat) (cold : Bool) :
    ResetTaken s (wipe (sourceNoted s code cold) (sourceNoted s code cold).rst.cold) code cold := by
  obtain ⟨hframe, hcells, heddy, hprog, hconf, hbraid, hnet, htime, hfed⟩ :=
    wipe_units (sourceNoted s code cold) (sourceNoted s code cold).rst.cold
  obtain ⟨hbus, hrst, -⟩ := wipe_keeps (sourceNoted s code cold) (sourceNoted s code cold).rst.cold
  obtain ⟨harray, hsel⟩ := wipe_array_sel (sourceNoted s code cold) (sourceNoted s code cold).rst.cold
  refine ⟨?_, ?_, ⟨hcells, heddy, hprog, hconf⟩, ⟨hbraid, hnet, htime, hfed, harray, hsel⟩, ?_, fun hc => ?_, fun hc hb => ?_⟩
  · rw [hrst]; exact mem_sourceNoted_sources s code cold
  · rw [hrst]; exact ⟨rfl, rfl, rfl, stageOf_wipe _ _, hframe⟩
  · rw [hbus]; exact ⟨rfl, rfl, rfl, total_wipe _ _⟩
  · subst hc
    rw [hrst, hbus]
    exact ⟨rfl, rfl, wipe_cold _⟩
  · subst hc
    rw [hrst, hbus, sourceNoted_warm code hb]
    obtain ⟨hwarm, hentries⟩ := wipe_warm (sourceNoted s code false)
    rw [hwarm, hentries]
    exact ⟨rfl, rfl, rfl, rfl⟩

/-- What is written to Moraine afterwards takes nothing of the reset back. -/
theorem ResetTaken.logged {s t u : State} {code : Nat} {cold : Bool} (h : ResetTaken s t code cold)
    (hf : u = { t with obj := u.obj, ev := u.ev }) (hw : WritesOnly (keyIndex · = 0x1500) t u) : ResetTaken s u code cold := by
  obtain ⟨hsource, ⟨hbegun, hreleased, hoptions, hstage, hframe⟩, hblank, hunits, ⟨hflash, hotp, haon, htotal⟩, hreach⟩ := h
  rw [← hw.natO_eq (by decide)] at htotal
  rw [stageOf, ← hw.natO_eq (by decide)] at hstage
  rw [hf]
  exact ⟨hsource, ⟨hbegun, hreleased, hoptions, hstage, hframe⟩, hblank, hunits, ⟨hflash, hotp, haon, htotal⟩, hreach⟩

/-- Nor does a mirrored Moraine before it change what a reset keeps. -/
theorem ResetTaken.mirrored {s t u : State} {code : Nat} {cold : Bool} (h : ResetTaken s t code cold)
    (hf : s = { u with obj := s.obj, ev := s.ev }) (hw : WritesOnly (keyIndex · = 0x1500) u s) : ResetTaken u t code cold := by
  obtain ⟨hsource, hheld, hblank, hunits, ⟨hflash, hotp, haon, htotal⟩, hreach⟩ := h
  rw [hw.natO_eq (by decide)] at htotal
  rw [hf] at hflash hotp haon hreach
  exact ⟨hsource, hheld, hblank, hunits, ⟨hflash, hotp, haon, htotal⟩, hreach⟩

theorem resetTaken_assertSource (code : Nat) (cold : Bool) : ResetTaken s (assertSource s code cold) code cold :=
  (resetTaken_wipe s code cold).logged (assertSource_fields s code cold) (assertSource_writes s code cold)

/-- Neither the pins nor the TAP nor the end of the source belong to what a reset takes. -/
theorem ResetTaken.ended {s t : State} {code : Nat} {cold : Bool} (h : ResetTaken s t code cold) (p : Pins) (j : Jtag) (l : List Nat) :
    ResetTaken s (driveEvtN { t with pins := p, jtag := j, rst := { t.rst with asserted := l } }) code cold :=
  ⟨h.source, h.held, h.blank, h.units, h.kept, h.reach⟩

end

end Sys2Proof.Machine
end

section
/-! The family of reset, start and power: what raising and ending a condition leave alone, and the commands of Table 14.1. -/

namespace Sys2Proof.Machine

section

variable (s : State)

/-! ## Conditions and warnings (R335, R343, R361) -/

theorem not_mem_eventKeys {k n : Nat} (h : k ∉ eventKeys n) : k ≠ Obj.evt.status n ∧ k ≠ Obj.evt.sticky n ∧ k ≠ Obj.evt.count n
    ∧ k ≠ Obj.evt.lastFrame n ∧ k ≠ Obj.evt.detail n ∧ k ≠ Obj.evt.injected n := by
  simpa only [eventKeys, List.mem_cons, List.not_mem_nil, not_or, or_false] using h

/-- Raising an event changes the objects it says it may, and no setting of the event. -/
theorem objectsKept_raiseFull (f n d : Nat) (inj lasting : Bool) : ObjectsKept s (raiseFull s f n d inj lasting) (eventKeys n) := by
  intro k hk
  obtain ⟨hstatus, hsticky, hcount, hframe, hdetail, hinj⟩ := not_mem_eventKeys hk
  have e (x : State) (y : Events) : getO { x with ev := y } k = getO x k := rfl
  unfold raiseFull
  dsimp only
  split
  · simp only [e, setMany_cons, setMany_nil, getO_setO_ne _ _ hdetail, getO_setO_ne _ _ hinj]
    split <;> rfl
  · simp only [e, setMany_cons, setMany_nil, getO_setO_ne _ _ hstatus, getO_setO_ne _ _ hsticky, getO_setO_ne _ _ hframe,
      getO_setO_ne _ _ hdetail, getO_setO_ne _ _ hinj, getO_bumpSat_ne _ hcount]
    split <;> rfl

/-- Raising an event leaves the log of Moraine as it is. -/
theorem raiseFull_ring (f n d : Nat) (inj lasting : Bool) : (raiseFull s f n d inj lasting).ev.ring = s.ev.ring := by
  unfold raiseFull bumpSat
  dsimp only
  split <;> split <;> simp

theorem eventsOnly_raiseFull (f n d : Nat) (inj lasting : Bool) : EventsOnly s (driveEvtN (raiseFull s f n d inj lasting)) := by
  rw [raiseFull_fields]
  rfl

theorem clearCondition_fields (n : Nat) :
    clearCondition s n = { s with obj := (clearCondition s n).obj, ev := (clearCondition s n).ev } := by
  unfold clearCondition
  dsimp only
  split <;> rfl

@[simp] theorem clearCondition_rst (n : Nat) : (clearCondition s n).rst = s.rst := by rw [clearCondition_fields]

theorem objectsKept_clearCondition (n : Nat) : ObjectsKept s (clearCondition s n) [Obj.evt.status n] := by
  intro k hk
  unfold clearCondition
  dsimp only
  split
  · rfl
  · exact getO_setO_ne _ _ (List.ne_of_not_mem_cons hk)

/-! ## The commands -/

theorem filterTakes_long {ns : Nat} (h : 1600 ≤ ns) : filterTakes ns = true := by simp [filterTakes, h]

theorem filterTakes_short {ns : Nat} (h : ns < 1400) : filterTakes ns = false := by
  have h16 : ¬ 1600 ≤ ns := by omega
  have h14 : ¬ 1400 ≤ ns := by omega
  simp [filterTakes, h16, h14]

theorem completes_softResetDelay {cold : Bool} (h : s.rst.soft = some cold) : Completes .softResetDelay s (fun t =>
    ResetTaken s t 3 cold ∧ 3 ∉ t.rst.asserted ∧ t.rst.soft = none ∧ t.pins = s.pins) := by
  have hx : execSoftResetDelay s = done (endSource (assertSource (mirrorMoraine s) 3 cold) 3) := by
    unfold execSoftResetDelay
    rw [h]
  refine ⟨_, hx, ?_, fun hm => ?_, ?_, ?_⟩
  · exact ((resetTaken_assertSource (mirrorMoraine s) 3 cold).mirrored (mirrorMoraine_fields s) (mirrorMoraine_writes s)).ended _ _ _
  · exact absurd (List.mem_filter.mp hm).2 (by decide)
  · rw [driveEvtN_rst, endSource_rst, assertSource_rst, (wipe_keeps _ _).2.1]; rfl
  · rw [driveEvtN_pins, endSource_pins, assertSource_pins, mirrorMoraine_fields]

/-- The engine with THERM_N pulled low or released. -/
def setTherm (low : Bool) : State := { s with rst := { s.rst with thermLow := low } }

theorem execThermalWarn_eq : execThermalWarn s = done (raiseLasting (setTherm s true) 12 noDetail) := rfl

theorem completes_thermalWarn : Completes .thermalWarn s (fun t => t.rst = { s.rst with thermLow := true } ∧ Raises s t 12 noDetail
    ∧ ObjectsKept s t (eventKeys 12) ∧ EventsOnly s { t with rst := s.rst }) := by
  refine ⟨_, execThermalWarn_eq s, raiseLasting_rst _ _ _, ?_, objectsKept_raiseFull (setTherm s true) _ _ _ _ _, ?_⟩
  · exact (raises_driveEvtN ..).mpr ((raises_raiseLasting (setTherm s true) 12 noDetail).earlier rfl id)
  · exact congrArg (fun u : State => { u with rst := s.rst }) (eventsOnly_raiseFull (setTherm s true) _ _ _ _ _)

theorem completes_raise {i : Instr} {n d : Nat} (h : exec i s = done (raise s n d)) :
    Completes i s (fun t => Raises s t n d ∧ ObjectsKept s t (eventKeys n) ∧ EventsOnly s t) :=
  ⟨_, h, raises_raise _ _ _, objectsKept_raiseFull _ _ _ _ _ _, eventsOnly_raiseFull _ _ _ _ _ _⟩

/-- From 110 °C up nothing ends, from 105 °C up the thermal reset alone, below it the warning too. -/
theorem execJunctionCooling_cases (c : Int) :
    (1100 ≤ c ∧ execJunctionCooling c s = done s)
    ∨ (1050 ≤ c ∧ c < 1100 ∧ execJunctionCooling c s = done (endSource s 5))
    ∨ (c < 1050 ∧ execJunctionCooling c s = done (clearCondition (setTherm (endSource s 5) false) 12)) := by
  unfold execJunctionCooling
  by_cases hr : c < 1100
  · by_cases hw : c < 1050
    · exact .inr (.inr ⟨hw, by simp only [if_pos hr, if_pos hw]; rfl⟩)
    · exact .inr (.inl ⟨by omega, hr, by simp only [if_pos hr, if_neg hw]⟩)
  · exact .inl ⟨by omega, by simp only [if_neg hr, if_neg (show ¬ c < 1050 by omega)]⟩

theorem completes_junctionCooling (c : Int) : Completes (.junctionCooling c) s (fun t =>
    (c < 1100 → t.rst.asserted = s.rst.asserted.filter (· != 5)) ∧ (1100 ≤ c → t = driveEvtN s)
    ∧ (c < 1050 → t.rst.thermLow = false) ∧ (1050 ≤ c → t.rst.thermLow = s.rst.thermLow)
    ∧ ObjectsKept s t [Obj.evt.status 12] ∧ EventsOnly s { t with rst := s.rst }) := by
  obtain ⟨hc, hx⟩ | ⟨hw, hr, hx⟩ | ⟨hw, hx⟩ := execJunctionCooling_cases s c
  · exact ⟨_, hx, fun _ => by omega, fun _ => rfl, fun _ => by omega, fun _ => rfl, fun _ _ => rfl, rfl⟩
  · exact ⟨_, hx, fun _ => rfl, fun _ => by omega, fun _ => by omega, fun _ => rfl, fun _ _ => rfl, rfl⟩
  · refine ⟨_, hx, fun _ => ?_, fun _ => by omega, fun _ => ?_, fun _ => by omega, objectsKept_clearCondition _ 12, ?_⟩
    · rw [driveEvtN_rst, clearCondition_rst]; rfl
    · rw [driveEvtN_rst, clearCondition_rst]; rfl
    · rw [clearCondition_fields]; rfl

/-- A VBAT too low for the backup domain clears it (R343, log entry 54); event 14 may be raised on top. -/
theorem completes_vbatLow_lost {mv : Nat} (h : mv < 1450) : Completes (.vbatLow mv) s (fun t =>
    t.ctl.sessions = [] ∧ t.ctl.journal = [] ∧ t.rst.rtc = 0 ∧ t.rst.vbatLost = true ∧ t.bus = { s.bus with aon := [] }
      ∧ t.ev.ring = [] ∧ t.cells = s.cells ∧ t.conf = s.conf ∧ t.out = s.out) := by
  have hx : execVbatLow mv s
      = done (if mv < 1700 ∧ 2 ≤ stageOf (clearBackup s) then raise (clearBackup s) 14 noDetail else clearBackup s) := by
    unfold execVbatLow
    rw [if_pos h]
  refine ⟨_, hx, ?_⟩
  split
  · simp only [driveEvtN_ctl, driveEvtN_rst, driveEvtN_bus, driveEvtN_ev, driveEvtN_cells, driveEvtN_conf, driveEvtN_out, raise_ctl,
      raise_rst, raise_bus, raise_cells, raise_conf, raise_out]
    exact ⟨rfl, rfl, rfl, rfl, rfl, raiseFull_ring _ _ _ _ _ _, rfl, rfl, rfl⟩
  · exact ⟨rfl, rfl, rfl, rfl, rfl, rfl, rfl, rfl, rfl⟩

theorem execVbatLow_warns {mv : Nat} (hlo : 1450 ≤ mv) (hhi : mv < 1700) (h : 2 ≤ stageOf s) :
    execVbatLow mv s = done (raise s 14 noDetail) := by
  unfold execVbatLow
  rw [if_neg (Nat.not_lt.mpr hlo)]
  exact congrArg done (if_pos ⟨hhi, h⟩)

end

end Sys2Proof.Machine
end

section
open Sys2Proof Sys2Proof.Machine

/-- Settles O47: every source is the one operation that asserts it, and returns the engine to reset but for what outlasts the reach;
warnings raise their event; the ends of a source and of a condition leave the rest alone. -/
theorem resetSources : Obligations.ResetSources := by
  unfold Obligations.ResetSources
  intro s
  refine ⟨?_, rfl, fun ns h => ?_, fun ns h => ⟨?_, ?_⟩, fun ns h => ?_, ?_, ?_, fun cold h => completes_softResetDelay s h,
    fun c h => ?_, rfl, completes_thermalWarn s, completes_junctionCooling s, completes_raise s rfl,
    fun mv h => completes_vbatLow_lost s h, fun mv hlo hhi h => completes_raise s (execVbatLow_warns s hlo hhi h)⟩
  · exact ⟨_, rfl, (resetTaken_assertSource s 0 true).ended _ _ _, mem_asserted_assertSource s 0 true,
      congrArg (fun p : Pins => { p with supplyOk := false }) (assertSource_pins s 0 true), rfl⟩
  · have hx : execResetNAssert ns s
        = done { assertSource s 1 true with pins := { (assertSource s 1 true).pins with resetN := false } } :=
      congrArg done (if_pos (filterTakes_long h))
    exact ⟨_, hx, (resetTaken_assertSource s 1 true).ended _ _ _, mem_asserted_assertSource s 1 true,
      congrArg (fun p : Pins => { p with resetN := false }) (assertSource_pins s 1 true)⟩
  · exact congrArg done (if_neg (by rw [filterTakes_short h]; decide))
  · exact congrArg done (if_neg (by rw [filterTakes_short h]; decide))
  · exact congrArg done (if_pos (filterTakes_long h))
  · exact ⟨_, rfl, (resetTaken_assertSource s 2 false).ended _ _ _, mem_asserted_assertSource s 2 false, assertSource_pins s 2 false⟩
  · exact ⟨_, rfl, (resetTaken_assertSource s 5 true).ended _ _ _, mem_asserted_assertSource s 5 true, assertSource_pins s 5 true⟩
  · exact congrArg done (if_pos h)
end
